-- ==== Sys2Proof/Word.lean ====
section
/-!
DEFINITION. The word types of the A9-2400 (R7: bit 0 is the least significant; multi-byte fields are little-endian).
-/

namespace Sys2Proof

/-- A byte of memory, of a packet or of a record. -/
abbrev Byte := BitVec 8
/-- A 32-bit word: a sync counter, a scalar register, a vector lane. -/
abbrev Word := BitVec 32
/-- A 64-bit word: the Sidereal Count, a nonce counter, a session counter. -/
abbrev DWord := BitVec 64

end Sys2Proof
end

