-- ==== Sys2Proof/Syntax.lean ====
section
/-!
DEFINITION. The commands the block takes: one constructor for each row of spec/opcode_table.json, and the operand
types they carry.
-/

namespace Sys2Proof

/-- Who hands Merlen a packet: the submission ring CQn, or the tile command queue entry of tile Tn (R60). -/
inductive Src where
  | ring (n : Nat)
  | tile (t : Nat)
deriving DecidableEq, Repr

/-- A command packet as it stands in its ring: the 64-byte header and the parameter bytes (R38, R48). -/
structure Packet where
  src : Src
  hdr : BitVec 512
  params : List Byte
deriving DecidableEq, Repr

/-- The value of a sync-slot operation: an immediate, or a scalar register of a core (R148). -/
inductive SVal where
  | imm (v : Nat)
  | reg (core r : Nat)
deriving DecidableEq, Repr

/-- Operands of a form-A vector slot (R167); `pipe` is 0 for VEC0 and 1 for VEC1. -/
structure VecA where
  pipe : Nat
  vd : Nat
  va : Nat
  vb : Nat
  vc : Nat
  pm : Nat
  pk : Bool
  mod : Nat
deriving DecidableEq, Repr

/-- Operands of a form-M vector slot (R168). -/
structure VecM where
  pipe : Nat
  vr : Nat
  acore : Nat
  areg : Nat
  sr : Nat
  ofs : Nat
  slot : Nat
  cid : Nat
deriving DecidableEq, Repr

/-- Operands of the scalar forms R, I, U, B, D and V (R181), with the core that executes them. -/
structure ScR where
  core : Nat
  rd : Nat
  ra : Nat
  rb : Nat
deriving DecidableEq, Repr
structure ScI where
  core : Nat
  rd : Nat
  ra : Nat
  imm : Nat
deriving DecidableEq, Repr
structure ScU where
  core : Nat
  rd : Nat
  imm : Nat
deriving DecidableEq, Repr
structure ScB where
  core : Nat
  ra : Nat
  rb : Nat
  target : Nat
deriving DecidableEq, Repr
structure ScD where
  core : Nat
  dr : Nat
  addr : Nat
deriving DecidableEq, Repr
structure ScV where
  core : Nat
  rd : Nat
  vn : Nat
  lane : Nat
deriving DecidableEq, Repr

/-- A flit as it is received or sent (R350, R351): header word, words 1–14 as they travel, word 15, and the words that
the Plate code found uncorrectable and corrected at the receiver. -/
structure Flit where
  hdr : BitVec 128
  payload : BitVec 1792
  tag : BitVec 128
  bad : List Nat
  fixed : List Nat
deriving DecidableEq, Repr

/-- A register of configuration space: Command, base address register k (0 to 5), the MSI-X message control, or another by its
offset (R426, R436). -/
inductive CfgReg where
  | command
  | bar (k : Nat)
  | msixControl
  | other (off : Nat)
deriving DecidableEq, Repr

/-- A command: one constructor for each row of spec/opcode_table.json, in its order. -/
inductive Instr where
  | nop (p : Packet)
  | status (p : Packet)
  | almanacRead (p : Packet)
  | logRead (p : Packet)
  | openShutter (p : Packet)
  | jobReset (p : Packet)
  | fenceAll (p : Packet)
  | jobBind (p : Packet)
  | syncSet (p : Packet)
  | syncAdd (p : Packet)
  | syncWait (p : Packet)
  | syncRead (p : Packet)
  | progLoad (p : Packet)
  | run (p : Packet)
  | preempt (p : Packet)
  | conv3d (p : Packet)
  | conv3dT (p : Packet)
  | attnFwd (p : Packet)
  | attnBwd (p : Packet)
  | poolInit (p : Packet)
  | seqOpen (p : Packet)
  | setDrop (p : Packet)
  | kvShare (p : Packet)
  | kvFree (p : Packet)
  | kvRegenSet (p : Packet)
  | codecTable (p : Packet)
  | codecMapCreate (p : Packet)
  | codecMapDestroy (p : Packet)
  | codecMapDiscard (p : Packet)
  | codecFlush (p : Packet)
  | dmaCopy (p : Packet)
  | offload (p : Packet)
  | prefetch (p : Packet)
  | fwWrite (p : Packet)
  | scaleSetInit (p : Packet)
  | scaleSetWrite (p : Packet)
  | fold (p : Packet)
  | scaleSetBind (p : Packet)
  | stepOpen (p : Packet)
  | stepClose (p : Packet)
  | update (p : Packet)
  | momentFormat (p : Packet)
  | freezeSet (p : Packet)
  | allReduce (p : Packet)
  | reduceScatter (p : Packet)
  | allGather (p : Packet)
  | broadcast (p : Packet)
  | allToAll (p : Packet)
  | send (p : Packet)
  | recv (p : Packet)
  | flagCombine (p : Packet)
  | treeSetSelf (p : Packet)
  | treeSetDefine (p : Packet)
  | treeSetRoutes (p : Packet)
  | treeSetUndefine (p : Packet)
  | exportSet (p : Packet)
  | ephWrite (p : Packet)
  | ephCancel (p : Packet)
  | ephCancelApply
  | config (p : Packet)
  | commit (p : Packet)
  | ledgerSet (p : Packet)
  | advise (p : Packet)
  | snapDrain (p : Packet)
  | restore (p : Packet)
  | ledgerRead (p : Packet)
  | paritySet (p : Packet)
  | rollback (p : Packet)
  | rebuild (p : Packet)
  | sessionOpen (p : Packet)
  | sessionClose (p : Packet)
  | attest (p : Packet)
  | keyRotateDomain (p : Packet)
  | keyRotatePorts (p : Packet)
  | keyRotateJobSecret (p : Packet)
  | debugUnlock (p : Packet)
  | plSet (p : Packet)
  | sleepIdleGate (p : Packet)
  | sleepStow (p : Packet)
  | sleepDark (p : Packet)
  | csuCfg (p : Packet)
  | csuRead (p : Packet)
  | csuWrite (p : Packet)
  | memFill (p : Packet)
  | scrubCfg (p : Packet)
  | domainSetDiscard (p : Packet)
  | domainSetMove (p : Packet)
  | packetDispatch (core : Nat) (tileQueue : Bool)
  | ringEnable (n : Nat) (v : Nat)
  | ringDisable (n : Nat)
  | subTailWrite (n : Nat) (v : Nat)
  | cplHeadWrite (n : Nat) (v : Nat)
  | sidLoadArm (v : Nat)
  | logAckWrite (v : Nat)
  | firstFaultClr (v : Nat)
  | msixUnmask (vec : Option Nat)
  | registerWrite (off : Nat) (size : Nat) (v : Nat)
  | bar4Read (x : Nat) (n : Nat) (ide : Nat)
  | bar4Write (x : Nat) (bs : List Byte) (ide : Nat)
  | bar2Read (x : Nat) (n : Nat) (ide : Nat)
  | bar2Write (x : Nat) (bs : List Byte) (ide : Nat)
  | hostReadCompletion (tag : Nat) (ok : Bool) (bs : List Byte)
  | completionTimeout (tag : Nat)
  | msixSpacingExpiry (v : Nat)
  | step (t : Nat) (g : Nat) (first : Bool)
  | drain (t : Nat) (g : Nat) (odr : Nat)
  | discard (t : Nat) (g : Nat)
  | stepAndDrain (t : Nat) (sg : Nat) (first : Bool) (dg : Nat) (odr : Nat)
  | stepAndDiscard (t : Nat) (sg : Nat) (first : Bool) (dg : Nat)
  | groupSettle (t : Nat) (g : Nat)
  | drainComplete (t : Nat)
  | transientFault (t : Nat) (g : Nat) (row : Nat) (col : Nat)
  | rerunDone (t : Nat)
  | spareRowSwitchDone (t : Nat)
  | load (t : Nat) (mdr : Nat) (ac : Nat)
  | store (t : Nat) (mdr : Nat) (ac : Nat)
  | loadGranuleComplete (t : Nat) (xfer : Nat) (gran : Nat)
  | storeGranuleAck (t : Nat) (xfer : Nat) (gran : Nat)
  | moveAccessStarvation (t : Nat)
  | syncSlotWait (t : Nat) (ctr : Nat) (cond : Nat) (v : SVal)
  | syncSlotAdd (t : Nat) (ctr : Nat) (v : SVal)
  | syncSlotSet (t : Nat) (ctr : Nat) (v : SVal)
  | waitAc (t : Nat) (ac : Nat) (cond : Nat) (v : SVal)
  | setAc (t : Nat) (ac : Nat) (v : SVal)
  | syncOpEffect (ctr : Nat)
  | waitTimeout (t : Nat)
  | runStart
  | tileFinish (t : Nat)
  | preemptBoundary (t : Nat)
  | preemptSaveDone (t : Nat)
  | opResultReady (t : Nat)
  | vecAdd (t : Nat) (a : VecA)
  | vecSub (t : Nat) (a : VecA)
  | vecMul (t : Nat) (a : VecA)
  | vecFma (t : Nat) (a : VecA)
  | vecMin (t : Nat) (a : VecA)
  | vecMax (t : Nat) (a : VecA)
  | vecAbs (t : Nat) (a : VecA)
  | vecNeg (t : Nat) (a : VecA)
  | vecSel (t : Nat) (a : VecA)
  | vecCmp (t : Nat) (a : VecA)
  | vecAnd (t : Nat) (a : VecA)
  | vecOr (t : Nat) (a : VecA)
  | vecXor (t : Nat) (a : VecA)
  | vecIadd (t : Nat) (a : VecA)
  | vecCvt (t : Nat) (a : VecA)
  | vecScalest (t : Nat) (a : VecA)
  | vecBcast (t : Nat) (a : VecA)
  | vecRot (t : Nat) (a : VecA)
  | vecFtoi (t : Nat) (a : VecA)
  | vecItof (t : Nat) (a : VecA)
  | vecExp2 (t : Nat) (a : VecA)
  | vecExp (t : Nat) (a : VecA)
  | vecExpd (t : Nat) (a : VecA)
  | vecLog2 (t : Nat) (a : VecA)
  | vecRcp (t : Nat) (a : VecA)
  | vecRsqrt (t : Nat) (a : VecA)
  | vecSqrt (t : Nat) (a : VecA)
  | vecSigm (t : Nat) (a : VecA)
  | vecTanh (t : Nat) (a : VecA)
  | vecSint (t : Nat) (a : VecA)
  | vecCost (t : Nat) (a : VecA)
  | vecRsum (t : Nat) (a : VecA)
  | vecRmax (t : Nat) (a : VecA)
  | vecRamax (t : Nat) (a : VecA)
  | vecLdrL (t : Nat) (a : VecM)
  | vecLdrH (t : Nat) (a : VecM)
  | vecLdc (t : Nat) (a : VecM)
  | vecMld (t : Nat) (a : VecM)
  | vecStrL (t : Nat) (a : VecM)
  | vecStrH (t : Nat) (a : VecM)
  | vecStc (t : Nat) (a : VecM)
  | vecMst (t : Nat) (a : VecM)
  | vecCstore (t : Nat) (a : VecM)
  | vecCclr (t : Nat) (a : VecM)
  | scalarAdd (t : Nat) (a : ScR)
  | scalarSub (t : Nat) (a : ScR)
  | scalarAnd (t : Nat) (a : ScR)
  | scalarOr (t : Nat) (a : ScR)
  | scalarXor (t : Nat) (a : ScR)
  | scalarShl (t : Nat) (a : ScR)
  | scalarShr (t : Nat) (a : ScR)
  | scalarSar (t : Nat) (a : ScR)
  | scalarSlt (t : Nat) (a : ScR)
  | scalarSltu (t : Nat) (a : ScR)
  | scalarMul (t : Nat) (a : ScR)
  | scalarMulhu (t : Nat) (a : ScR)
  | scalarAddi (t : Nat) (a : ScI)
  | scalarAndi (t : Nat) (a : ScI)
  | scalarOri (t : Nat) (a : ScI)
  | scalarXori (t : Nat) (a : ScI)
  | scalarShli (t : Nat) (a : ScI)
  | scalarShri (t : Nat) (a : ScI)
  | scalarSari (t : Nat) (a : ScI)
  | scalarLi (t : Nat) (a : ScU)
  | scalarLui (t : Nat) (a : ScU)
  | scalarDivu (t : Nat) (a : ScR)
  | scalarRemu (t : Nat) (a : ScR)
  | scalarLd (t : Nat) (a : ScI)
  | scalarSt (t : Nat) (a : ScI)
  | scalarWdr (t : Nat) (a : ScD)
  | scalarWdrr (t : Nat) (a : ScI)
  | scalarVget (t : Nat) (a : ScV)
  | scalarRdsc (t : Nat) (a : ScU)
  | scalarPkt (t : Nat) (a : ScI)
  | scalarBr (t : Nat) (a : ScB)
  | scalarBeq (t : Nat) (a : ScB)
  | scalarBne (t : Nat) (a : ScB)
  | scalarBlt (t : Nat) (a : ScB)
  | scalarBge (t : Nat) (a : ScB)
  | scalarDbnz (t : Nat) (a : ScB)
  | convFinish (id : Nat) (cycles : Nat)
  | attnFinish (id : Nat) (cycles : Nat)
  | kvAdmission (id : Nat)
  | kvCopyDone (id : Nat)
  | patrolScrub (p : Nat) (loc : Nat) (upsets : List (Nat × Nat)) (retryOk : Bool) (perm : Bool)
  | migrationCopy
  | migrationDone
  | walkerGranule (d : Nat)
  | walkDone (d : Nat)
  | memTempSample (h : Nat) (temp : Nat)
  | tierHead (ch : Nat)
  | tierNotBefore (ch : Nat)
  | tierDeadline (ch : Nat)
  | pathGrant (path : Nat)
  | tierCommit (ch : Nat)
  | flitSlotFill (m : Nat)
  | flitIdle (m : Nat) (f : Flit)
  | flitData (m : Nat) (f : Flit)
  | flitTime (m : Nat) (f : Flit)
  | flitShutter (m : Nat) (f : Flit)
  | flitKeychg (m : Nat) (f : Flit)
  | flitSleep (m : Nat) (f : Flit)
  | replayTimeout (m : Nat)
  | portTrainingDone (m : Nat) (good : Nat) (peerId : Nat) (peerGen : Nat) (peerNonce : Nat)
  | trainNoSignal (m : Nat)
  | signalDetect (m : Nat)
  | lossOfSignal (m : Nat)
  | wakePattern (m : Nat)
  | timeCodeSend (m : Nat)
  | shutterNoticeSend (m : Nat)
  | peerShutterEnd (m : Nat)
  | peerWrite (src : Nat) (no : Nat)
  | writeAck (src : Nat) (no : Nat)
  | readReq (src : Nat) (no : Nat)
  | readRsp (src : Nat) (no : Nat)
  | collStart (src : Nat) (no : Nat)
  | collData (src : Nat) (no : Nat)
  | collAbort (src : Nat) (no : Nat)
  | unreach (src : Nat) (no : Nat)
  | parityDelta (src : Nat) (no : Nat)
  | parityDone (src : Nat) (no : Nat)
  | fetch (src : Nat) (no : Nat)
  | fetchData (src : Nat) (no : Nat)
  | collTimeout (tree : Nat) (seq : Nat)
  | rebuildFetchTimeout
  | wpCopyDone (page : Nat)
  | streamComplete (k : Nat)
  | streamWriteFail (k : Nat)
  | sidClkAbsent
  | sidClkValid
  | sidMark (long : Bool)
  | holdoverLimit
  | ephCollStart (serial : Nat)
  | bucketRelease (serial : Nat)
  | snapCut (serial : Nat)
  | plChange (serial : Nat)
  | ephSyncAdd (serial : Nat)
  | ephSyncSet (serial : Nat)
  | thermalCauseClear
  | throttleAssert
  | throttleRelease
  | throttlePeriod
  | fastCurrentTrip
  | fastCurrentRelease
  | inputPowerStep (watts : Nat)
  | inputPowerRelease (watts : Nat)
  | dieTempStep (sensor : Nat) (temp : Nat)
  | dieTempHard (sensor : Nat) (temp : Nat)
  | dieTempRelease (temps : List Nat)
  | stackTempStep
  | limiterReturnStep
  | pl7LimitPersist
  | plVoltageReached
  | sleepEntryDone
  | wakePin (rested : Bool)
  | wakeDriveEnd
  | d3hotEntry
  | d0Entry
  | pmeTurnOff
  | configWrite (what : CfgReg) (v : Nat)
  | powerOnReset
  | brownout
  | brownoutRecovery
  | perstAssert
  | perstDeassert
  | functionLevelReset
  | hotReset
  | linkDown
  | romInitDone (agree : Bool) (us : Nat)
  | bootGo (us : Nat)
  | bootFetchDone (us : Nat)
  | bootVerifyDone (us : Nat)
  | bootCommitDone (readback : Bool) (us : Nat)
  | merlenInitDone (us : Nat)
  | selfTestDone (stage : Nat) (unit : Nat) (index : Nat) (pcs : List Nat) (phys : List Nat) (rows : List (Nat × Nat)) (us : Nat)
  | trustFailure
  | trustKat (ok : Bool)
  | mctpControl (t : Nat) (cmd : Nat) (a : Nat) (e : Nat)
  | spdmRequest (t : Nat) (req : List Byte)
  | vendorDefinedRequest (t : Nat) (code : Nat)
  | getHealth (t : Nat) (seq : Nat)
  | getTemps (t : Nat) (seq : Nat)
  | getPower (t : Nat) (seq : Nat) (mv : Nat) (ma : Nat) (aux : Nat)
  | getAlmanac (t : Nat) (seq : Nat)
  | getLog (t : Nat) (seq : Nat) (first : Nat) (count : Nat)
  | setPlCeiling (t : Nat) (seq : Nat) (l : Nat)
  | resetModule (t : Nat) (seq : Nat)
  | ideKm (t : Nat) (act : Nat) (stream : Nat) (set : Nat)
  | lockInterface
  | startInterface
  | stopInterface
  | tapReset
  | jtagIrLoad (code : Nat)
  | bypass (n : Nat) (v : Nat)
  | idcode
  | samplePreload (n : Nat) (captured : Nat) (v : Nat)
  | extest (n : Nat) (captured : Nat) (v : Nat)
  | clamp (n : Nat) (v : Nat)
  | highz (n : Nat) (v : Nat)
  | extestPulse (n : Nat) (captured : Nat) (v : Nat)
  | extestTrain (n : Nat) (captured : Nat) (v : Nat)
  | dbgRead (off : Nat)
  | dbgFull (da : Nat) (n : Nat) (bs : List Byte)
  | sidClkTick (valid : Bool)
  | scNowRead (off : Nat) (size : Nat)
  | updateBlockPass (q : Nat)
  | voltageSlewDownDone
  | clockSourceSwitchDone
  | sleepWakeDone
  | i3cDynamicAddress (addr : Nat)
deriving DecidableEq, Repr

end Sys2Proof
end

