-- ==== Sys2Proof/Config.lean ====
section
/-!
DEFINITION. What the spec leaves to the part, to a named cryptographic standard or to chance: opaque constants with
no body, so that nothing can be proved of the values they take. Each is named in the assumption log.
-/

namespace Sys2Proof.Config

/-- Draw number n of the trust engine's random source (R414, R415): w bits. Log entry 3. -/
opaque random (n : Nat) : Nat
/-- A value that R5 or another rule leaves unspecified, by a number the step draws. Log entry 4. -/
opaque freeValue (n : Nat) : Nat
/-- The AES-256-GCM keystream of a key and an IV, n bytes (R57, R59, R303, R354). Log entry 5. -/
opaque gcmStream (key iv n : Nat) : List Byte
/-- The AES-256-GCM tag over additional data and ciphertext (R57, R59, R303, R354). Log entry 5. -/
opaque gcmTag (key iv : Nat) (aad ct : List Byte) : Nat
/-- SHA-384 of some bytes (R66, R406, R411, R413). Log entry 5. -/
opaque sha384 (bs : List Byte) : Nat
/-- HKDF-Extract and HKDF-Expand with SHA-384 (R415, R416). Log entry 5. -/
opaque hkdfExtract (salt ikm : List Byte) : Nat
opaque hkdfExpand (prk : Nat) (info : List Byte) (n : Nat) : Nat
/-- Does an ECDSA P-384 signature verify (R406, R408, R416)? Log entry 5. -/
opaque ecdsaVerify (pub sig msg : List Byte) : Bool
/-- Does an LMS or HSS signature verify (R406, R408)? Log entry 5. -/
opaque lmsVerify (pub sig msg : List Byte) : Bool
/-- An ECDSA P-384 signature by a private key (R412, R413, R416). Log entry 5. -/
opaque ecdsaSign (key : Nat) (msg : List Byte) : List Byte
/-- An LMS signature with one leaf of a tree (R409, R412, R413, R416). Log entry 5. -/
opaque lmsSign (seed leaf : Nat) (msg : List Byte) : List Byte
/-- The public key of an ECDSA P-384 private key, and of an LMS tree (R405, R409). Log entry 5. -/
opaque ecdsaPub (key : Nat) : List Byte
opaque lmsPub (seed : Nat) : List Byte
/-- The ECDH shared x-coordinate (R416). Log entry 5. -/
opaque ecdhX (key : Nat) (pub : List Byte) : List Byte
/-- AES-256 key wrap (RFC 3394) and its unwrap (R385). Log entry 5. -/
opaque keyWrap (kek key : Nat) : Nat
opaque keyUnwrap (kek wrapped : Nat) : Option Nat

/-- Values left to the part: fused identity, stepping, vendor identities, roots. Log entry 6. -/
opaque deviceId : Nat
opaque stepping : Nat
opaque pciVendor : Nat
opaque jedecId : Nat
opaque idcodeVersion : Nat
opaque deviceEcdsaKey : Nat
opaque longTermLms : Nat
opaque vendorRootEcdsa (k : Nat) : List Byte
opaque vendorRootHss (k : Nat) : List Byte
opaque romDigest : Nat
opaque certChain : List Byte
/-- The version word of the Merlen image that runs (R66 MERLEN_VER). Log entry 6. -/
opaque merlenVersion : Nat
/-- The fused trim of the core voltage of a performance level, in mV (R461, R465). Log entry 6. -/
opaque plVoltage (pl : Nat) : Nat
/-- The board's response to what the spec gives no bytes for: an SPDM response body (R412). Log entry 7. -/
opaque spdmBody (n : Nat) (req : List Byte) : List Byte

end Sys2Proof.Config
end

