-- ==== Sys2Proof/Machine/Bits.lean ====
section
/-!
DEFINITION. Bit fields, byte order, check functions and sparse tables: the small functions every rule of the
spec is written with. Field ranges are written high:low as the spec writes them (R7).
-/

namespace Sys2Proof.Machine

/-- Bits hi:lo of a number (R7). -/
def bits (x hi lo : Nat) : Nat := (x >>> lo) % 2 ^ (hi + 1 - lo)

/-- Bit i of a number. -/
def bit (x i : Nat) : Bool := x.testBit i

/-- A Bool as the bit the spec writes. -/
def b2n (b : Bool) : Nat := if b then 1 else 0

/-- The two's complement reading of the low n bits. -/
def sx (n x : Nat) : Int :=
  let y := x % 2 ^ n
  if 2 ^ n ≤ 2 * y then (y : Int) - (2 ^ n : Nat) else y

/-- The low n bits of an integer, as a number. -/
def wrap (n : Nat) (x : Int) : Nat := (x % (2 ^ n : Nat)).toNat

/-- Quotient rounded up. -/
def ceilDiv (a b : Nat) : Nat := (a + b - 1) / b

/-- Set bit i of a number to v. -/
def setBit (x i : Nat) (v : Bool) : Nat :=
  if bit x i = v then x else if v then x + 2 ^ i else x - 2 ^ i

/-- The number that bytes spell, the first the least significant (R7). -/
def leNat : List Byte → Nat
  | [] => 0
  | b :: bs => b.toNat + 256 * leNat bs

/-- The n bytes that spell a number, the least significant first (R7). -/
def leBytes : Nat → Nat → List Byte
  | 0, _ => []
  | n + 1, x => BitVec.ofNat 8 x :: leBytes n (x / 256)

/-- The n bytes that spell a number, the most significant first. -/
def beBytes (n x : Nat) : List Byte := (leBytes n x).reverse

/-- Lay fields out as one number: each pair is (lowest bit, value). -/
def fields (fs : List (Nat × Nat)) : Nat :=
  fs.foldl (fun acc f => acc ||| (f.2 <<< f.1)) 0

/-- One byte of a reflected CRC: polynomial `poly` as its reflected constant. -/
def crcByte (poly : Nat) (crc : Nat) (b : Byte) : Nat :=
  (List.range 8).foldl (fun c _ => if c % 2 = 1 then (c / 2) ^^^ poly else c / 2) (crc ^^^ b.toNat)

/-- The running register of CRC-32C (R48) after some bytes. -/
def crc32cRun (st : Nat) (bs : List Byte) : Nat := bs.foldl (crcByte 0x82F63B78) st

/-- CRC-32C: Castagnoli, reflected, initial value and final XOR all ones (R48). -/
def crc32c (bs : List Byte) : Nat := crc32cRun 0xFFFFFFFF bs ^^^ 0xFFFFFFFF

/-- The running register of CRC-64 ECMA-182, reflected (R455). -/
def crc64Run (st : Nat) (bs : List Byte) : Nat := bs.foldl (crcByte 0xC96C5795D7870F42) st

/-! ### Sparse tables: lists of (key, value), keys strictly rising, no entry equal to the default. -/

/-- A table over all natural keys, of which only the entries unlike the default are listed. -/
abbrev Sparse (α : Type) := List (Nat × α)

/-- The value at a key. -/
def Sparse.get {α : Type} (d : α) (k : Nat) : Sparse α → α
  | [] => d
  | (j, w) :: m => if j = k then w else Sparse.get d k m

/-- The table with a key's value replaced; a default value is not listed. -/
def Sparse.set {α : Type} [DecidableEq α] (d : α) (k : Nat) (v : α) : Sparse α → Sparse α
  | [] => if v = d then [] else [(k, v)]
  | (j, w) :: m =>
    if k < j then (if v = d then (j, w) :: m else (k, v) :: (j, w) :: m)
    else if k = j then (if v = d then m else (k, v) :: m)
    else (j, w) :: Sparse.set d k v m

/-- Every key of the table lies above a bound. -/
def Sparse.above {α : Type} (b : Nat) (m : Sparse α) : Bool := m.all (fun e => b < e.1)

/-- The canonical form: keys strictly rising and no default listed. -/
def Sparse.wf {α : Type} [DecidableEq α] (d : α) : Sparse α → Bool
  | [] => true
  | (j, w) :: m => decide (w ≠ d) && Sparse.above j m && Sparse.wf d m

/-- The table with an entry rewritten by a function. -/
def Sparse.upd {α : Type} [DecidableEq α] (d : α) (k : Nat) (f : α → α) (m : Sparse α) : Sparse α :=
  m.set d k (f (m.get d k))

/-- Consecutive keys from `k` take the listed values. -/
def Sparse.setL {α : Type} [DecidableEq α] (d : α) (k : Nat) : List α → Sparse α → Sparse α
  | [], m => m
  | v :: vs, m => Sparse.setL d (k + 1) vs (m.set d k v)

/-- The values at n consecutive keys from `k`. -/
def Sparse.getL {α : Type} (d : α) (k n : Nat) (m : Sparse α) : List α :=
  (List.range n).map (fun i => m.get d (k + i))

/-- Every key from lo up to hi (exclusive) returns to the default. -/
def Sparse.clear {α : Type} (lo hi : Nat) (m : Sparse α) : Sparse α :=
  m.filter (fun e => decide (e.1 < lo) || decide (hi ≤ e.1))

end Sys2Proof.Machine
end

