-- ==== Sys2Proof/Machine/Num.lean ====
section
/-!
DEFINITION. Number formats (spec/04): Filter Wheel entries, exact values, decoding (R86, R90), encoding (R94, R96),
block scales (R91, R92), the 48-bit accumulator rounding (R116), and the exact arithmetic the units round once.
Every value is an exact dyadic number, a signed infinity or NaN; NaN payloads are never kept (R88).
-/

namespace Sys2Proof.Machine

/-- A value: NaN, a signed infinity, or ±m·2^e with its sign kept for zero (R88). -/
inductive FV where
  | nan
  | inf (neg : Bool)
  | fin (neg : Bool) (m : Nat) (e : Int)
deriving DecidableEq, Repr

/-- An exact dyadic number n·2^e. -/
structure Dy where
  n : Int
  e : Int
deriving DecidableEq, Repr

/-- A Filter Wheel entry, field by field (R101). -/
structure Fmt where
  bias : Nat
  width : Nat
  ew : Nat
  mw : Nat
  signed : Bool
  special : Nat
  sat : Nat
  kind : Nat
deriving DecidableEq, Repr

/-- The fields of a 64-bit Filter Wheel entry (R101). -/
def fmtOf (w : Nat) : Fmt :=
  { bias := bits w 47 40, width := bits w 39 34, ew := bits w 33 30, mw := bits w 29 25, signed := bit w 24,
    special := bits w 23 22, sat := bits w 21 20, kind := bits w 19 16 }

/-- The fixed entries of slots 0 to 9 (R103). -/
def builtinFw : List Nat :=
  [0x00007F822F930000, 0x00007F420F930000, 0x00000F4155930000, 0x0000072107410000, 0x00000F2145810000,
   0x00000318C5010000, 0x0000011887010000, 0x0000011083010000, 0x000006200F020000, 0x00007F2200410000]

/-- FP32, BF16 and FP16 (R85, slots 0, 1, 2). -/
def fp32 : Fmt := fmtOf 0x00007F822F930000
def bf16 : Fmt := fmtOf 0x00007F420F930000
def fp16 : Fmt := fmtOf 0x00000F4155930000

/-! ### Exact dyadic arithmetic -/

/-- n·2^k as an integer for k ≥ 0. -/
def shl (n : Int) (k : Int) : Int := n * (2 ^ k.toNat : Nat)

def Dy.add (a b : Dy) : Dy :=
  if a.n = 0 then b else if b.n = 0 then a else
  let e := min a.e b.e
  ⟨shl a.n (a.e - e) + shl b.n (b.e - e), e⟩

def Dy.mul (a b : Dy) : Dy := ⟨a.n * b.n, a.e + b.e⟩
def Dy.neg (a : Dy) : Dy := ⟨-a.n, a.e⟩
def Dy.abs (a : Dy) : Dy := ⟨a.n.natAbs, a.e⟩
def Dy.sub (a b : Dy) : Dy := a.add b.neg

/-- Is a < b? -/
def Dy.lt (a b : Dy) : Bool := decide ((a.sub b).n < 0)
def Dy.le (a b : Dy) : Bool := decide ((a.sub b).n ≤ 0)
def Dy.eq (a b : Dy) : Bool := decide ((a.sub b).n = 0)

/-- m / 2^s rounded to the nearest integer, ties to even (R94). -/
def rne (m s : Nat) : Nat :=
  let q := m / 2 ^ s
  let r := m % 2 ^ s
  if 2 * r < 2 ^ s then q else if 2 ^ s < 2 * r then q + 1 else if s = 0 then q else q + q % 2

/-- The number of bits of m. -/
def nbits (m : Nat) : Nat := if m = 0 then 0 else Nat.log2 m + 1

/-- Round to p significant bits, ties to even, the exponent unbounded (R116 with p = 48). -/
def Dy.roundSig (p : Nat) (a : Dy) : Dy :=
  let k := nbits a.n.natAbs
  if k ≤ p then a else
    let r : Int := rne a.n.natAbs (k - p)
    ⟨if a.n < 0 then -r else r, a.e + (k - p : Nat)⟩

def round48 (a : Dy) : Dy := a.roundSig 48

/-- The exact value of a finite value; 0 for the others. -/
def FV.dy : FV → Dy
  | .fin neg m e => ⟨if neg then -(m : Int) else m, e⟩
  | _ => ⟨0, 0⟩

/-- The sign of a value (false for NaN). -/
def FV.isNeg : FV → Bool
  | .nan => false
  | .inf neg => neg
  | .fin neg _ _ => neg

/-- Is the value ±0? -/
def FV.isZero : FV → Bool
  | .fin _ 0 _ => true
  | _ => false

def FV.isFin : FV → Bool
  | .fin _ _ _ => true
  | _ => false

def FV.isNan : FV → Bool
  | .nan => true
  | _ => false

/-- A dyadic as a value; zero takes the sign given. -/
def FV.ofDy (zneg : Bool) (d : Dy) : FV :=
  if d.n = 0 then .fin zneg 0 0 else .fin (decide (d.n < 0)) d.n.natAbs d.e

def FV.neg : FV → FV
  | .nan => .nan
  | .inf s => .inf (!s)
  | .fin s m e => .fin (!s) m e

/-! ### Formats -/

/-- The exponent of the largest finite power of two (R91, R101). -/
def Fmt.emax (f : Fmt) : Int :=
  if f.kind = 2 then 0 else if f.special = 2 then (2 ^ f.ew : Nat) - 2 - (f.bias : Int)
  else if f.special = 1 ∧ f.mw = 0 then (2 ^ f.ew : Nat) - 2 - (f.bias : Int)
  else (2 ^ f.ew : Nat) - 1 - (f.bias : Int)

/-- The exponent that R91 subtracts: that of the format's largest finite power of two. With SPECIAL 1 and MW = 1 the
code of 2^emax·1.5 is NaN and 2^emax itself is the largest. -/
def Fmt.emaxPow (f : Fmt) : Int := f.emax

/-- maxfinite (R101); for an integer format 2^(WIDTH−1) − 1 steps (R85, R94). -/
def Fmt.maxfinite (f : Fmt) : Dy :=
  if f.kind = 2 then ⟨(2 ^ (f.width - 1) : Nat) - 1, -(f.bias : Int)⟩
  else if f.mw = 0 then ⟨1, f.emax⟩
  else if f.special = 1 then ⟨(2 ^ (f.mw + 1) : Nat) - 2, f.emax - f.mw⟩
  else ⟨(2 ^ (f.mw + 1) : Nat) - 1, f.emax - f.mw⟩

/-- The code with a sign placed as the top bit (R101). -/
def Fmt.sign (f : Fmt) (neg : Bool) (mag : Nat) : Nat :=
  if f.signed && neg then mag + 2 ^ (f.ew + f.mw) else mag

/-- The NaN the A9 writes (R88). -/
def Fmt.nanCode (f : Fmt) : Nat :=
  if f.special = 2 then (2 ^ f.ew - 1) * 2 ^ f.mw + 2 ^ (f.mw - 1) else 2 ^ (f.ew + f.mw) - 1

/-- Does the format have a NaN code, infinities? -/
def Fmt.hasNan (f : Fmt) : Bool := f.kind ≠ 2 && f.special ≠ 0
def Fmt.hasInf (f : Fmt) : Bool := f.kind ≠ 2 && f.special = 2

/-- The code of ±Inf where the format has one. -/
def Fmt.infCode (f : Fmt) (neg : Bool) : Nat := f.sign neg ((2 ^ f.ew - 1) * 2 ^ f.mw)

/-- The code of ±maxfinite. -/
def Fmt.maxCode (f : Fmt) (neg : Bool) : Nat :=
  if f.kind = 2 then (if neg then 2 ^ f.width - (2 ^ (f.width - 1) - 1) else 2 ^ (f.width - 1) - 1)
  else if f.special = 2 then f.sign neg ((2 ^ f.ew - 1) * 2 ^ f.mw - 1)
  else if f.special = 1 then f.sign neg (2 ^ (f.ew + f.mw) - 2)
  else f.sign neg (2 ^ (f.ew + f.mw) - 1)

/-- Decode a code (R86); every NaN code is NaN (R88). -/
def Fmt.decode (f : Fmt) (code : Nat) : FV :=
  if f.kind = 2 then
    let i := sx f.width code
    .fin (decide (i < 0)) i.natAbs (-(f.bias : Int))
  else
    let neg := f.signed && bit code (f.ew + f.mw)
    let mag := code % 2 ^ (f.ew + f.mw)
    let ex := mag / 2 ^ f.mw
    let man := mag % 2 ^ f.mw
    if f.special = 2 ∧ ex = 2 ^ f.ew - 1 then (if man = 0 then .inf neg else .nan)
    else if f.special = 1 ∧ mag = 2 ^ (f.ew + f.mw) - 1 then .nan
    else if ex = 0 ∧ 1 ≤ f.mw then .fin neg man (1 - (f.bias : Int) - f.mw)
    else .fin neg (2 ^ f.mw + man) ((ex : Int) - f.bias - f.mw)

/-- The result of an overflow by the format's SAT rule (R101). -/
def Fmt.overflow (f : Fmt) (neg : Bool) : Nat :=
  if f.sat = 1 then f.infCode neg else if f.sat = 2 then f.nanCode else f.maxCode neg

/-- What became of an encoded value, for the census classes of R97. A saturation may have written a finite value or a non-finite
one, and a non-finite source may have been written as a finite value. -/
inductive EncClass where
  | normal | zero | sat | satInf | nonfinite | nonfiniteFin
deriving DecidableEq, Repr

def EncClass.isSat (k : EncClass) : Bool := k = .sat || k = .satInf
def EncClass.isNonfinite (k : EncClass) : Bool := k = .nonfinite || k = .nonfiniteFin
/-- Was a non-finite value written? -/
def EncClass.wroteNonfinite (k : EncClass) : Bool := k = .satInf || k = .nonfinite

/-- Encode a finite value: the code, and whether it saturated (R94). -/
def Fmt.encFin (f : Fmt) (neg : Bool) (m : Nat) (e : Int) : Nat × Bool :=
  if f.kind = 2 then
    -- v·2^BIAS rounded half to even and clamped (R94)
    let s := e + f.bias
    let r := if 0 ≤ s then m * 2 ^ s.toNat else rne m (-s).toNat
    let top := 2 ^ (f.width - 1) - 1
    let ovr := decide (top < r)
    let r' := if ovr then top else r
    (if neg ∧ r' ≠ 0 then 2 ^ f.width - r' else r', ovr)
  else if m = 0 then (f.sign neg 0, false)
  else if !f.signed && neg then (0, true)
  else
    let ex := max ((Nat.log2 m : Int) + e) (1 - (f.bias : Int))
    let qe := ex - f.mw
    let s := qe - e
    let r := if s ≤ 0 then m * 2 ^ (-s).toNat else rne m s.toNat
    if (f.maxfinite).lt ⟨r, qe⟩ then (f.overflow neg, true)
    else
      let (r, qe) := if 2 ^ (f.mw + 1) ≤ r then (r / 2, qe + 1) else (r, qe)
      if 2 ^ f.mw ≤ r then (f.sign neg (((qe + f.mw + f.bias).toNat) * 2 ^ f.mw + (r - 2 ^ f.mw)), false)
      else (f.sign neg r, false)

/-- Encode any value into a format that is not block-scaled, or one element of a block whose NaN it can hold
(R94, R96). -/
def Fmt.enc (f : Fmt) : FV → Nat × EncClass
  | .nan => (if f.hasNan then f.nanCode else 0, .nonfinite)
  | .inf neg =>
    let c := if neg && !f.signed then 0 else if f.hasInf then f.infCode neg else f.overflow neg
    (c, if (f.decode c).isFin then .nonfiniteFin else .nonfinite)
  | .fin neg m e =>
    let (c, ovr) := f.encFin neg m e
    (c, if ovr then (if (f.decode c).isFin then .sat else .satInf) else if (f.decode c).isZero then .zero else .normal)

/-- Round a value to FP32 and give its code. -/
def enc32 (v : FV) : Word := BitVec.ofNat 32 (fp32.enc v).1
def dec32 (w : Word) : FV := fp32.decode w.toNat
/-- Round a value to a format and decode it again. -/
def Fmt.round (f : Fmt) (v : FV) : FV := f.decode (f.enc v).1

/-- The value 2^(code − 127) of an E8M0 code; none for 0xFF (R85). -/
def e8m0 (code : Nat) : Option Int := if code = 0xFF then none else some ((code : Int) - 127)

/-- Clamp an exponent and encode it as E8M0 (R91). -/
def e8m0Code (x : Int) : Nat := (max (-127) (min 127 x) + 127).toNat

/-- floor(log2 |d|) of a non-zero dyadic. -/
def Dy.floorLog2 (d : Dy) : Int := (Nat.log2 d.n.natAbs : Int) + d.e

/-- The largest finite magnitude of some values, as a non-negative dyadic. -/
def amaxOf (vs : List FV) : Dy :=
  vs.foldl (fun a v => if v.isFin && a.lt v.dy.abs then v.dy.abs else a) ⟨0, 0⟩

/-- The E8M0 scale code of a block by rule 0 OCP or 1 HEADROOM (R91); `amax` is taken after any tensor factor. -/
def scaleCode (f : Fmt) (rule : Nat) (amax : Dy) : Nat :=
  if amax.n = 0 then 0
  else if rule = 0 then e8m0Code (amax.floorLog2 - f.emaxPow)
  else
    let mx := f.maxfinite
    let x0 := amax.floorLog2 - mx.floorLog2
    -- the smallest x with amax ≤ maxfinite·2^x
    e8m0Code (if amax.le ⟨mx.n, mx.e + x0⟩ then x0 else x0 + 1)

/-- A value scaled by 2^-x. -/
def FV.scale (x : Int) : FV → FV
  | .fin neg m e => .fin neg m (e + x)
  | v => v

/-- What encoding a block gives: the scale code, the element codes, their classes (R91, R92, R97). -/
structure BlockEnc where
  scale : Nat
  codes : List Nat
  classes : List EncClass
deriving DecidableEq, Repr

/-- Encode one block under a given scale code (R92, R94): a NaN the format cannot represent makes the whole
block NaN. -/
def encBlockWith (f : Fmt) (code : Nat) (vs : List FV) : BlockEnc :=
  if vs.any (fun v => v.isNan) && !f.hasNan then
    { scale := 0xFF, codes := vs.map (fun _ => 0), classes := vs.map (fun _ => .nonfinite) }
  else
    let x := (code : Int) - 127
    let cs := vs.map (fun v => f.enc (v.scale (-x)))
    { scale := code, codes := cs.map (·.1), classes := cs.map (·.2) }

/-- Encode one block by a SCALE_RULE; `tensor` is the code of rule 2 (R91). -/
def encBlock (f : Fmt) (rule tensor : Nat) (vs : List FV) : BlockEnc :=
  encBlockWith f (if rule = 2 then tensor else scaleCode f rule (amaxOf vs)) vs

/-- Decode one element of a block under a scale code (R90). -/
def decBlockElem (f : Fmt) (scale code : Nat) : FV :=
  match e8m0 scale with
  | none => .nan
  | some x => (f.decode code).scale x

/-- Pack element codes of width w into a little-endian bit string (R89). -/
def packBits (w : Nat) : List Nat → Nat
  | [] => 0
  | c :: cs => c % 2 ^ w + 2 ^ w * packBits w cs

/-- Element i of a packed bit string. -/
def unpackBit (w i x : Nat) : Nat := (x / 2 ^ (w * i)) % 2 ^ w

/-! ### FP32 and BF16 element-wise arithmetic (R170) -/

/-- The exact sum, zero signs by R170. -/
def FV.add : FV → FV → FV
  | .nan, _ => .nan
  | _, .nan => .nan
  | .inf a, .inf b => if a = b then .inf a else .nan
  | .inf a, _ => .inf a
  | _, .inf b => .inf b
  | .fin a m e, .fin b n d =>
    FV.ofDy (a && b && m = 0 && n = 0) ((FV.fin a m e).dy.add (FV.fin b n d).dy)

def FV.sub (a b : FV) : FV := a.add b.neg

def FV.mul : FV → FV → FV
  | .nan, _ => .nan
  | _, .nan => .nan
  | .inf a, .inf b => .inf (a != b)
  | .inf a, .fin b m _ => if m = 0 then .nan else .inf (a != b)
  | .fin a m _, .inf b => if m = 0 then .nan else .inf (a != b)
  | .fin a m e, .fin b n d => .fin (a != b) (m * n) (e + d)

/-- The order of two numbers with −0 below +0 when asked (R170). -/
def FV.ltNum : FV → FV → Bool
  | .inf true, .inf true => false
  | .inf true, _ => true
  | _, .inf true => false
  | .inf false, _ => false
  | _, .inf false => true
  | .fin a m e, .fin b n d => (FV.fin a m e).dy.lt (FV.fin b n d).dy
  | _, _ => false

def FV.min (a b : FV) : FV :=
  if a.isNan || b.isNan then .nan
  else if a.ltNum b then a else if b.ltNum a then b else if a.isNeg then a else b

def FV.max (a b : FV) : FV :=
  if a.isNan || b.isNan then .nan
  else if a.ltNum b then b else if b.ltNum a then a else if a.isNeg then b else a

def FV.eqNum (a b : FV) : Bool := !a.isNan && !b.isNan && !a.ltNum b && !b.ltNum a

/-- CMP conditions 0 EQ … 6 UNORD (R169, R170). -/
def FV.cmp (cond : Nat) (a b : FV) : Bool :=
  let un := a.isNan || b.isNan
  match cond with
  | 0 => a.eqNum b
  | 1 => un || !a.eqNum b
  | 2 => !un && a.ltNum b
  | 3 => !un && !b.ltNum a
  | 4 => !un && b.ltNum a
  | 5 => !un && !a.ltNum b
  | 6 => un
  | _ => false

/-! ### Quotients, square roots and special functions, to the nearest FP32 value (R171) -/

/-- A quotient of positive dyadics with at least 300 significant bits, the last a sticky bit. -/
def Dy.div (a b : Dy) : Dy :=
  let k := 400 + nbits b.n.natAbs
  let q := a.n.natAbs * 2 ^ k / b.n.natAbs
  let r := a.n.natAbs * 2 ^ k % b.n.natAbs
  let m : Int := 2 * q + (if r = 0 then 0 else 1)
  ⟨if (a.n < 0) = (b.n < 0) then m else -m, a.e - b.e - k - 1⟩

/-- Integer square root by bits, from the top bit down. -/
def isqrtGo : Nat → Nat → Nat → Nat
  | 0, _, r => r
  | i + 1, x, r =>
    let c := r + 2 ^ i
    isqrtGo i x (if c * c ≤ x then c else r)

def isqrt (x : Nat) : Nat := isqrtGo (nbits x / 2 + 1) x 0

/-- A square root of a positive dyadic with at least 300 significant bits, the last a sticky bit. -/
def Dy.sqrt (a : Dy) : Dy :=
  let s : Int := if a.e % 2 = 0 then 600 else 601
  let x := a.n.natAbs * 2 ^ s.toNat
  let r := isqrt x
  ⟨2 * r + (if r * r = x then 0 else 1), (a.e - s) / 2 - 1⟩

/-- Fixed point with 512 fraction bits. -/
def fxOne : Nat := 2 ^ 512

/-- arctan(1/k) in fixed point: Σ (−1)^i / ((2i+1) k^(2i+1)). -/
def atanInv (k : Nat) : Nat → Nat → Nat → Int
  | 0, _, _ => 0
  | n + 1, i, p => (if i % 2 = 0 then ((p / (2 * i + 1) : Nat) : Int) else -((p / (2 * i + 1) : Nat) : Int)) +
      atanInv k n (i + 1) (p / (k * k))

/-- 2π in fixed point, by Machin's formula. -/
def fxTwoPi : Int :=
  8 * (4 * atanInv 5 120 0 (fxOne / 5) - atanInv 239 50 0 (fxOne / 239))

/-- Σ z^(2i+1)/(2i+1), the inverse hyperbolic tangent of z in fixed point. -/
def atanhGo (z2 : Nat) : Nat → Nat → Nat → Nat
  | 0, _, _ => 0
  | n + 1, i, p => p / (2 * i + 1) + atanhGo z2 n (i + 1) (p * z2 / fxOne)

def fxAtanh (z : Nat) : Nat := atanhGo (z * z / fxOne) 180 0 z

/-- ln 2 in fixed point: 2·artanh(1/3). -/
def fxLn2 : Nat := 2 * fxAtanh (fxOne / 3)

/-- Σ x^i/i! in fixed point. -/
def expGo (x : Int) : Nat → Nat → Int → Int
  | 0, _, _ => 0
  | n + 1, i, t => t + expGo x n (i + 1) (t * x / (fxOne : Int) / ((i : Int) + 1))

/-- 2^(i + f) as a dyadic, i the integer part of a fixed-point exponent. -/
def fxExp2 (x : Int) : Dy :=
  let i := x / (fxOne : Int)
  let f := x % (fxOne : Int)
  if f = 0 then ⟨1, i⟩ else ⟨expGo (f * fxLn2 / fxOne) 110 0 fxOne, i - 512⟩

/-- A dyadic in fixed point, rounded down. -/
def Dy.fx (d : Dy) : Int :=
  let s := d.e + 512
  if 0 ≤ s then shl d.n s else d.n / (2 ^ (-s).toNat : Nat)

/-- e^d as a dyadic for |d| below 2^12. -/
def dyExp (d : Dy) : Dy := if d.n = 0 then ⟨1, 0⟩ else fxExp2 (d.fx * fxOne / fxLn2)

/-- log2 of a positive dyadic, as a dyadic. -/
def dyLog2 (d : Dy) : Dy :=
  let k := Nat.log2 d.n.natAbs
  let one := (2 ^ k : Nat)
  let m := d.n.natAbs
  let z := (m - one) * fxOne / (m + one)
  ⟨((k : Int) + d.e) * fxOne + ((2 * fxAtanh z * fxOne / fxLn2 : Nat) : Int), -512⟩

/-- Σ (−1)^i x^(2i)/(2i)! and Σ (−1)^i x^(2i+1)/(2i+1)!, in fixed point. -/
def trigGo (x2 : Int) : Nat → Nat → Int → Int
  | 0, _, _ => 0
  | n + 1, i, t => t - trigGo x2 n (i + 2) (t * x2 / (fxOne : Int) / (((i : Int) + 1) * (i + 2)))

def fxCos (x : Int) : Int := trigGo (x * x / fxOne) 60 0 fxOne
def fxSin (x : Int) : Int := trigGo (x * x / fxOne) 60 1 x

/-- sin or cos of 2πx for x in turns: the exact quarter turns are exact (R171). -/
def dyTrig (cosine : Bool) (d : Dy) : Dy :=
  -- reduce to the fraction of a turn, exactly
  let f : Dy := if 0 ≤ d.e then ⟨0, 0⟩ else ⟨d.n % (2 ^ (-d.e).toNat : Nat), d.e⟩
  let q4 : Int := if 0 ≤ f.e + 2 then shl f.n (f.e + 2) else f.n / (2 ^ (-(f.e + 2)).toNat : Nat)
  let q := (q4 + (if cosine then 1 else 0)) % 4
  let r := f.sub ⟨q4, -2⟩
  let a := r.fx * fxTwoPi / (fxOne : Int)
  let s : Dy := if r.n = 0 then ⟨0, 0⟩ else ⟨fxSin a, -512⟩
  let c : Dy := if r.n = 0 then ⟨1, 0⟩ else ⟨fxCos a, -512⟩
  match q.toNat with
  | 0 => s
  | 1 => c
  | 2 => s.neg
  | _ => c.neg

/-- A positive value as the FP32 nearest to a dyadic that may be past the range. -/
def fvPos (d : Dy) : FV := FV.ofDy false d

/-- e^d for an exact dyadic d, as a value that rounds correctly to FP32. -/
def fvExp (d : Dy) : FV :=
  if (⟨2048, 0⟩ : Dy).lt d then .fin false 1 4096
  else if d.lt ⟨-2048, 0⟩ then .fin false 1 (-4096)
  else fvPos (dyExp d)

/-- 2^d for an exact dyadic d. -/
def fvExp2 (d : Dy) : FV :=
  if (⟨2048, 0⟩ : Dy).lt d then .fin false 1 4096
  else if d.lt ⟨-2048, 0⟩ then .fin false 1 (-4096)
  else fvPos (fxExp2 d.fx)

/-- Logistic sigmoid of a finite value. -/
def fvSigm (d : Dy) : FV :=
  if (⟨256, 0⟩ : Dy).lt d then .fin false 1 0
  else if d.lt ⟨-256, 0⟩ then .fin false 1 (-4096)
  else fvPos ((⟨1, 0⟩ : Dy).div ((⟨1, 0⟩ : Dy).add (dyExp d.neg)))

/-- Hyperbolic tangent of a finite value, its zero keeping the sign. -/
def fvTanh (neg : Bool) (d : Dy) : FV :=
  if d.n = 0 then .fin neg 0 0
  else if (⟨128, 0⟩ : Dy).lt d.abs then .fin neg 1 0
  else
    let t := dyExp ⟨2 * d.n.natAbs, d.e⟩
    let q := (t.sub ⟨1, 0⟩).div (t.add ⟨1, 0⟩)
    FV.ofDy neg (if neg then q.neg else q)

end Sys2Proof.Machine
end

