-- ==== Sys2Proof/Machine/State.lean ====
section
/-!
DEFINITION. The state of the A9-2400: every register, counter, queue, memory, key slot, record and pin the spec gives
the module, as plain data, and its value at power-on reset. A table over many indices is a `Sparse` list, whose
unlisted entries hold the default named beside it.
-/

namespace Sys2Proof.Machine

/-! ### Rings, packets and the command processor (spec/02) -/

/-- A counter operation issued and not yet applied at its counter (R62, R64, R65). `cmd` is the ring command that
completes when the operation has taken effect (R51). -/
structure SyncOp where
  ctr : Nat
  req : Nat
  set : Bool
  val : Nat
  cmd : Option Nat
deriving DecidableEq, Repr

/-- Where a command stands in the order of R333: waiting for its engine, its gate, COMBINED, its locks; then in step 8, or
in the block loop of MOMENT_FORMAT. -/
inductive UpdPhase where
  | queued | gate | combine | lock | pass
deriving DecidableEq, Repr

/-- A command of an update engine: its phase; the descriptors it has locked, by DA; LS_EXP and STEP as latched; COMBINED was
2; the test of step 8 is done; the descriptor position and the next block; whether that descriptor is taken; records
written, saturations and blocks left out, and whether a gradient was unreadable; the totals and entries so far. -/
structure UpdWork where
  phase : UpdPhase
  locks : List Nat
  lsExp : Int
  step : Nat
  gated : Bool
  begun : Bool
  pos : Nat
  next : Nat
  taken : Bool
  done : Nat
  sat : Nat
  nf : Nat
  memBad : Bool
  totDone : Nat
  totSat : Nat
  entries : List Nat
deriving DecidableEq, Repr

/-- The states of a tier command (R298); DONE is its completion. -/
inductive TierPhase where
  | queued | waiting | moving | commit
deriving DecidableEq, Repr

/-- A tier command's work (R294 to R309): its channel and state; the envelope counter it was given; bytes granted, bytes
written, and bytes of the whole transfer once known; late; the transfer identifier of Tally units; plaintext read so far
and the raw envelope or set received; reads and writes outstanding; the flushing read due, and done. -/
structure TierWork where
  channel : Nat
  phase : TierPhase
  ctr : Nat
  moved : Nat
  total : Option Nat
  late : Bool
  buf : List Byte
  waiting : Nat
  flushAsked : Bool
  flushed : Bool
deriving DecidableEq, Repr

/-- A RUN in progress or queued (R156 to R160). -/
structure RunWork where
  tiles : List Nat
  handle : Nat
  level : Nat
  resume : Bool
  ovfEn : Bool
  ovfCensus : Nat
  waitLimit : Nat
  saveDa : Nat
  args : List Nat
  started : Bool
  finished : List Nat
  maxCycles : Nat
  frozen : Nat
  /-- the PREEMPT commands that stop it, and the tiles whose save is written -/
  preempt : List Nat
  saved : List Nat
  /-- a regeneration run's attention command (R246) -/
  regen : Option Nat
deriving DecidableEq, Repr

/-- An attention command (R215 to R247): its tiles, whether they are its own; whether a paged one has passed admission, the
pages it pins, the old and the new tail page while the walker's copy is due, the dropped entries with their new pages
still to regenerate, the pages taken and not yet whole; LENGTH before and after its append; whether its tokens are
appended and pages were regenerated; the regeneration run in progress, and how a failed one ended. -/
structure AttnWork where
  tiles : List Nat
  started : Bool
  admitted : Bool
  pins : List Nat
  cow : Option (Nat × Nat)
  toRegen : List (Nat × Nat)
  fresh : List Nat
  lenBefore : Nat
  lenAfter : Nat
  appended : Bool
  regenerated : Bool
  regen : Option Nat
  failed : Option (Nat × Nat × Nat)
deriving DecidableEq, Repr

/-- A RESTORE (R395 to R397): bytes got and not yet consumed; the data key and preamble once
read; next FRAME, segments so far; corrections and the DETAIL of the first. -/
structure RestWork where
  buf : List Byte
  got : Nat
  key : Option Nat
  pre : List Byte
  frame : Nat
  segs : Nat
  fixes : Nat
  firstFix : Nat
deriving DecidableEq, Repr

/-- A REBUILD (R400): (region, y, chunk) still to fill, chunk 7 for the own unit; the XOR so
far; fetches unanswered (member, LEVEL, OFFSET) and since when. -/
structure RebWork where
  todo : List (Nat × Nat × Nat)
  acc : List Byte
  waits : List (Nat × Nat × Nat)
  since : Nat
deriving DecidableEq, Repr

/-- What an engine holds for a command it has taken. -/
inductive Work where
  /-- dispatched, with nothing further to hold -/
  | none
  /-- SYNC_SET or SYNC_ADD whose operation has not yet taken effect (R51) -/
  | syncOp
  /-- SYNC_WAIT: counter, condition, value (R51) -/
  | syncWait (ctr cond val : Nat)
  | run (w : RunWork)
  /-- PREEMPT: RUNs still to save, and how many it stops (R161) -/
  | preempt (left : List Nat) (count : Nat)
  /-- a CONV or ATTN command on its tiles (R188, R215); `started` once its tiles are its own -/
  | conv (tiles : List Nat) (started : Bool)
  | attn (w : AttnWork)
  | tier (w : TierWork)
  | upd (w : UpdWork)
  | restore (w : RestWork)
  | rebuild (w : RebWork)
  /-- a SCALE_SET that waits for a write-protected page of the scale table (R384) -/
  | scaleWait
  /-- a KV command that waits for BUSY of its sequence (R241) -/
  | kvWait
  /-- a command that ends with a named event of another engine, with small counters of its own -/
  | await (what : Nat) (a b c : Nat)
  | list (what : Nat) (l : List Nat)
deriving DecidableEq, Repr

/-- A packet Merlen has read: held, dispatched or running. `acq` are the statuses acquired (R505), first first. -/
structure Cmd where
  id : Nat
  pkt : Packet
  /-- the completion ring its record goes to (R61 for a tile-issued packet) -/
  ring : Nat
  /-- once its tag has verified, the key and salt that seal its completion (R59, R417) -/
  sealedOk : Option (Nat × Nat)
  acq : List Nat
  detail : Nat
  result : Nat
  /-- response data of the command (R59) -/
  rsp : List Byte
  /-- user Filter Wheel slots it was validated against, bit n for slot n (R105) -/
  fmts : Nat
  work : Work
deriving DecidableEq, Repr

/-- The configuration latched at the last enable (R42). -/
structure RingCfg where
  sbase : Nat
  cbase : Nat
  loc : Bool
  sealedOnly : Bool
  prio : Nat
  vector : Nat
  ssize : Nat
  csize : Nat
deriving DecidableEq, Repr

/-- One ring pair CQn: the registers of R41 and what Merlen keeps for it. -/
structure Ring where
  cfg : RingCfg
  enable : Bool
  latched : RingCfg
  errCode : Nat
  stopped : Bool
  err : Bool
  subTail : Nat
  subHead : Nat
  cplTail : Nat
  cplHead : Nat
  seqNext : Nat
  /-- PHASE of the next record (R45) -/
  phase : Bool
  /-- packets read and held before dispatch, oldest first (R56) -/
  held : List Cmd
  /-- slots of a host-memory ring fetched and not yet read: how many, and their bytes by 64·slot + i -/
  fetched : Nat
  asked : Nat
  buf : Sparse Byte
deriving DecidableEq, Repr

def RingCfg.zero : RingCfg :=
  { sbase := 0, cbase := 0, loc := false, sealedOnly := false, prio := 0, vector := 0, ssize := 0, csize := 0 }

/-- A ring pair after reset (R41). -/
def Ring.zero : Ring :=
  { cfg := RingCfg.zero, enable := false, latched := RingCfg.zero, errCode := 0, stopped := false, err := false,
    subTail := 0, subHead := 0, cplTail := 0, cplHead := 0, seqNext := 0, phase := true, held := [], fetched := 0,
    asked := 0, buf := [] }

/-- The command processor: rings, tile command queues, running commands, sync counters, serials. -/
structure Merlen where
  /-- 64 ring pairs (R37), default Ring.zero -/
  rings : Sparse Ring
  /-- tile command queues of Q0 to Q3, oldest first (R60): a packet, and the completion ring of the RUN that issued it (R61);
  default empty -/
  tileQ : Sparse (List (Packet × Nat))
  /-- packets read from a tile command queue and held before dispatch -/
  tileHeld : Sparse (List Cmd)
  /-- failed tile-issued packets waiting for a free completion entry (R61), with their final status -/
  tileFailed : List (Cmd × Nat)
  /-- dispatched and not yet completed commands, in dispatch order -/
  running : List Cmd
  nextId : Nat
  /-- the ring each control core served last (R55), default 63 -/
  lastServed : Sparse Nat
  /-- SYNC0 to SYNC8191 (R62) -/
  sync : Sparse Word
  /-- counter operations issued and not yet applied, in issue order (R64, R65) -/
  syncPending : List SyncOp
  /-- draws taken so far of Config.random and Config.freeValue (the model's own counters) -/
  draws : Nat
  frees : Nat
deriving DecidableEq, Repr

/-! ### Sidereal time and the Ephemeris (spec/03) -/

inductive SidState where
  | unset | acquire | locked | holdover | lost
deriving DecidableEq, Repr

/-- The code of SID_STATUS.STATE (R71). -/
def SidState.code : SidState → Nat
  | .unset => 0 | .acquire => 1 | .locked => 2 | .holdover => 3 | .lost => 4

/-- The last time code of a LOCKED sender on a port: its epoch and whether it agreed (R74). -/
structure TimeCode where
  epoch : Nat
  agree : Bool
deriving DecidableEq, Repr

structure Sid where
  sc : DWord
  state : SidState
  /-- ACQUIRE after the first mark (R73) -/
  checking : Bool
  clkValid : Bool
  /-- consecutive missing, and consecutive valid, ticks (R70) -/
  missing : Nat
  validRun : Nat
  slips : Nat
  spurious : Nat
  holdTicks : Nat
  loadEpoch : Nat
  /-- ticks since the last SID_MARK rising edge, saturating at 32 (R70) -/
  sinceMark : Nat
  /-- ticks for which SC still holds its value (R75, R506) -/
  holdFor : Nat
  /-- SC bits 63:32 latched by a 4-byte read of SC_NOW for the next read of +0x04 (R71) -/
  latchHi : Option Nat
  /-- time codes received, by port 0 to 7 (R74) -/
  codes : Sparse (Option TimeCode)
  /-- ports on which a TIME flit of this epoch is still due (R360) -/
  timeDue : List Nat
deriving DecidableEq, Repr

/-- An armed Ephemeris entry (R78). `due` once its tick has come and it still waits (R82). -/
structure EphEntry where
  serial : Nat
  fire : DWord
  arg0 : Nat
  arg1 : Nat
  guardEn : Bool
  guardCtr : Nat
  guardCond : Nat
  guardVal : Nat
  tag : Nat
  kind : Nat
  /-- the cause of its lateness, once late: 1 for a guard, 15 for an SC step, an engine or a limit (R82) -/
  lateBy : Nat
deriving DecidableEq, Repr

structure Eph where
  /-- armed entries in acceptance order (R81) -/
  entries : List EphEntry
  nextSerial : Nat
deriving DecidableEq, Repr

/-! ### Log, Shutter and pins (spec/01, spec/19) -/

/-- A log entry (R443 to R446), its body as a number of 256 bits. -/
structure LogEntry where
  sc : Nat
  seq : Nat
  status : Nat
  kind : Nat
  almanac : Bool
  unit : Nat
  index : Nat
  detail : Nat
  info : Nat
  body : Nat
deriving DecidableEq, Repr

structure Log where
  /-- entries held, newest first, at most 8,192 (R447) -/
  entries : List LogEntry
  newest : Nat
  lost : Nat
  ack : Nat
  vecFault : Nat
  vecWarn : Nat
  vecYield : Nat
  vecState : Nat
  firstFault : Option LogEntry
deriving DecidableEq, Repr

structure Shutter where
  shut : Bool
  /-- SHUTTER_CAUSE.ACTIVE and SHUTTER_SEEN.CAUSES, bits 5:0 (R448, R361) -/
  active : Nat
  seen : Nat
deriving DecidableEq, Repr

/-- The open-drain outputs (true: asserted, R453, R474). -/
structure Pins where
  fault : Bool
  alert : Bool
  wakeDriven : Bool
deriving DecidableEq, Repr

/-! ### PCIe (spec/18) -/

/-- An MSI-X vector: table entry, pending bit, spacing (R433, R44). -/
structure Vector128 where
  addr : Nat
  data : Nat
  masked : Bool
  pending : Bool
  spacing : Bool
  due : Bool
deriving DecidableEq, Repr

def Vector128.zero : Vector128 :=
  { addr := 0, data := 0, masked := true, pending := false, spacing := false, due := false }

inductive Tdisp where
  | unlocked | locked | run | error
deriving DecidableEq, Repr

def Tdisp.code : Tdisp → Nat
  | .unlocked => 0 | .locked => 1 | .run => 2 | .error => 3

/-- Who waits for a host read (R432). -/
inductive HostReq where
  /-- slots of ring n: first slot, how many (R38) -/
  | slots (ring first n : Nat)
  /-- a granule of a tile's move (R143): tile, transfer, granule -/
  | move (t xfer gran : Nat)
  /-- bytes of a tier command or of the snapshot engine: command, offset, length -/
  | tier (cmd off len : Nat)
  /-- a flushing read that ends a command or a stream (R299, R388) -/
  | flush (cmd : Nat)
  | stream (hosted : Nat)
  /-- bytes of a RESTORE's stream (R395) -/
  | restore (cmd off len : Nat)
  /-- bytes of the boot bundle (R482) -/
  | boot (off len : Nat)
deriving DecidableEq, Repr

structure HostIf where
  apertureBase : Nat
  /-- 128 MSI-X vectors (R433), default Vector128.zero -/
  msix : Sparse Vector128
  funcMask : Bool
  msixEnable : Bool
  tdisp : Tdisp
  ideLink : Bool
  ideSel : Bool
  /-- key sets programmed for the selective and the link stream by IDE_KM -/
  ideKeys : List (Nat × Nat)
  memEnable : Bool
  busMaster : Bool
  bar0 : Nat
  bar2 : Nat
  bar4 : Nat
  /-- other configuration-space writes, by offset, default 0 -/
  cfgRegs : Sparse Nat
  /-- requests outstanding at the host: tag and who waits (R432) -/
  reqs : List (Nat × HostReq)
  nextTag : Nat
  linkUp : Bool
  d3hot : Bool
  /-- MCTP endpoint IDs on PCIe VDM and on I3C, I3C dynamic address (R437) -/
  eidVdm : Nat
  eidI3c : Nat
  i3cAddr : Nat
deriving DecidableEq, Repr

/-! ### Tiles (spec/05, 06, 07) -/

inductive GroupState where
  | closed | accum | settle | ready | rerun
deriving DecidableEq, Repr

/-- A cell of an accumulation group: special state (0 finite, 1 NaN, 2 +Inf, 3 −Inf), accumulator n·2^e, and the
open block's partial in quanta with its own special state (R115 to R118). -/
structure Cell where
  sp : Nat
  n : Int
  e : Int
  part : Int
  bsp : Nat
deriving DecidableEq, Repr

/-- An accumulation group (R120). -/
structure Group where
  state : GroupState
  /-- OSR_A and OSR_B as latched when it opened (R112) -/
  osrA : Nat
  osrB : Nat
  /-- k-values stepped so far, and the tile cycle of the last step -/
  k : Nat
  last : Nat
  /-- 96 × 64 cells, row-major, empty while closed -/
  cells : List Cell
  /-- the state to return to, and the k-values to reach, while RERUN -/
  back : GroupState
  target : Nat
  /-- operand values raised past the 16-bit format's maxfinite (R111) -/
  sat : Nat
  /-- codes of the second half of an 8 × 8 block that a transposed stream's first step read (R138), by row -/
  keptA : List (List Nat)
  keptB : List (List Nat)
deriving DecidableEq, Repr

def Group.closedG : Group :=
  { state := .closed, osrA := 0, osrB := 0, k := 0, last := 0, cells := [], back := .closed, target := 0, sat := 0, keptA := [],
    keptB := [] }

/-- The drain unit while busy (R123, R124). -/
structure Drain where
  odr : Nat
  cells : List Cell
  issued : Nat
  sat : Nat
  /-- chunks written so far: one a busy cycle, of 8 rows in MODE 0, else of 2 (R124) -/
  chunk : Nat
deriving DecidableEq, Repr

/-- A census record (R178). -/
structure Census where
  updates : Nat
  elements : Nat
  zero : Nat
  sat : Nat
  nonfinite : Nat
  amax : Nat
  /-- a non-finite value was written (R97); no field of the record holds it -/
  wrote : Bool
deriving DecidableEq, Repr

def Census.empty : Census :=
  { updates := 0, elements := 0, zero := 0, sat := 0, nonfinite := 0, amax := 0, wrote := false }

/-- Where a result in flight lands (R166). -/
inductive Dest where
  /-- vector register, with the lane mask of the write -/
  | vreg (r : Nat) (mask : Nat)
  | mask (p : Nat)
  | sreg (core r : Nat)
  /-- tile-store bytes written at the ready cycle, visible 2 cycles later (R138) -/
  | store (addr : Nat) (port : Nat)
  /-- a descriptor register DR 0–27 (R181), latchable from the ready cycle (R149) -/
  | dreg (r : Nat)
  /-- a census record cleared (CCLR), or updated (STC) -/
  | cclr (cid : Nat)
  | census (cid : Nat) (c : Census)
deriving DecidableEq, Repr

/-- A result in flight: its ready cycle, its destination, its value (for a store, the bytes). -/
structure Pending where
  ready : Nat
  dest : Dest
  value : Nat
  bytes : List Byte
deriving DecidableEq, Repr

/-- Tile-store bytes written and not yet visible (R138). -/
structure InFlight where
  visible : Nat
  addr : Nat
  bytes : List Byte
deriving DecidableEq, Repr

/-- A transfer of the move engine (R143 to R146). -/
structure Move where
  id : Nat
  load : Bool
  da : Nat
  ts : Nat
  rowGran : Nat
  rows : Nat
  stride : Nat
  ac : Nat
  /-- granules counted, and granules asked of the host or a peer -/
  done : List Nat
  asked : List Nat
  failed : Bool
deriving DecidableEq, Repr

/-- A program image resident at a handle (R153, R154). -/
structure Image where
  handle : Nat
  header : Nat
  bundles : List Nat
  consts : List Byte
deriving DecidableEq, Repr

/-- A tile T0 to T143. -/
structure Tile where
  /-- Almanac state 0 active, 1 spare row in use, 2 retired, and the physical tile (R66) -/
  st : Nat
  phys : Nat
  /-- the failed physical cube row, 12 for none (R129) -/
  badRow : Nat
  images : List Image
  /-- the RUN it executes (command id), or the CONV or ATTN command that holds it (R188) -/
  run : Option Nat
  held : Option Nat
  halted : Bool
  /-- END has issued (R158) -/
  ended : Bool
  handle : Nat
  pc : Nat
  /-- instances of the bundle at pc still due, once its first has issued (R140) -/
  repLeft : Nat
  /-- the next instance of the bundle at pc is its first -/
  first : Bool
  /-- a taken branch: delay bundles left and target (R141) -/
  branch : Option (Nat × Nat)
  /-- issue cycles: cycles in which the tile is not frozen, since the RUN's start (R150, R158) -/
  cyc : Nat
  /-- the count of issue cycles of a tile that issues no more: at its END, or stopped at a boundary -/
  issueCyc : Option Nat
  /-- no issue cycle has begun since the RUN's start on this tile: its first bundle issues in cycle 0 -/
  fresh : Bool
  /-- freeze cycles still to pass, and passed in this RUN -/
  frozen : Nat
  frozenTotal : Nat
  /-- a replay or a spare-row switch is in progress (R131, R132, R134): groups still to rerun in order, the first at work; group,
  row and column of their faults -/
  rerun : List Nat
  switching : Bool
  faultAt : List (Nat × Nat × Nat)
  /-- SC at which the held sync-slot wait began (R152) -/
  waitSince : Option Nat
  /-- the bundle's WAIT was found true in this cycle (the clock's own mark) -/
  waitOk : Bool
  /-- a PREEMPT has stopped it at a boundary (R133), and cycles waited for it -/
  stopping : Bool
  stopped : Bool
  stopWait : Nat
  /-- S0–S31 of cores 0–3 at 32·core + r (R180) -/
  sregs : Sparse Word
  /-- V0–V63 (R165) and P1–P7 -/
  vregs : Sparse (BitVec 16384)
  masks : Sparse (BitVec 512)
  census : Sparse Census
  /-- census updates that no CSTORE can see yet (R179): the cycle of the write, the record, the update -/
  recent : List (Nat × Nat × Census)
  /-- descriptor registers by DR number: MDR0–15, OSR_A0–3, OSR_B0–3, ODR0–3 (R181), and the cycle from which each
  may be latched -/
  dregs : Sparse (BitVec 128)
  dregAt : Sparse Nat
  ac : Sparse Word
  /-- cycle until which each core is busy (R180) -/
  busy : Sparse Nat
  groups : Sparse Group
  drain : Option Drain
  pend : List Pending
  flight : List InFlight
  moves : List Move
  nextMove : Nat
  /-- the bundle at pc has issued in this cycle; row accesses of ports 0 to 8 in this cycle: port, bank, row, write -/
  issued : Bool
  acc : List (Nat × Nat × Nat × Bool)
deriving DecidableEq, Repr

def Tile.zero : Tile :=
  { st := 0, phys := 0, badRow := 12, images := [], run := none, held := none, halted := false, ended := false,
    handle := 0, pc := 0, repLeft := 0, first := true, branch := none, cyc := 0, issueCyc := none, fresh := false,
    frozen := 0, frozenTotal := 0,
    rerun := [], switching := false, faultAt := [], waitSince := none, waitOk := false, stopping := false,
    stopped := false, stopWait := 0, sregs := [], vregs := [], masks := [], census := [], recent := [], dregs := [], dregAt := [],
    ac := [], busy := [], groups := [], drain := none, pend := [], flight := [], moves := [], nextMove := 0,
    issued := false, acc := [] }


/-! ### HBM, codec (spec/10, spec/11) -/

inductive PcState where
  | active | degraded | queued | migrating | retired | fenced
deriving DecidableEq, Repr

/-- A pseudo-channel: its state, correction counts per pin in this epoch, erasure pins (R260, R262). -/
structure Pc where
  st : PcState
  counts : Sparse Nat
  erasures : List Nat
deriving DecidableEq, Repr

def Pc.zero : Pc := { st := .active, counts := [], erasures := [] }

/-- A re-encryption walk (R258): the domain whose walker runs it, the command, the domains it counts as a walk on, the next
page it may take and the one it ends before, the granule reached in that page, for a MOVE the new domain and class (R255),
and the OLD key of a rotation. -/
structure Walk where
  domain : Nat
  cmd : Nat
  touches : List Nat
  pos : Nat
  last : Nat
  gran : Nat
  move : Option (Nat × Nat)
  old : Option Nat
deriving DecidableEq, Repr

structure MemSys where
  /-- plaintext bytes by storage DA: HBM and tile stores; default 0 -/
  bytes : Sparse Byte
  /-- stored-error patterns of code words by DA / 16: symbol at position i in bits 8i + 7 : 8i; default 0 -/
  errs : Sparse Nat
  /-- page attribute entries (R254) by page number, default 0x0100 -/
  attrs : Sparse Nat
  /-- 768 pseudo-channels (R262), default Pc.zero -/
  pcs : Sparse Pc
  /-- X[1] to X[k], retired or migrating, in retirement order (R263), and the queue -/
  retired : List Nat
  migQueue : List Nat
  /-- the next location the migration copies, the later locations of the migrating pseudo-channel already marked migrated
  (R264), and blocks poisoned by the migration -/
  migNext : Nat
  migrated : List Nat
  migPoison : List Nat
  walks : List Walk
  /-- pages written since the last cut opened (R392), default false -/
  touched : Sparse Bool
  passEpochs : Nat
  patrolEn : Bool
  /-- locations read in this patrol pass: how many -/
  patrolled : Nat
  ceCount : Nat
  ueCount : Nat
  scrubPasses : Nat
  /-- MEM_TEMP by stack: temp, valid, zone (R268) -/
  temps : Sparse (Nat × Nat × Nat)
deriving DecidableEq, Repr

/-- A Coelostat map (R275): its parameters and the tables it latched. -/
structure CMap where
  num : Nat
  da : Nat
  count : Nat
  entryDa : Nat
  mode : Nat
  elem : Nat
  fs : Nat
  key : Nat
  m : Nat
  floor : Int
  tableMask : Nat
  /-- latched tables: slot and 272 code lengths -/
  tables : List (Nat × List Nat)
deriving DecidableEq, Repr

/-- An open codec page (R278): the granules written since it opened, their bytes, when it was last written. -/
structure Slot where
  map : Nat
  page : Nat
  grans : Nat
  ovr : Sparse (Option Byte)
  age : Nat
deriving DecidableEq, Repr

structure Codec where
  /-- view pages changed since the last cut opened (R392), default false -/
  touched : Sparse Bool
  tables : Sparse (List Nat)
  maps : List CMap
  slots : List Slot
  clock : Nat
deriving DecidableEq, Repr


/-! ### Trust (spec/17) -/

/-- An open sealed session (R416, R57): key, salt, last accepted NONCE_CTR, consecutive AUTH_FAILs. A packet validated
before a close keeps the key for its own completion (R417). -/
structure Session where
  num : Nat
  key : Nat
  salt : Nat
  last : Nat
  fails : Nat
deriving DecidableEq, Repr

structure Trust where
  /-- TRUST_STAT (R410): 0 WAIT_IMAGE, 1 VERIFY, 2 RUNNING, 3 LOCKED, 4 TRUST_FAILED -/
  bootState : Nat
  bootErr : Nat
  bootTries : Nat
  debugLevel : Nat
  debugNonce : Nat
  /-- the job of JOB_BIND: identifier, 0 for none; SEALED_REQ; OWNER_DIGEST (R414) -/
  job : Nat
  sealedReq : Bool
  ownerDigest : Nat
  /-- job secret: PRK of the current and the previous generation (R415) -/
  secretSet : Bool
  generation : Nat
  prk : Option Nat
  prkPrev : Option Nat
  /-- domain keys 0–15 (R415), none where destroyed; tier key and salt; system-area key -/
  domainKeys : Sparse (Option Nat)
  tierKey : Option Nat
  tierSalt : Nat
  sysKey : Nat
  sessions : List Session
  /-- fuses: LMS leaves used, SVN counter, ROOT_REVOKE (R405) -/
  lmsUsed : Nat
  svnFused : Nat
  rootRevoke : Nat
  svnImage : Nat
  /-- per-boot tree (R409): its seed, leaves used, certificate bytes (message and signature), q -/
  bootSeed : Option Nat
  bootUsed : Nat
  bootQ : Nat
  pbCert : List Byte
  /-- the verified signing certificate: whole object and its digest; image digest (R411) -/
  certBody : List Byte
  certDigest : Nat
  imageDigest : Nat
  /-- SPDM: secure sessions open, the transcript of the last signed MEASUREMENTS by transport (R412) -/
  spdmSessions : Nat
  spdmTranscript : Sparse (List Byte)
deriving DecidableEq, Repr


/-! ### Meridian (spec/15) -/

/-- A whole message: its head (R353), its message number, source, destination and virtual lane. -/
structure Msg where
  kind : Nat
  src : Nat
  dest : Nat
  no : Nat
  vl : Nat
  length : Nat
  offset : Nat
  exp : Nat
  rctr : Nat
  rop : Nat
  rval : Nat
  tree : Nat
  seq : Nat
  shard : Nat
  level : Nat
  node : Nat
  data : List Byte
deriving DecidableEq, Repr

/-- A flit waiting at a port: the header fields of R351 that its message fixes, its payload, the command behind it. -/
structure QFlit where
  typ : Nat
  vl : Nat
  dest : Nat
  src : Nat
  msg : Nat
  first : Bool
  last : Bool
  no : Nat
  pwords : Nat
  payload : Nat
  cmd : Option Nat
deriving DecidableEq, Repr

/-- A sequenced flit in the replay buffer (R355): its SEQ, its bytes as first sent, its transmissions so far. -/
structure TxFlit where
  seq : Nat
  q : QFlit
  cipher : Nat
  tag : Nat
  sent : Nat
deriving DecidableEq, Repr

inductive PortState where
  | down | train | up8 | up4 | asleep | retired | nc
deriving DecidableEq, Repr

/-- The code of PORT_STAT.STATE (R363). -/
def PortState.code : PortState → Nat
  | .down => 0 | .train => 1 | .up8 => 2 | .up4 => 3 | .asleep => 4 | .retired => 5 | .nc => 6

/-- A port M0 to M7 (R347 to R363). -/
structure Port where
  st : PortState
  /-- active and retired lanes, bit l for lane l -/
  lanes : Nat
  retiredLanes : Nat
  peerRank : Nat
  /-- ranks the neighbour hosts, from its last SHUTTER flit -/
  peerHosted : List Nat
  peerShutter : Bool
  failed : Bool
  replays : Nat
  corr : Nat
  unc : Nat
  /-- port keys, salts and counters of each direction (R354); the next key of a KEY_ROTATE -/
  txKey : Option Nat
  txSalt : Nat
  txCtr : Nat
  rxKey : Option Nat
  rxSalt : Nat
  rxCtr : Nat
  /-- key and salt to change to after KEYCHG, and the command that waits -/
  txNext : Option (Nat × Nat)
  keyCmd : Option Nat
  /-- the neighbour's DEVICE_ID, as its training announced it (R415) -/
  peerId : Nat
  /-- next SEQ to send and to accept, last ACK seen, replay buffer oldest first, next entry to resend -/
  txSeq : Nat
  rxSeq : Nat
  replay : List TxFlit
  resend : Option Nat
  nakSent : Bool
  nakDue : Bool
  /-- consecutive failed receptions of the expected flit, and whether the last had an uncorrectable word -/
  fails : Nat
  /-- slots sent and slots freed by the peer on each VL (credits), slots freed here, next VL to report -/
  sentOn : Sparse Nat
  peerFreed : Sparse Nat
  freed : Sparse Nat
  report : Nat
  /-- flits waiting, by 2·VL + 0 forwarded, + 1 of this module; the deficit of each VL (R356) -/
  queues : Sparse (List QFlit)
  deficit : Sparse Nat
  turn : Nat
  /-- uncorrectable and corrected words of each lane in this epoch (R355) -/
  laneUnc : Sparse Nat
  laneCorr : Sparse Nat
  /-- wake pattern being sent -/
  waking : Bool
deriving DecidableEq, Repr

def Port.zero : Port :=
  { st := .down, lanes := 0, retiredLanes := 0, peerRank := 0, peerHosted := [], peerShutter := false, failed := false, replays := 0,
    corr := 0, unc := 0, txKey := none, txSalt := 0, txCtr := 1, rxKey := none, rxSalt := 0, rxCtr := 1,
    txNext := none, keyCmd := none, peerId := 0, txSeq := 0, rxSeq := 0, replay := [], resend := none,
    nakSent := false, nakDue := false, fails := 0, sentOn := [], peerFreed := [], freed := [], report := 1,
    queues := [], deficit := [], turn := 1, laneUnc := [], laneCorr := [], waking := false }

/-- Who waits for the answer to a message of this module. -/
inductive PeerReq where
  | move (t xfer gran : Nat)
  /-- bytes of a command at an offset of its transfer -/
  | cmd (id off len : Nat)
  /-- COLL_DATA of a collective -/
  | coll (id dest : Nat)
  /-- bytes of a hosted index's checkpoint stream; its trailer -/
  | stream (k off len : Nat)
  | parity (k : Nat)
  | fetch (id : Nat)
deriving DecidableEq, Repr

/-- A message being received: its flits so far. -/
structure Partial where
  msg : Msg
  head : Bool
  got : List Nat
  total : Option Nat
  parts : List (Nat × List Byte)
deriving DecidableEq, Repr

structure TreeDef where
  num : Nat
  members : List Nat
  seq : Nat
deriving DecidableEq, Repr

structure ExportW where
  rank : Nat
  win : Nat
  rd : Bool
  wr : Bool
  base : Nat
  pages : Nat
deriving DecidableEq, Repr

/-- Data of a collective node or output: where it belongs (R353). -/
structure CKey where
  vl : Nat
  shard : Nat
  level : Nat
  node : Nat
  off : Nat
deriving DecidableEq, Repr

/-- A collective or FLAG_COMBINE admitted (R367 to R375): its command and operation, tree, members and COLL_SEQ; its
descriptor digest; what holds it; whether it may start, has started and when; LOCAL of a FLAG_COMBINE; members whose
COLL_START has come; data received, data sent by member, members of messages still unacknowledged, outputs written. -/
structure Coll where
  cmd : Nat
  op : Nat
  tree : Nat
  members : List Nat
  seq : Nat
  digest : Nat
  hold : Nat
  tag : Nat
  timeout : Nat
  startable : Bool
  started : Bool
  startSc : Nat
  /-- order in which it became startable -/
  order : Nat
  flag : Bool
  starts : List Nat
  parts : List (CKey × List Byte)
  sent : List (Nat × CKey)
  out : List Nat
  written : List (Nat × CKey)
  census : Census
deriving DecidableEq, Repr

/-- A release recorded ahead of its command (R369): event kind, ARG0, its tick, and its entry's TAG. -/
structure Release where
  kind : Nat
  arg : Nat
  due : Nat
  tag : Nat
deriving DecidableEq, Repr

structure Fabric where
  primary : Option Nat
  emul : List Nat
  /-- route entries (R357), default 0xFF -/
  routes : Sparse Nat
  trees : List TreeDef
  exports : List ExportW
  ports : Sparse Port
  /-- next message number (R351) -/
  nextMsg : Nat
  inbox : List Msg
  partials : List Partial
  /-- numbers of completed messages, newest first: source rank and number -/
  doneMsgs : List (Nat × Nat)
  /-- messages of this module not yet answered: number, destination, who waits -/
  reqs : List (Nat × Nat × PeerReq)
  colls : List Coll
  nextOrder : Nat
  releases : List Release
deriving DecidableEq, Repr


/-! ### The KV page store (spec/09) -/

/-- The job's page pool (R234): its geometry, and the free list, head first. Page entries, sequence entries and page tables
stand in HBM. -/
structure Pool where
  pageDa : Nat
  entryDa : Nat
  seqDa : Nat
  pages : Nat
  maxSeqs : Nat
  kSlot : Nat
  vSlot : Nat
  kvHeads : Nat
  headDim : Nat
  free : List Nat
deriving DecidableEq, Repr



/-! ### Power levels and sleep (spec/20) -/

/-- Sleep states (R468, R471, R472): a target 1 Idle-gate, 2 Stow, 3 Dark. -/
inductive Sleeping where
  | awake
  /-- entry into a target runs -/
  | entering (target : Nat)
  | asleep (target : Nat)
  /-- a wake from Idle-gate or Stow by a source runs -/
  | waking (target source : Nat)
deriving DecidableEq, Repr

/-- Performance levels, limiters and clocks (R458 to R467), and the sleep registers (R465). `lim` is the level each limiter
of R462 imposes, by its code, and `on` the codes whose trigger has not been released; `eff` is the level the clock runs at,
`target` the one decided; `bounding` are the codes already reported (R464). -/
structure PowerS where
  requested : Nat
  ceiling : Nat
  lim : Sparse Nat
  on : List Nat
  throttle : Bool
  /-- milliseconds that THROTTLE# has been held, and THROTTLE_TIME -/
  held : Nat
  throttleTime : Nat
  eff : Nat
  target : Nat
  switching : Bool
  limiter : Nat
  bounding : List Nat
  cap : Nat
  watts : Nat
  /-- °C of the die sensors: 0 hub, 1 to 4 the quadrants -/
  dieTemps : Sparse Nat
  /-- CLK_STATUS.SOURCE: SID_CLK -/
  sidClk : Bool
  sleep : Sleeping
  /-- the SLEEP command that waits; SC at entry -/
  sleepCmd : Option Nat
  sleptAt : Nat
  /-- a wake source came while Dark was being entered; WAKE# is ignored until it has been high for 1 ms -/
  darkWake : Bool
  wakeIgnored : Bool
  refused : Nat
  aborted : Nat
  refuser : Nat
  aborter : Nat
  wakeReg : Nat
  sleepTime : Nat
deriving DecidableEq, Repr

/-- Power and clocks after a reset of the hub domain (R460, R465). -/
def PowerS.zero : PowerS :=
  { requested := 0, ceiling := 0, lim := [], on := [], throttle := false, held := 0, throttleTime := 0, eff := 0,
    target := 0, switching := false, limiter := 0, bounding := [], cap := 4200, watts := 0, dieTemps := [],
    sidClk := false, sleep := .awake, sleepCmd := none, sleptAt := 0, darkWake := false, wakeIgnored := false,
    refused := 0, aborted := 0, refuser := 0, aborter := 0, wakeReg := 0, sleepTime := 0 }

/-! ### Start-up (spec/21) -/

/-- BOOT_PHASE.PHASE (R480). -/
inductive Phase where
  | romInit | waitImage | fetch | verify | commit | merlenInit | selfTest | ready | failed | locked | trustFailed
deriving DecidableEq, Repr

def Phase.code : Phase → Nat
  | .romInit => 0 | .waitImage => 1 | .fetch => 2 | .verify => 3 | .commit => 4 | .merlenInit => 5 | .selfTest => 6
  | .ready => 7 | .failed => 8 | .locked => 9 | .trustFailed => 10

/-- The boot registers and the boot memory (R480, R482). `ready` is DEV_STATUS.READY; PERST# or a brownout holds the module
in reset; `dark` tells of Dark; `due` is a module reset that waits for the end of a COMMIT step (R479): bit 0 where PERST#, bit 1
where a brownout then holds the module. -/
structure Boot where
  phase : Phase
  ready : Bool
  step : Nat
  fetchErr : Nat
  addr : Nat
  len : Nat
  timeUs : Nat
  bundle : List Byte
  perst : Bool
  brown : Bool
  dark : Bool
  due : Option Nat
  deadTiles : List Nat
  badRows : Sparse Nat
deriving DecidableEq, Repr

/-- The boot state after power-on: PERST# is still asserted (R477, R480). -/
def Boot.zero : Boot :=
  { phase := .romInit, ready := false, step := 0, fetchErr := 0, addr := 0, len := 0, timeUs := 0, bundle := [],
    perst := true, brown := false, dark := false, due := none, deadTiles := [], badRows := [] }

/-! ### JTAG (R440, R441) -/

/-- The TAP: its current instruction code (0xFF for bypass), the preloaded boundary cells, and the count of refused loads. -/
structure Jtag where
  ir : Nat
  cells : Nat
  refused : Nat
deriving DecidableEq, Repr



/-! ### Snapshots, recovery and failed modules (spec/16) -/

/-- A region descriptor (R377), and what the engine measures of it (R392): cuts observed, pages written between the last two,
DCUT and DSTEP, and STEP_NEXT at the last cut. -/
structure SnapRegion where
  da : Nat
  pages : Nat
  region : Nat
  method : Nat
  hidx : Nat
  records : Nat
  cuts : Nat
  dcut : Nat
  dstep : Nat
  stepAt : Nat
deriving DecidableEq, Repr

/-- SNAP_STAT.STATE (R382, R394). -/
inductive SnapState where
  | unconfigured | idle | opened | stalled | done
deriving DecidableEq, Repr

def SnapState.code : SnapState → Nat
  | .unconfigured => 0 | .idle => 1 | .opened => 2 | .stalled => 3 | .done => 4

/-- What CONFIG latched (R376, R378). -/
structure SnapCfg where
  resDa : Nat
  resPages : Nat
  destDa : Nat
  destBytes : Nat
  destSlots : Nat
  fullEvery : Nat
  mask : Nat
  tables : List (Nat × List Nat)
deriving DecidableEq, Repr

/-- A base of a PARITY page for a cut (R384, R391): the reserve page that holds it, none for the all-zero base. -/
structure ParBase where
  page : Nat
  cut : Nat
  res : Option Nat
deriving DecidableEq, Repr

/-- A parity area (R390, R391). `halves` names the half of each position that is committed (default 0); `touched` are the
positions whose other half holds the unit of `cut`. -/
structure ParArea where
  hidx : Nat
  da : Nat
  pages : Nat
  tree : Nat
  halves : Sparse Nat
  touched : List Nat
  cut : Nat
deriving DecidableEq, Repr

/-- Images a cut captured of a hosted index: ledger bytes and step record (R383). -/
structure SnapImage where
  hidx : Nat
  cut : Nat
  led : List Byte
  stepImg : Nat
deriving DecidableEq, Repr

/-- A segment still to write: its kind (R387), the region's place in CONFIG order, and INDEX. -/
structure SegTodo where
  kind : Nat
  pos : Nat
  index : Nat
deriving DecidableEq, Repr

/-- A checkpoint stream (R385 to R388): hosted index, destination and capacity, data key and preamble; segments to write, next
FRAME, segments written; bytes written, formed and not yet written; peer writes unacknowledged; the trailer is formed; the
stream is complete. -/
structure SnapStream where
  hidx : Nat
  base : Nat
  cap : Nat
  key : Nat
  pre : List Byte
  todo : List SegTodo
  frame : Nat
  segs : Nat
  off : Nat
  buf : List Byte
  acks : Nat
  trailer : Bool
  complete : Bool
deriving DecidableEq, Repr

/-- The snapshot engine: its state and configuration; the open cut, whether it is full, the images it captured and those of
LAST_COMPLETE; reserve copies (page, reserve page) and packed records of view pages (page, offset, length) in the reserve
pages `packPages`; parity bases; the last cut opened and not abandoned and the one before it; parity areas; own deltas to send
(hosted index, page), unacknowledged, and hosted indices whose PARITY_DONE has gone; PARITY_DONE held (cut, tree, member); the
streams; pages on which a write waits for reserve space; the cut and STEP_NEXT of the last ROLLBACK; SNAP_WAITS, SNAP_BYTES. -/
structure SnapS where
  st : SnapState
  cfg : Option SnapCfg
  regions : List SnapRegion
  cut : Nat
  full : Bool
  images : List SnapImage
  kept : List SnapImage
  copies : List (Nat × Nat)
  packs : List (Nat × Nat × Nat)
  packPages : List Nat
  packBytes : Nat
  bases : List ParBase
  last : Nat
  before : Nat
  areas : List ParArea
  deltas : List (Nat × Nat)
  deltaOut : Nat
  doneSent : Bool
  dones : List (Nat × Nat × Nat)
  streams : List SnapStream
  starved : List Nat
  rolled : Option (Nat × Nat)
  waits : Nat
  bytes : Nat
deriving DecidableEq, Repr



/-! ### Tally units (R454 to R457) -/

/-- A transfer of a snooped stream: the stream and who it is, its pieces by DA, and how it ended (true: it commits). -/
structure TPend where
  kind : Nat
  index : Nat
  xid : Nat
  pieces : List (Nat × List Byte)
  ended : Option Bool
deriving DecidableEq, Repr

/-- A Tally unit (R456): its configuration, running state and pending transfers, oldest first. -/
structure Csu where
  enable : Bool
  kind : Nat
  index : Nat
  poly : Nat
  lo : Nat
  hi : Nat
  limit : Nat
  expect : Nat
  matchCtr : Nat
  missCtr : Nat
  sigEn : Bool
  state : Nat
  bytes : Nat
  done : Bool
  latched : Nat
  discarded : Nat
  pend : List TPend
deriving DecidableEq, Repr

/-- A disabled unit in its initial state for POLY 0 (R455). -/
def Csu.zero : Csu :=
  { enable := false, kind := 0, index := 0, poly := 0, lo := 0, hi := 0, limit := 0, expect := 0, matchCtr := 0,
    missCtr := 0, sigEn := false, state := 0xFFFFFFFF, bytes := 0, done := false, latched := 0, discarded := 0,
    pend := [] }


/-! ### Tier mover (spec/12) -/

/-- The tier ledger (R303) by SET_ID, the next envelope counter (R302), the registers of R307, and for each path the last 16
grants, newest first, true for the snapshot drain (R306). -/
structure TierS where
  ledger : Sparse Nat
  ctr : Nat
  share : Nat
  late : Nat
  outBytes : Nat
  inBytes : Nat
  grants : Sparse (List Bool)
deriving DecidableEq, Repr



/-! ### Training numerics and the step ledger (spec/13, spec/16) -/

/-- A data cursor of a ledger (R379). -/
structure Cursor where
  pos : Nat
  base : Nat
  stride : Nat
deriving DecidableEq, Repr

/-- A random stream of a ledger (R379). -/
structure Stream where
  ctr : Nat
  base : Nat
  draws : Nat
  seed : Nat
deriving DecidableEq, Repr

/-- The step ledger of a hosted index (R379); 16 cursors and 16 streams. -/
structure Ledger where
  rank : Nat
  stepNext : Nat
  openStep : Nat
  stepBase : Nat
  roundSeed : Nat
  lastCut : Nat
  lastComplete : Nat
  cutSc : Nat
  ncur : Nat
  nstr : Nat
  gated : Bool
  cursors : List Cursor
  streams : List Stream
deriving DecidableEq, Repr

/-- The scale table and the open step: what is not in the records of HBM (R310 to R320). -/
structure Train where
  /-- base DA and COUNT of the scale table -/
  table : Option (Nat × Nat)
  /-- scale record that a census record number is bound to (R315) -/
  binds : Sparse (Option Nat)
  /-- FLAG_COMBINE of the open step admitted; a clear has come after it; an update engine has reached its test (R320) -/
  flagged : Bool
  late : Bool
  tested : Bool
  /-- the step record before the last STEP_OPEN (R383) -/
  before : Nat
  /-- the ledgers by hosted index, none where there is none -/
  ledgers : Sparse (Option Ledger)
  /-- the update section (R379): step, descriptor takes, final entries, FINAL bits -/
  updStep : Nat
  updStarted : Nat
  updFinal : Nat
  finals : Sparse Bool
  /-- hosted indices that are INVALID (R396), each with the RESTORE that ends it: 0 any, 1 one of SNAP parts (R399), 2 one of
  PARITY parts (R400) -/
  invalid : List (Nat × Nat)
deriving DecidableEq, Repr



/-! ### The block -/

/-- The Almanac's own state: what is not computed from other components (R66). -/
structure Almanac where
  published : Bool
  generation : Nat
  ringAreaDa : Nat
deriving DecidableEq, Repr

/-- The Filter Wheel: user slots 10–31 (default 0) and CHANGES (R101, R106). -/
structure Wheel where
  slots : Sparse Nat
  changes : Nat
deriving DecidableEq, Repr

/-- What the block drives outward, newest first (the model's own record of its outputs). -/
inductive Output where
  | hostWrite (addr : Nat) (bs : List Byte)
  | hostRead (tag addr n : Nat)
  | msix (vec addr data : Nat)
  /-- data answered to a host read of a BAR, or Completer Abort, or Unsupported Request -/
  | readData (bs : List Byte)
  | completerAbort
  | unsupportedRequest
  /-- an MCTP message answered on a transport: 0 PCIe VDM, 1 I3C (R437) -/
  | mctp (transport : Nat) (bs : List Byte)
  /-- bits shifted out of the TAP, the first as bit 0 (R440) -/
  | tdo (n v : Nat)
  /-- a flit sent on a port -/
  | flit (port : Nat) (f : Flit)
deriving DecidableEq, Repr

/-- Everything but the queue of waiting commands. -/
structure Block where
  mer : Merlen
  sid : Sid
  eph : Eph
  log : Log
  shut : Shutter
  pins : Pins
  host : HostIf
  alm : Almanac
  fw : Wheel
  /-- T0 to T143, default Tile.zero -/
  tiles : Sparse Tile
  mem : MemSys
  codec : Codec
  trust : Trust
  fab : Fabric
  /-- CSU0 to CSU31, default Csu.zero -/
  csu : Sparse Csu
  train : Train
  pool : Option Pool
  tier : TierS
  snap : SnapS
  pow : PowerS
  boot : Boot
  jtag : Jtag
  out : List Output
deriving DecidableEq, Repr

/-- The state: the block, and the commands that wait, first in, first out. -/
structure State where
  pending : List Instr
  blk : Block
deriving DecidableEq, Repr

/-! ### The values at reset -/

def Merlen.zero : Merlen :=
  { rings := [], tileQ := [], tileHeld := [], tileFailed := [], running := [], nextId := 0, lastServed := [], sync := [],
    syncPending := [], draws := 0, frees := 0 }

/-- The time base after a reset (R68, R71). -/
def Sid.zero : Sid :=
  { sc := 0, state := .unset, checking := false, clkValid := false, missing := 0, validRun := 0, slips := 0, spurious := 0,
    holdTicks := 0, loadEpoch := 0, sinceMark := 32, holdFor := 0, latchHi := none, codes := [], timeDue := [] }

/-- The log registers after a reset (R448). -/
def Log.zero : Log :=
  { entries := [], newest := 0, lost := 0, ack := 0, vecFault := 127, vecWarn := 126, vecYield := 125, vecState := 124,
    firstFault := none }

/-- The function after a reset (R429, R433, R436, R437). -/
def HostIf.zero : HostIf :=
  { apertureBase := 0, msix := [], funcMask := false, msixEnable := false, tdisp := .unlocked, ideLink := false,
    ideSel := false, ideKeys := [], memEnable := false, busMaster := false, bar0 := 0, bar2 := 0, bar4 := 0, cfgRegs := [],
    reqs := [], nextTag := 0, linkUp := false, d3hot := false, eidVdm := 0, eidI3c := 0, i3cAddr := 0x3A }

def MemSys.zero : MemSys :=
  { bytes := [], errs := [], attrs := [], pcs := [], retired := [], migQueue := [], migNext := 0, migrated := [],
    migPoison := [], walks := [], touched := [], passEpochs := 4096, patrolEn := true, patrolled := 0, ceCount := 0,
    ueCount := 0, scrubPasses := 0, temps := [] }

/-- The trust engine after a power-on reset: no job, no key, no image; the fused counters at 0 (log entry 2). -/
def Trust.zero : Trust :=
  { bootState := 0, bootErr := 0, bootTries := 0, debugLevel := 0, debugNonce := 0, job := 0, sealedReq := false,
    ownerDigest := 0, secretSet := false, generation := 0, prk := none, prkPrev := none, domainKeys := [], tierKey := none,
    tierSalt := 0, sysKey := 0, sessions := [], lmsUsed := 0, svnFused := 0, rootRevoke := 0, svnImage := 0,
    bootSeed := none, bootUsed := 0, bootQ := 0, pbCert := [], certBody := [], certDigest := 0, imageDigest := 0,
    spdmSessions := 0, spdmTranscript := [] }

def Fabric.zero : Fabric :=
  { primary := none, emul := [], routes := [], trees := [], exports := [], ports := [], nextMsg := 0, inbox := [],
    partials := [], doneMsgs := [], reqs := [], colls := [], nextOrder := 0, releases := [] }

def Train.zero : Train :=
  { table := none, binds := [], flagged := false, late := false, tested := false, before := 0, ledgers := [], updStep := 0,
    updStarted := 0, updFinal := 0, finals := [], invalid := [] }

/-- The tier mover after a reset (R307). -/
def TierS.zero : TierS :=
  { ledger := [], ctr := 1, share := 4, late := 0, outBytes := 0, inBytes := 0, grants := [] }

/-- The snapshot engine, unconfigured (R382, R394). -/
def SnapS.zero : SnapS :=
  { st := .unconfigured, cfg := none, regions := [], cut := 0, full := false, images := [], kept := [], copies := [],
    packs := [], packPages := [], packBytes := 0, bases := [], last := 0, before := 0, areas := [], deltas := [],
    deltaOut := 0, doneSent := false, dones := [], streams := [], starved := [], rolled := none, waits := 0, bytes := 0 }

def Codec.zero : Codec := { touched := [], tables := [], maps := [], slots := [], clock := 0 }

/-- The block after a power-on reset: the boot ROM waits in ROM_INIT (R478, R480). -/
def Block.powerOn : Block :=
  { mer := Merlen.zero, sid := Sid.zero, eph := { entries := [], nextSerial := 0 }, log := Log.zero,
    shut := { shut := false, active := 0, seen := 0 }, pins := { fault := false, alert := false, wakeDriven := false },
    host := HostIf.zero, alm := { published := false, generation := 0, ringAreaDa := 0 },
    fw := { slots := [], changes := 0 }, tiles := [], mem := MemSys.zero, codec := Codec.zero, trust := Trust.zero,
    fab := Fabric.zero, csu := [], train := Train.zero, pool := none, tier := TierS.zero, snap := SnapS.zero,
    pow := PowerS.zero, boot := Boot.zero, jtag := { ir := 1, cells := 0, refused := 0 }, out := [] }

/-- The state after a power-on reset: nothing waits; DEBUG_NONCE is the first draw of the random source (R410, log entry 3). -/
def State.reset : State :=
  { pending := [], blk := { Block.powerOn with trust.debugNonce := Config.random 0 % 2 ^ 256, mer.draws := 1 } }

inductive Fault where
  /-- raised by no meaning: what the spec calls a fault is a status word, a log entry or Shutter (safe) -/
  | none
deriving DecidableEq, Repr

inductive Refusal where
  /-- an arm of exec without its meaning (safe); no arm is left so -/
  | notModelled (mnemonic : String)
deriving DecidableEq, Repr

end Sys2Proof.Machine
end

