-- ==== Sys2Proof/Machine/Ops.lean ====
section
/-!
DEFINITION. The shared operations of the block: status words, the log, MSI-X messages, packet header fields,
completion records, counter operations, yield records, and lifting a function of one component to the block.
-/

namespace Sys2Proof.Machine

/-! ### Status words (R12, R52) -/

namespace Status
def ok : Nat := 0x0000
def badCheck : Nat := 0x2001
def seqMismatch : Nat := 0x2002
def jobMismatch : Nat := 0x2003
def badOpcode : Nat := 0x2004
def badLength : Nat := 0x2005
def reservedSet : Nat := 0x2006
def badSync : Nat := 0x2007
def originDenied : Nat := 0x2008
def inShutter : Nat := 0x2009
def shutterCauseActive : Nat := 0x200A
def resetRequired : Nat := 0x200B
def shutterHalt : Nat := 0x300C
def ringDisabled : Nat := 0x300D
def preempted : Nat := 0x300E
def badParam : Nat := 0x200F
def jobHalt : Nat := 0x3010
def notSealed : Nat := 0x2020
def sessionUnknown : Nat := 0x2021
def replay : Nat := 0x2022
def authFail : Nat := 0x2023
def addrUnmapped : Nat := 0x2040
def memCorrected : Nat := 0x1041
def memUncorrectable : Nat := 0x4042
def pcRetired : Nat := 0x1043
def checkWord : Nat := 0x4044
def imageRefused : Nat := 0x2060
def programFault : Nat := 0x3061
def passRerun : Nat := 0x1062
def saturated : Nat := 0x1080
def formatPair : Nat := 0x2081
def nonfinite : Nat := 0x1082
def overflowRepeat : Nat := 0x1083
def fwSlotBusy : Nat := 0x2084
def emptyOutput : Nat := 0x20A0
def pageDropped : Nat := 0x30C0
def kvNoPages : Nat := 0x20C1
def pageRegenerated : Nat := 0x10C2
def codecSpaceFull : Nat := 0x30E0
def codecStreamBad : Nat := 0x40E1
def windowMissed : Nat := 0x1100
def hostAccessFail : Nat := 0x3101
def stepMismatch : Nat := 0x2120
def frozenSkip : Nat := 0x0121
def updateGated : Nat := 0x1122
def peerShutter : Nat := 0x1140
def linkDegraded : Nat := 0x1141
def linkFailed : Nat := 0x4142
def rankLost : Nat := 0x3143
def snapshotFallback : Nat := 0x1160
def ledgerCorrected : Nat := 0x1161
def restoreBad : Nat := 0x2162
def trustFail : Nat := 0x4180
def debugLocked : Nat := 0x2181
def holdover : Nat := 0x11A0
def timeLost : Nat := 0x41A1
def eventLate : Nat := 0x11A2
def ephemerisFull : Nat := 0x21A3
def throttled : Nat := 0x11C0
def sleepRefused : Nat := 0x21C1
def thermalLimit : Nat := 0x41C2
end Status

/-- The class of a status word: 0 OK, 1 WARN, 2 REFUSED, 3 ABORTED, 4 FAULT (R12). -/
def statusClass (st : Nat) : Nat := bits st 15 12

/-- The WARN statuses in the order of R505, highest first. -/
def warnOrder : List Nat :=
  [Status.overflowRepeat, Status.nonfinite, Status.saturated, Status.updateGated, Status.ledgerCorrected,
   Status.snapshotFallback, Status.pcRetired, Status.linkDegraded, Status.pageRegenerated, Status.passRerun,
   Status.windowMissed, Status.memCorrected, Status.eventLate, Status.throttled, Status.holdover, Status.peerShutter]

/-- A statuses' place in the order of R505: lower is higher. -/
def statusRank (st : Nat) : Nat :=
  match statusClass st with
  | 4 => 0
  | 3 => 1
  | 2 => 2
  | 1 => 3 + warnOrder.findIdx (· == st)
  | _ => if st = Status.ok then 100 else 101

/-- The status a completion shows: the highest by R505, the first acquired among equals. -/
def showStatus : List Nat → Nat
  | [] => Status.ok
  | st :: rest =>
    rest.foldl (fun best x => if statusRank x < statusRank best then x else best) st

/-- A status acquired whose log entry a rule has already written (the model's own mark on the list `acq`).
[log 29 DEDUCED; 146 DESIGN CHOICE] -/
def loggedMark : Nat := 0x10000

/-! ### Lifting -/

/-- A block function as a state function: everything but the queue of waiting commands. -/
def State.on (s : State) (f : Block → Block) : State := { s with blk := f s.blk }

/-- The outcome of a command that runs: every command answers a next state. [log 1 DESIGN CHOICE] -/
def State.run (s : State) (f : Block → Block) : Host.Outcome State Fault Refusal := .next (s.on f)

/-- SC as a number. -/
def Block.now (b : Block) : Nat := b.sid.sc.toNat

/-- [log 11 DESIGN CHOICE] -/
def Block.emit (o : Output) (b : Block) : Block := { b with out := o :: b.out }

def Block.ring (b : Block) (n : Nat) : Ring := b.mer.rings.get Ring.zero n
def Block.setRing (n : Nat) (r : Ring) (b : Block) : Block :=
  { b with mer.rings := b.mer.rings.set Ring.zero n r }
def Block.tile (b : Block) (t : Nat) : Tile := b.tiles.get Tile.zero t
def Block.setTile (t : Nat) (x : Tile) (b : Block) : Block := { b with tiles := b.tiles.set Tile.zero t x }
def Block.onTile (t : Nat) (f : Tile → Tile) (b : Block) : Block := b.setTile t (f (b.tile t))

/-- A draw of the trust engine's random source, cut to w bits (R415). [log 3 DESIGN CHOICE] -/
def Block.draw (w : Nat) (b : Block) : Nat × Block :=
  (Config.random b.mer.draws % 2 ^ w, { b with mer.draws := b.mer.draws + 1 })

/-- A free value of w bits (R5). [log 4 DESIGN CHOICE] -/
def Block.free (w : Nat) (b : Block) : Nat × Block :=
  (Config.freeValue b.mer.frees % 2 ^ w, { b with mer.frees := b.mer.frees + 1 })

/-! ### MSI-X (R44, R433) -/

/-- A message due on a vector: pending while masked, one message per spacing interval. After FLR has begun or with
the link down nothing is sent (R434, R453). -/
def Block.sendVector (v : Nat) (b : Block) : Block :=
  let x := b.host.msix.get Vector128.zero v
  if !b.host.linkUp then b
  else if x.masked || b.host.funcMask || !b.host.msixEnable then
    { b with host.msix := b.host.msix.set Vector128.zero v { x with pending := true } }
  else if x.spacing then
    { b with host.msix := b.host.msix.set Vector128.zero v { x with due := true } }
  else
    ({ b with host.msix := b.host.msix.set Vector128.zero v { x with spacing := true, due := false } }).emit
      (.msix v x.addr x.data)

/-! ### The log (R443 to R449) -/

/-- Does an entry hold ALERT#: FAULT class or KIND 3, above LOG_ACK (R449)? [log 149 DEDUCED] -/
def LogEntry.alerts (ack : Nat) (e : LogEntry) : Bool :=
  (statusClass e.status = 4 || e.kind = 3) && decide (0 < sx 32 (e.seq + 2 ^ 32 - ack))

def Block.refreshAlert (b : Block) : Block :=
  { b with pins.alert := b.log.entries.any (LogEntry.alerts b.log.ack) }

/-- The vector of an entry (R448, R449); a LIST entry takes the vector of a KIND 0 entry of its class. [log 149 DEDUCED] -/
def Log.vectorOf (l : Log) (e : LogEntry) : Nat :=
  match e.kind with
  | 0 | 4 => if statusClass e.status = 4 then l.vecFault else l.vecWarn
  | 1 => l.vecWarn
  | 2 => l.vecYield
  | _ => l.vecState

/-- Write a log entry: it takes its SEQ and SC, may overwrite the oldest, may fill FIRST_FAULT, and sends its vector
(R443, R447, R449). -/
def Block.logEntry (e : LogEntry) (b : Block) : Block :=
  let seq := if b.log.newest = 2 ^ 32 - 1 then 1 else b.log.newest + 1
  let e := { e with seq := seq, sc := b.now }
  let full := decide (8192 ≤ b.log.entries.length)
  let b := { b with log := { b.log with
    entries := e :: b.log.entries.take 8191, newest := seq,
    lost := if full then Nat.min (b.log.lost + 1) (2 ^ 32 - 1) else b.log.lost,
    firstFault := if b.log.firstFault.isNone && statusClass e.status = 4 then some e else b.log.firstFault } }
  (b.sendVector (b.log.vectorOf e)).refreshAlert

/-- The body of a KIND 0 entry that names a command (R445). [log 28 DEDUCED] -/
def Cmd.errBody (c : Cmd) (generation : Nat) : Nat :=
  let h := c.pkt.hdr.toNat
  match c.pkt.src with
  | .ring n => fields [(192, bits h 95 64), (160, bits h 127 96), (154, n), (96, generation)]
  | .tile t => fields [(192, bits h 95 64), (160, bits h 127 96), (154, c.ring), (153, 1), (145, t), (96, generation)]

/-- A KIND 0 error record (R443, R445), with no command named. -/
def Block.logError (status unit index detail info : Nat) (b : Block) : Block :=
  b.logEntry {
    sc := 0, seq := 0, status := status, kind := 0, almanac := false, unit := unit, index := index,
    detail := detail % 2 ^ 32, info := info % 2 ^ 64, body := 0 }

/-- The reporter index of a command: its ring, or 64 + q for a tile-issued one (R444). -/
def Cmd.index (c : Cmd) : Nat :=
  match c.pkt.src with
  | .ring n => n
  | .tile t => 64 + t / 36

/-- A KIND 0 error record that names a command. [log 28 DEDUCED] -/
def Block.logCmd (c : Cmd) (status unit index detail info : Nat) (b : Block) : Block :=
  b.logEntry {
    sc := 0, seq := 0, status := status, kind := 0, almanac := false, unit := unit, index := index,
    detail := detail % 2 ^ 32, info := info % 2 ^ 64, body := c.errBody 0 }

/-- An Almanac change: GENERATION rises and a record with ALMANAC = 1 reports it (R67). [log 30 DEDUCED] -/
def Block.almanacChange (status unit index detail info : Nat) (b : Block) : Block :=
  let g := (b.alm.generation + 1) % 2 ^ 32
  let b := { b with alm.generation := g }
  b.logEntry {
    sc := 0, seq := 0, status := status, kind := 0, almanac := true, unit := unit, index := index,
    detail := detail % 2 ^ 32, info := info % 2 ^ 64, body := fields [(96, g)] }

/-- A yield record (R31, R446): the object kind decides the unit. [log 144 DEDUCED] -/
def Block.logYield (cause object late objKind yielding prevailing eventKind index : Nat) (b : Block) : Block :=
  let unit := if objKind = 1 then 10 else if objKind = 2 then 7 else 0
  b.logEntry {
    sc := 0, seq := 0, status := cause, kind := 2, almanac := false, unit := unit, index := index,
    detail := 0, info := 0,
    body := fields [(192, object), (128, late), (120, objKind), (116, yielding), (112, prevailing), (108, eventKind)] }

/-- A KIND 3 state entry: the active causes after the change, and a peer rank (R445). -/
def Block.logState (status rank : Nat) (b : Block) : Block :=
  b.logEntry {
    sc := 0, seq := 0, status := status, kind := 3, almanac := false, unit := 0, index := 0, detail := 0,
    info := rank, body := fields [(250, b.shut.active), (234, rank)] }

end Sys2Proof.Machine

namespace Sys2Proof
open Sys2Proof.Machine

/-! ### Packet header fields (R48) -/

def Packet.h (p : Packet) (hi lo : Nat) : Nat := bits p.hdr.toNat hi lo
def Packet.opcode (p : Packet) : Nat := p.h 15 0
def Packet.cls (p : Packet) : Nat := p.h 15 8
def Packet.slots (p : Packet) : Nat := p.h 23 16
def Packet.plen (p : Packet) : Nat := p.h 35 24
def Packet.irq (p : Packet) : Bool := bit p.hdr.toNat 37
def Packet.fence (p : Packet) : Bool := bit p.hdr.toNat 38
def Packet.waitEn (p : Packet) : Bool := bit p.hdr.toNat 39
def Packet.sigEn (p : Packet) : Bool := bit p.hdr.toNat 40
def Packet.isSealed (p : Packet) : Bool := bit p.hdr.toNat 41
def Packet.tag (p : Packet) : Nat := p.h 95 64
def Packet.seq (p : Packet) : Nat := p.h 127 96
def Packet.job (p : Packet) : Nat := p.h 159 128
def Packet.waitCtr (p : Packet) : Nat := p.h 172 160
def Packet.waitCond (p : Packet) : Nat := p.h 175 173
def Packet.waitVal (p : Packet) : Nat := p.h 207 176
def Packet.sigCtr (p : Packet) : Nat := p.h 220 208
def Packet.sigOp (p : Packet) : Nat := p.h 223 221
def Packet.sigVal (p : Packet) : Nat := p.h 255 224
def Packet.session (p : Packet) : Nat := p.h 271 256
def Packet.nonce (p : Packet) : Nat := p.h 351 288
def Packet.authTag (p : Packet) : Nat := p.h 479 352
def Packet.check (p : Packet) : Nat := p.h 511 480
def Packet.hdrBytes (p : Packet) : List Byte := leBytes 64 p.hdr.toNat
/-- The parameter bytes as one little-endian number. -/
def Packet.pnum (p : Packet) : Nat := leNat p.params
/-- Bits hi:lo of the parameters. -/
def Packet.f (p : Packet) (hi lo : Nat) : Nat := bits p.pnum hi lo

end Sys2Proof

namespace Sys2Proof.Machine

/-! ### Sync counters (R62 to R65) -/

def Block.syncVal (b : Block) (ctr : Nat) : Nat := (b.mer.sync.get 0 ctr).toNat

/-- A condition on a counter value (R63). -/
def condHolds (cond counter v : Nat) : Bool :=
  let d := sx 32 (counter + 2 ^ 32 - v % 2 ^ 32)
  match cond with
  | 0 => decide (0 ≤ d)
  | 1 => decide (counter = v % 2 ^ 32)
  | 2 => decide (counter ≠ v % 2 ^ 32)
  | 3 => decide (d < 0)
  | _ => false

/-- Issue an operation on a counter; it takes effect at SYNC_OP_EFFECT of that counter (R65). -/
def Block.issueSync (op : SyncOp) (b : Block) : Block :=
  { b with mer.syncPending := b.mer.syncPending ++ [op] }

def Block.issueAdd (ctr req v : Nat) (b : Block) : Block :=
  b.issueSync { ctr := ctr, req := req, set := false, val := v, cmd := none }

/-! ### Raw memory -/

/-- [log 10 DEDUCED] -/
def Block.rawRead (b : Block) (da n : Nat) : List Byte := b.mem.bytes.getL 0 da n

def Block.rawWrite (da : Nat) (bs : List Byte) (b : Block) : Block :=
  { b with mem.bytes := b.mem.bytes.setL 0 da bs }

/-! ### Completion records (R44 to R47, R59) -/

def Ring.cplSize (r : Ring) : Nat := 2 ^ (r.latched.csize + 6)
def Ring.subSize (r : Ring) : Nat := 2 ^ (r.latched.ssize + 6)
/-- Records written and not consumed (R47). -/
def Ring.unconsumed (r : Ring) : Nat := (r.cplTail + r.cplSize - r.cplHead) % r.cplSize

/-- Where a ring's submission and completion areas stand (R38, R41). -/
def Block.subAddr (b : Block) (n : Nat) : Nat := b.alm.ringAreaDa + n * 0x80000
def Block.cplAddr (b : Block) (n : Nat) : Nat := b.alm.ringAreaDa + n * 0x80000 + 0x40000

/-- Write one 32-byte record into a ring's completion area and advance CPL_TAIL (R45, R46). -/
def Block.writeRecord (n : Nat) (record : Bool → Nat) (b : Block) : Block :=
  let r := b.ring n
  let bs := leBytes 32 (record r.phase)
  let b := if r.latched.loc then b.rawWrite (b.cplAddr n + 32 * r.cplTail) bs
    else b.emit (.hostWrite (r.latched.cbase + 32 * r.cplTail) bs)
  let t := (r.cplTail + 1) % r.cplSize
  b.setRing n { r with cplTail := t, phase := if t = 0 then !r.phase else r.phase }

/-- The record of R45. -/
def recordNat (status ringNo tile : Nat) (origin : Bool) (tag seq detail result doneSc : Nat) (phase : Bool) : Nat :=
  fields [(0, status), (16, b2n phase), (17, ringNo), (23, b2n origin), (24, tile), (32, tag), (64, seq),
    (96, detail % 2 ^ 32), (128, result % 2 ^ 64), (192, doneSc % 2 ^ 64)]

/-- A ring-level error: STOPPED, ERR, ERR_CODE, a record with SEQ 0 in the reserved entry, and the ring's vector (R39, R44, R47,
R54). A ring that has stopped already has used that entry. [log 23 DEDUCED] -/
def Block.ringError (n status : Nat) (b : Block) : Block :=
  let r := b.ring n
  let b := b.setRing n { r with stopped := true, err := true, errCode := status }
  let b := if r.stopped then b else b.writeRecord n (recordNat status n 0 false 0 0 0 0 b.now)
  b.sendVector r.latched.vector

/-- XOR of two byte lists. -/
def xorBytes (a b : List Byte) : List Byte := (a.zip b).map (fun p => p.1 ^^^ p.2)

/-- IV of a sealed packet or of its completion (R57, R59). -/
def gcmIv (salt ctr : Nat) : Nat := salt * 2 ^ 64 + ctr

def Block.session (b : Block) (n : Nat) : Option Session := b.trust.sessions.find? (fun s => s.num = n)

/-- DETAIL, RESULT and DONE_SC of a sealed completion (R59): the first 12 ciphertext bytes and the tag cut to 64 bits,
and the response ciphertext. -/
def sealCompletion (key salt : Nat) (p : Packet) (status detail result : Nat) (rsp : List Byte) :
    Nat × Nat × Nat × List Byte :=
  let iv := gcmIv salt ((p.nonce + 2 ^ 63) % 2 ^ 64)
  let plain := leBytes 4 detail ++ leBytes 8 result ++ rsp
  let ct := xorBytes plain (Config.gcmStream key iv plain.length)
  let aad := leBytes 2 status ++ leBytes 2 p.session ++ leBytes 8 p.nonce
  (leNat (ct.take 4), leNat ((ct.drop 4).take 8), Config.gcmTag key iv aad ct % 2 ^ 64, ct.drop 12)

/-- Response data as it stands at the response buffer of a command: sealed for a sealed one (R59). -/
def Cmd.sealedRsp (c : Cmd) (status detail result : Nat) (rsp : List Byte) : List Byte :=
  match c.sealedOk with
  | some k => (sealCompletion k.1 k.2 c.pkt status detail result rsp).2.2.2
  | none => rsp

/-- Is a ring idle: none of its packets held, dispatched or running (R41)? -/
def Block.ringIdle (b : Block) (n : Nat) : Bool :=
  (b.ring n).held.isEmpty && b.mer.running.all (fun c => c.pkt.src ≠ .ring n)

/-- A regeneration run of an attention command (R246), which is no packet and has no record. -/
def Cmd.isRegen (c : Cmd) : Bool := match c.work with | .run w => w.regen.isSome | _ => false

/-- Is there a free entry for one more packet record in a ring: outside those unconsumed, those reserved for the packets
it has read and not completed, and the reserve for a ring-level error (R47, R61)? [log 26 DEDUCED] -/
def Block.entryFree (b : Block) (n : Nat) : Bool :=
  let r := b.ring n
  let reserved := (b.mer.running.filter (fun c => c.pkt.src = .ring n && !c.isRegen)).length + r.held.length
  decide (r.unconsumed + reserved + 1 ≤ r.cplSize - 2)

/-- Write the completion record of a packet, sealed where R59 says so. -/
def Block.cmdRecord (c : Cmd) (status detail result : Nat) (b : Block) : Block :=
  let rec3 := match c.sealedOk with
    | some k =>
      let x := sealCompletion k.1 k.2 c.pkt status detail result c.rsp
      (x.1, x.2.1, x.2.2.1)
    | none => (detail, result, b.now)
  match c.pkt.src with
  | .ring n => b.writeRecord n
      (recordNat status n 0 false c.pkt.tag c.pkt.seq rec3.1 rec3.2.1 rec3.2.2)
  | .tile t => b.writeRecord c.ring
      (recordNat status c.ring t true c.pkt.tag 0 rec3.1 rec3.2.1 rec3.2.2)

/-- A packet's completion signal, by class OK or WARN only, issued by Merlen as requester 219 (R53, R64). [log 22 DEDUCED] -/
def Block.signal (c : Cmd) (status : Nat) (b : Block) : Block :=
  if c.pkt.sigEn && decide (statusClass status ≤ 1) then
    b.issueSync { ctr := c.pkt.sigCtr, req := 219, set := c.pkt.sigOp = 1, val := c.pkt.sigVal, cmd := none }
  else b

/-- Log the WARN statuses acquired and not shown, where no rule has logged them (R505). [log 29 DEDUCED] -/
def Block.logUnshown (c : Cmd) (shown : Nat) (acq : List Nat) (b : Block) : Block :=
  acq.eraseDups.foldl (fun b st =>
    if st < loggedMark && statusClass st = 1 && st ≠ shown && !acq.contains (st + loggedMark) then b.logCmd c st 0 c.index 0 0 else b) b

/-- Try to write the records of failed tile-issued packets into free entries (R61). -/
def Block.flushTileFailed (b : Block) : Block :=
  b.mer.tileFailed.foldl (fun b cs =>
    if b.entryFree cs.1.ring then
      let b := { b with mer.tileFailed := b.mer.tileFailed.filter (fun x => x.1.id ≠ cs.1.id) }
      let b := b.cmdRecord cs.1 cs.2 cs.1.detail cs.1.result
      b.sendVector (b.ring cs.1.ring).latched.vector
    else b) b

/-- A command completes (R44 to R47, R53, R61, R505): the status it shows, its record, its signal, its vector. -/
def Block.complete (c : Cmd) (status detail result : Nat) (b : Block) : Block :=
  let all := c.acq ++ [status]
  let shown := showStatus (all.map (· % loggedMark))
  let b := { b with mer.running := b.mer.running.filter (fun x => x.id ≠ c.id) }
  let b := b.logUnshown c shown all
  let b := b.signal c shown
  match c.pkt.src with
  | .ring n =>
    let b := b.cmdRecord c shown detail result
    if c.pkt.irq || statusClass shown ≠ 0 then b.sendVector (b.ring n).latched.vector else b
  | .tile _ =>
    if statusClass shown ≤ 1 then b
    else
      let b := b.logCmd c shown 0 c.index detail 0
      let b := { b with mer.tileFailed := b.mer.tileFailed ++ [({ c with detail := detail, result := result }, shown)] }
      b.flushTileFailed

/-- The running command of an identifier. -/
def Block.cmd (b : Block) (id : Nat) : Option Cmd := b.mer.running.find? (fun c => c.id = id)

/-- Every packet held before dispatch of a ring ends with a status (R33, R43, R420). [log 77 DEDUCED] -/
def Block.abortHeld (n status : Nat) (b : Block) : Block :=
  (b.ring n).held.foldl (fun b c => b.complete c status 0 0) (b.setRing n { (b.ring n) with held := [] })

/-- Replace a running command. -/
def Block.setCmd (c : Cmd) (b : Block) : Block :=
  { b with mer.running := b.mer.running.map (fun x => if x.id = c.id then c else x) }

/-- Replace what a running command's engine holds for it. -/
def Block.setWork (id : Nat) (w : Work) (b : Block) : Block :=
  { b with mer.running := b.mer.running.map (fun x => if x.id = id then { x with work := w } else x) }

/-- A running command acquires a status (R505). [log 29 DEDUCED] -/
def Block.acquire (id status : Nat) (b : Block) : Block :=
  match b.cmd id with
  | some c => b.setCmd { c with acq := c.acq ++ [status] }
  | none => b

/-- Complete a running command by identifier, if it still runs. -/
def Block.completeId (id status detail result : Nat) (b : Block) : Block :=
  match b.cmd id with
  | some c => b.complete c status detail result
  | none => b

end Sys2Proof.Machine
end

