-- ==== Sys2Proof/Machine/Mem.lean ====
section
/-!
DEFINITION. Stacked memory (spec/10) and the Device Address map (spec/01): regions, placement and remapping, the
Plate code, page attributes, poisoning, and reading and writing populated bytes with the read path of R259.
-/

namespace Sys2Proof.Machine

/-! ### The Device Address map (R20 to R24) -/

/-- The region of a DA (R20). -/
inductive Region where
  | hbm | tile (t off : Nat) | host (addr : Nat) | peer (ex rank off : Nat) | reserved
deriving DecidableEq, Repr

def hbmTop : Nat := 0x1BF08EB0000
def tileBase : Nat := 0x100000000000
/-- DA of byte 0 of tile Tn's window (R21). -/
def tileDa (t : Nat) : Nat := tileBase + t * 0x1000000
def tileBytes : Nat := 0xC00000

/-- Region by address bits alone; an unpopulated HBM or tile-window byte keeps its region (R20, R22). -/
def regionOf (da : Nat) : Region :=
  if da < 0x20000000000 then .hbm
  else if tileBase ≤ da ∧ da < tileDa 144 then .tile ((da - tileBase) / 0x1000000) ((da - tileBase) % 0x1000000)
  else if 0x4000000000000 ≤ da ∧ da < 0x8000000000000 then .host (bits da 49 0)
  else if 0x8000000000000 ≤ da ∧ da < 0x10000000000000 then .peer (bits da 50 48) (bits da 47 32) (bits da 31 0)
  else .reserved

/-- Is every byte of a range populated HBM? -/
def inHbm (da n : Nat) : Bool := decide (da + n ≤ hbmTop)

/-- Is every byte of a range populated tile store of one tile? -/
def inTile (da n : Nat) : Bool :=
  match regionOf da with
  | .tile _ off => decide (off + n ≤ tileBytes)
  | _ => false

/-- Is a range populated local memory (R23)? -/
def localPopulated (da n : Nat) : Bool :=
  match regionOf da with
  | .hbm => inHbm da n
  | .tile _ off => decide (off + n ≤ tileBytes)
  | _ => false

/-! ### Placement (R249, R263) -/

/-- place(DA): pseudo-channel number P = 32h + p and location L (R249). -/
def place (da : Nat) : Nat × Nat :=
  let g := bits da 40 11
  let l := g / 768
  let j := (g % 768 + 7 * l) % 768
  let q := j % 4
  let s := (j / 4) % 6
  let p := j / 24
  (32 * (6 * q + s) + p, l)

/-- The n-th pseudo-channel not among the first r retired ones, ascending (R263). -/
def liveNth (gone : List Nat) (n : Nat) : Nat :=
  ((List.range 768).filter (fun p => !gone.contains p)).getD n 0

/-- Remap rounds: `gone` are the retirements already passed, then X[r]… to come (R263). -/
def homeGo : List Nat → List Nat → Nat → Nat × Nat → Nat × Nat
  | _, [], _, x => x
  | gone, y :: ys, r, (p, loc) =>
    let gone := gone ++ [y]
    let x := if p = y then
        let n := 768 - r
        (liveNth gone (loc % n), 1220704 + (r - 1) * 1632 + loc / n)
      else (p, loc)
    homeGo gone ys (r + 1) x

/-- home(DA) under the retirements so far (R263). A location of the migrating pseudo-channel that is not yet
migrated is still served from it (R264). -/
def Block.home (b : Block) (da : Nat) : Nat × Nat :=
  let full := homeGo [] b.mem.retired 1 (place da)
  match b.mem.retired.getLast? with
  | some x =>
    if (b.mem.pcs.get Pc.zero x).st = .migrating then
      let before := homeGo [] b.mem.retired.dropLast 1 (place da)
      if before.1 = x && decide (b.mem.migNext ≤ before.2) && !b.mem.migrated.contains before.2 then before else full
    else full
  | none => full

/-! ### The Plate code (R250 to R253) -/

/-- Multiplication by α in GF(2^8) with 0x11D. -/
def gfX (a : Nat) : Nat := if a < 128 then 2 * a else (2 * a) ^^^ 0x11D

/-- α^k. -/
def gfPow : Nat → Nat
  | 0 => 1
  | k + 1 => gfX (gfPow k)

/-- a·α^k. -/
def gfMulPow (a : Nat) : Nat → Nat
  | 0 => a
  | k + 1 => gfX (gfMulPow a k)

/-- Symbol i of a code-word pattern. -/
def symAt (w i : Nat) : Nat := bits w (8 * i + 7) (8 * i)

/-- Syndrome S0 = C(1) of an 18-symbol word (R252). -/
def syn0 (w : Nat) : Nat := (List.range 18).foldl (fun a i => a ^^^ symAt w i) 0
/-- Syndrome S1 = C(α). -/
def syn1 (w : Nat) : Nat := (List.range 18).foldl (fun a i => a ^^^ gfMulPow (symAt w i) i) 0

/-- The check symbols (c0, c1) of 16 data bytes (R250). -/
def plateCheck (data : List Nat) : Nat × Nat :=
  let d := data.zipIdx.foldl (fun a x => a ||| (x.1 <<< (8 * (x.2 + 2)))) 0
  let s0 := syn0 d
  let s1 := syn1 d
  -- c0 + c1 = s0 and c0 + α c1 = s1: c1·(1 + α) = s0 + s1
  let t := s0 ^^^ s1
  let c1 := ((List.range 256).find? (fun c => c ^^^ gfX c = t)).getD 0
  (s0 ^^^ c1, c1)

inductive PlateOut where
  | clean | corrected (pos mag : Nat) | poison | uncorrectable
deriving DecidableEq, Repr

/-- The decoder's outcome for the stored-error pattern of a word, with an erased position if a pin is marked
(R252). The syndromes of a word depend only on its error pattern. -/
def plateDecode (erasure : Option Nat) (pat : Nat) : PlateOut :=
  let s0 := syn0 pat
  let s1 := syn1 pat
  if s0 = 0 ∧ s1 = 0 then .clean
  else
    match erasure with
    | some f =>
      if s1 = gfMulPow s0 f then .corrected f s0
      else if s0 = 0 ∧ s1 = 3 then .poison else .uncorrectable
    | none =>
      if s0 = 0 ∧ s1 = 3 then .poison
      else if s0 = 0 ∨ s1 = 0 then .uncorrectable
      else
        match (List.range 18).find? (fun e => gfMulPow s0 e = s1) with
        | some e => .corrected e s0
        | none => .uncorrectable

/-- The pattern of a poisoned word: c0 and c1 each XORed with 1 (R253). -/
def poisonPat : Nat := 0x0101

/-- Position of the symbol that a pin carries in code word w of a burst (R251); none where the pin carries the other
word. Pins 0–31 are DQ, 32–35 CB. -/
def pinPos (w pin : Nat) : Option Nat :=
  if pin < 32 then (if pin / 16 = w then some (pin % 16 + 2) else none)
  else if (pin - 32) / 2 = w then some ((pin - 32) % 2) else none

/-- The pin of a position of code word w (R251). -/
def posPin (w pos : Nat) : Nat := if 2 ≤ pos then 16 * w + (pos - 2) else 32 + 2 * w + pos

/-- The erased position of a code word of a pseudo-channel (R260). -/
def Pc.erasure (p : Pc) (w : Nat) : Option Nat := (p.erasures.filterMap (pinPos w)).head?

/-! ### Page attributes (R254) -/

def attrDefault : Nat := 0x0100
def Block.attr (b : Block) (page : Nat) : Nat := b.mem.attrs.get attrDefault page
def attrDomain (a : Nat) : Nat := bits a 15 12
def attrClass (a : Nat) : Nat := bits a 11 9
def attrZeroed (a : Nat) : Bool := bit a 8
def attrWp (a : Nat) : Bool := bit a 7
def attrCodec (a : Nat) : Bool := bit a 6
def mkAttr (domain cls : Nat) (zeroed wp codec : Bool) : Nat :=
  fields [(12, domain), (9, cls), (8, b2n zeroed), (7, b2n wp), (6, b2n codec)]
def Block.setAttr (page a : Nat) (b : Block) : Block :=
  { b with mem.attrs := b.mem.attrs.set attrDefault page a }
def pageOf (da : Nat) : Nat := da / 0x10000

/-- The pages a range touches. -/
def pagesOf (da n : Nat) : List Nat :=
  if n = 0 then [] else (List.range (pageOf (da + n - 1) + 1 - pageOf da)).map (· + pageOf da)

/-- A page of CLASS 2 or 3: a parameter or optimizer region (R254). -/
def Block.isState (b : Block) (page : Nat) : Bool :=
  attrClass (b.attr page) = 2 || attrClass (b.attr page) = 3

/-- Forget the bytes and stored errors of a page. -/
def Block.dropPage (page : Nat) (b : Block) : Block :=
  { b with
    mem.bytes := b.mem.bytes.clear (page * 0x10000) ((page + 1) * 0x10000),
    mem.errs := b.mem.errs.clear (page * 0x1000) ((page + 1) * 0x1000) }

/-- Make a page ZEROED: it reads as zero until its first write (R257). [log 10 DEDUCED] -/
def Block.zeroPage (page a : Nat) (b : Block) : Block := (b.dropPage page).setAttr page a

/-! ### Code words of local memory -/

/-- Erasures apply in HBM only; a FENCED home reads as POISON (R260, R262), but for a ZEROED page, whose reads do not reach the
stack (R257). -/
def Block.wordOut (b : Block) (w : Nat) : PlateOut :=
  let pat := b.mem.errs.get 0 w
  if 16 * w < 0x20000000000 then
    if attrZeroed (b.attr (pageOf (16 * w))) then .clean else
    let pc := b.mem.pcs.get Pc.zero (b.home (16 * w)).1
    if pc.st = .fenced then .poison
    else if pat = 0 then .clean
    else plateDecode (pc.erasure (w % 2)) pat
  else if pat = 0 then .clean else plateDecode none pat

/-- The words a range touches. -/
def wordsOf (da n : Nat) : List Nat :=
  if n = 0 then [] else (List.range ((da + n - 1) / 16 + 1 - da / 16)).map (· + da / 16)

/-- Poison the 64-byte block of a word (R253). -/
def Block.poisonBlock (w : Nat) (b : Block) : Block :=
  let w0 := w / 4 * 4
  { b with mem.errs := (List.range 4).foldl (fun m i => m.set 0 (w0 + i) poisonPat) b.mem.errs }

def Block.isPoisoned (b : Block) (w : Nat) : Bool := b.mem.errs.get 0 w = poisonPat

def satInc (w x : Nat) : Nat := Nat.min (x + 1) (2 ^ w - 1)

/-- A stored word after its error has been corrected at a position: what is left of its pattern. [log 51 DEDUCED] -/
def residual (pat pos mag : Nat) : Nat := pat ^^^ (mag <<< (8 * pos))

/-- No word can hold an error: nothing stored is in error and no pseudo-channel is FENCED. -/
def Block.allClean (b : Block) : Bool := b.mem.errs.isEmpty && b.mem.pcs.all (fun e => e.2.st ≠ .fenced)

/-- The first uncorrectable or poisoned word of a range. -/
def Block.badWord (b : Block) (da n : Nat) : Option Nat :=
  if b.allClean then none else (wordsOf da n).find? (fun w => match b.wordOut w with | .poison => true | .uncorrectable => true | _ => false)

/-- Bytes of populated local memory, with ZEROED pages as zero (R257) and no side effect. [log 10 DEDUCED] -/
def Block.peek (b : Block) (da n : Nat) : List Byte := b.rawRead da n

/-- Does some word of the range need a correction? -/
def Block.needsScrub (b : Block) (da n : Nat) : Bool :=
  !b.mem.errs.isEmpty && (wordsOf da n).any (fun w => match b.wordOut w with | .corrected _ _ => true | _ => false)

/-- Before the first write to a ZEROED page the controllers write zeros to it and clear ZEROED (R257). -/
def Block.unzero (da n : Nat) (b : Block) : Block :=
  if 0x20000000000 ≤ da then b else
  (pagesOf da n).foldl (fun b p =>
    let a := b.attr p
    if attrZeroed a then b.setAttr p (a - 0x100) else b) b

/-- A write to a location of the migrating pseudo-channel goes to the new home and marks the location migrated (R264). -/
def Block.markMigrated (da n : Nat) (b : Block) : Block :=
  match b.mem.retired.getLast? with
  | some x =>
    if (b.mem.pcs.get Pc.zero x).st = .migrating && decide (da < 0x20000000000) then
      (List.range ((da + n - 1) / 2048 + 1 - da / 2048)).foldl (fun b i =>
        let h := homeGo [] b.mem.retired.dropLast 1 (place (da / 2048 * 2048 + 2048 * i))
        if h.1 = x && decide (b.mem.migNext ≤ h.2) && !b.mem.migrated.contains h.2 then
          { b with mem.migrated := h.2 :: b.mem.migrated } else b) b
    else b
  | none => b

/-- A write of populated local memory below the codec: whole words lose their stored errors and poison (R253); a part
of a word is merged into the corrected word. -/
def Block.memWrite (da : Nat) (bs : List Byte) (b : Block) : Block :=
  let b := (b.unzero da bs.length).markMigrated da bs.length
  let b := if 0x20000000000 ≤ da then b else
    { b with mem.touched := (pagesOf da bs.length).foldl (fun (m : Sparse Bool) p => m.set false p true) b.mem.touched }
  let b := if b.mem.errs.isEmpty then b else
    { b with mem.errs := (wordsOf da bs.length).foldl (fun m w =>
        if da ≤ 16 * w ∧ 16 * w + 16 ≤ da + bs.length then m.set 0 w 0 else m) b.mem.errs }
  b.rawWrite da bs

/-- May bytes be written to the page now: its WP is clear (R384)? [log 56 DEDUCED] -/
def Block.wpHit (b : Block) (da n : Nat) : Bool :=
  decide (da < 0x20000000000) && (pagesOf da n).any (fun p => attrWp (b.attr p))

/-- A write that Shutter refuses: a CLASS 2 or 3 page while in Shutter (R33, R34). -/
def Block.roHit (b : Block) (da n : Nat) : Bool :=
  b.shut.shut && decide (da < 0x20000000000) && (pagesOf da n).any (fun p => b.isState p)

/-! ### Little-endian words of records kept in memory -/

def Block.rd (b : Block) (da n : Nat) : Nat := leNat (b.peek da n)
def Block.wr (da n v : Nat) (b : Block) : Block := b.memWrite da (leBytes n v)

end Sys2Proof.Machine
end

