-- ==== Sys2Proof/Machine/KvPool.lean ====
section
/-!
DEFINITION. The KV page store's structures in HBM (spec/09, R234 to R245): page entries, sequence entries and page tables,
the free list, dropping and taking pages, and the completion step of a paged command.
-/

namespace Sys2Proof.Machine

/-! ### Entries (R236 to R238) -/

structure PageE where
  lastUse : Nat
  gen : Nat
  ref : Nat
  pin : Nat
  next : Nat
  st : Nat
  droppable : Bool
  filling : Bool
  writer : Nat
deriving DecidableEq, Repr

def PageE.ofNat (x : Nat) : PageE :=
  { lastUse := bits x 255 192, gen := bits x 191 168, ref := bits x 167 152, pin := bits x 151 136, next := bits x 135 112,
    st := bits x 111 110, droppable := bit x 109, filling := bit x 108, writer := bits x 107 92 }

def PageE.toNat (e : PageE) : Nat :=
  fields [(192, e.lastUse), (168, e.gen), (152, e.ref), (136, e.pin), (112, e.next), (110, e.st), (109, b2n e.droppable),
    (108, b2n e.filling), (92, e.writer)]

structure SeqE where
  ptDa : Nat
  ptCap : Nat
  length : Nat
  handle : Nat
  arg : Nat
  isOpen : Bool
  drop : Bool
  busy : Bool
deriving DecidableEq, Repr

def SeqE.ofNat (x : Nat) : SeqE :=
  { ptDa := bits x 255 204, ptCap := bits x 203 180, length := bits x 179 156, handle := bits x 155 152,
    arg := bits x 151 120, isOpen := bit x 119, drop := bit x 118, busy := bit x 117 }

def SeqE.toNat (e : SeqE) : Nat :=
  fields [(204, e.ptDa), (180, e.ptCap), (156, e.length), (152, e.handle), (120, e.arg), (119, b2n e.isOpen),
    (118, b2n e.drop), (117, b2n e.busy)]

/-- A page-table entry: page, generation, valid (R238). -/
structure PtE where
  phys : Nat
  gen : Nat
  valid : Bool
deriving DecidableEq, Repr

def PtE.ofNat (x : Nat) : PtE := { phys := bits x 63 40, gen := bits x 39 16, valid := bit x 0 }
def PtE.toNat (e : PtE) : Nat := fields [(40, e.phys), (16, e.gen), (0, b2n e.valid)]

def Block.pageE (b : Block) (pl : Pool) (p : Nat) : PageE := PageE.ofNat (b.rd (pl.entryDa + 32 * p) 32)
/-- [log 68 DEDUCED] -/
def Block.setPageE (pl : Pool) (p : Nat) (e : PageE) (b : Block) : Block := b.wr (pl.entryDa + 32 * p) 32 e.toNat
def Block.onPageE (pl : Pool) (p : Nat) (f : PageE → PageE) (b : Block) : Block := b.setPageE pl p (f (b.pageE pl p))
def Block.seqE (b : Block) (pl : Pool) (q : Nat) : SeqE := SeqE.ofNat (b.rd (pl.seqDa + 32 * q) 32)
/-- [log 68 DEDUCED] -/
def Block.setSeqE (pl : Pool) (q : Nat) (e : SeqE) (b : Block) : Block := b.wr (pl.seqDa + 32 * q) 32 e.toNat
def Block.ptE (b : Block) (s : SeqE) (i : Nat) : PtE := PtE.ofNat (b.rd (s.ptDa + 8 * i) 8)
/-- [log 68 DEDUCED] -/
def Block.setPtE (s : SeqE) (i : Nat) (e : PtE) (b : Block) : Block := b.wr (s.ptDa + 8 * i) 8 e.toNat

/-- Does an entry name the page's current generation (R238)? -/
def Block.current (b : Block) (pl : Pool) (e : PtE) : Bool := e.valid && decide ((b.pageE pl e.phys).gen = e.gen)

/-- Does a structure that a command on a sequence reads hold a word that cannot be read? [log 68 DEDUCED] -/
def Block.kvBad (b : Block) (pl : Pool) (q n : Nat) : Bool :=
  (b.badWord (pl.seqDa + 32 * q) 32).isSome || (b.badWord (b.seqE pl q).ptDa (8 * n)).isSome ||
    (List.range n).any (fun i => (b.badWord (pl.entryDa + 32 * (b.ptE (b.seqE pl q) i).phys) 32).isSome)

/-! ### The free list (R234, R244, R245) -/

def Block.setPool (pl : Pool) (b : Block) : Block := { b with pool := some pl }

/-- A page goes to the head of the free list (R244). The NEXT of the last page on the list is left to the A9. [log 70 DEDUCED] -/
def Block.freePage (p : Nat) (b : Block) : Block :=
  match b.pool with
  | none => b
  | some pl =>
    let f := b.free 24
    let b := f.2.onPageE pl p (fun e => { e with
      st := 0, ref := 0, droppable := false, filling := false, next := pl.free.headD f.1 })
    b.setPool { pl with free := p :: pl.free }

/-- REF of a page falls by one (R244). -/
def Block.unref (p : Nat) (b : Block) : Block :=
  match b.pool with
  | none => b
  | some pl =>
    let e := b.pageE pl p
    if 1 < e.ref then b.setPageE pl p { e with ref := e.ref - 1 }
    else if e.pin = 0 then b.freePage p
    else b.setPageE pl p { e with ref := 0, st := 2, droppable := false, filling := false }

/-- PIN of a page falls by one; a page that waited for this is released. LAST_USE takes the current SC (R242, R244). -/
def Block.unpin (p : Nat) (b : Block) : Block :=
  match b.pool with
  | none => b
  | some pl =>
    let e := b.pageE pl p
    let b := b.setPageE pl p { e with pin := e.pin - 1, lastUse := b.now }
    if e.pin ≤ 1 && e.st = 2 then b.freePage p else b

/-- Drop a page: GEN advances, the page is free and every entry to it stale (R245). -/
def Block.dropKvPage (p : Nat) (b : Block) : Block :=
  match b.pool with
  | none => b
  | some pl => (b.onPageE pl p (fun e => { e with gen := (e.gen + 1) % 2 ^ 24 })).freePage p

/-- May a page be dropped: outside the pages an admission pins (R245)? -/
def PageE.candidate (e : PageE) : Bool := e.st = 1 && e.droppable && e.pin = 0 && !e.filling

def Block.candidates (b : Block) (pl : Pool) (pinned : List Nat) : List Nat :=
  (List.range pl.pages).filter (fun p => (b.pageE pl p).candidate && !pinned.contains p)

/-- The candidate dropped first: the lowest LAST_USE, then the lowest page (R245). -/
def Block.firstCandidate (b : Block) (pl : Pool) (pinned : List Nat) : Option Nat :=
  (b.candidates pl pinned).foldl (fun (a : Option Nat) p =>
    match a with
    | none => some p
    | some q => if (b.pageE pl p).lastUse < (b.pageE pl q).lastUse then some p else some q) none

/-- Take one page: the head of the free list, or else the first candidate, dropped (R245). -/
def Block.takePage (pinned : List Nat) (b : Block) : Option Nat × Block :=
  match b.pool with
  | none => (none, b)
  | some pl =>
    match pl.free with
    | p :: rest => (some p, b.setPool { pl with free := rest })
    | [] =>
      match b.firstCandidate pl pinned with
      | none => (none, b)
      | some p =>
        let b := b.dropKvPage p
        (some p, match b.pool with | some pl => b.setPool { pl with free := pl.free.drop 1 } | none => b)

/-! ### The completion step (R242) -/

def Cmd.kvSeq (c : Cmd) : Nat := c.pkt.f 200 185
def Cmd.kvAppend (c : Cmd) : Bool := bit c.pkt.pnum 203

/-- The completion step of an admitted command, and the end of one that a halt or a fault ended: pages not yet regenerated
are dropped, the others are whole; pins go; BUSY clears. [log 71 DEDUCED] -/
def Block.kvRelease (c : Cmd) (w : AttnWork) (b : Block) : Block :=
  match w.admitted, b.pool with
  | true, some pl =>
    let b := w.fresh.foldl (fun b p => b.onPageE pl p (fun e => { e with filling := false })) b
    let b := match w.cow with | some (old, _) => b.unpin old | none => b
    let b := w.pins.foldl (fun b p => b.unpin p) b
    let b := w.toRegen.foldl (fun b x => if (b.pageE pl x.2).ref = 0 then b else b.dropKvPage x.2) b
    if c.kvAppend then b.setSeqE pl c.kvSeq { (b.seqE pl c.kvSeq) with busy := false } else b
  | _, _ => b

end Sys2Proof.Machine
end

