-- ==== Sys2Proof/Machine/Sleep.lean ====
section
/-!
DEFINITION. Wake sources (R471, R472): what ends a sleep, aborts its entry, or ends Dark. Used by every event that can wake
the module.
-/

namespace Sys2Proof.Machine

/-- Is the module awake and powered? -/
def Block.isAwake (b : Block) : Bool := b.pow.sleep = .awake
/-- Are the hub's rails up: not in Dark and not held in reset? [log 124 DEDUCED] -/
def Block.hubUp (b : Block) : Bool := !b.boot.dark && !b.boot.perst && !b.boot.brown
/-- Does Merlen accept ring packets (DEV_STATUS.READY)? -/
def Block.isReady (b : Block) : Bool := b.boot.ready && b.hubUp

/-- The 32-bit unit word of SLEEP_REFUSER and SLEEP_ABORTER (R465), and DETAIL of a refused SLEEP without bit 31 (R469). -/
def sleepWord (unit index why : Nat) : Nat := fields [(24, unit), (8, index % 2 ^ 16), (0, why)]
def sleepDetail (unit index why : Nat) : Nat := fields [(23, unit), (7, index % 2 ^ 16), (0, why)]

/-- Ports that went ASLEEP train again behind the wake pattern; SLEEP flits still queued are dropped (R362, R471). -/
def Block.wakePorts (b : Block) : Block :=
  { b with fab.ports := b.fab.ports.map (fun (e : Nat × Port) =>
      (e.1, { e.2 with
        queues := e.2.queues.map (fun (q : Nat × List QFlit) => (q.1, q.2.filter (fun f => f.typ ≠ 5))),
        st := if e.2.st = .asleep then .train else e.2.st,
        waking := e.2.waking || decide (e.2.st = .asleep) })) }

/-- An entry is aborted (R469, R471). -/
def Block.abortSleep (src unit index : Nat) (b : Block) : Block :=
  let p := b.pow
  let b1 : Block := { b with pow := { p with
    sleep := .awake, sleepCmd := none, aborted := Nat.min (p.aborted + 1) (2 ^ 32 - 1), aborter := sleepWord unit index src } }
  match p.sleepCmd with
  | some id => b1.wakePorts.completeId id Status.sleepRefused (2 ^ 31 + sleepDetail unit index src) 0
  | none => b1.wakePorts

/-- A wake from Dark: the boot starts (R472, R478). -/
def Block.leaveDark (b : Block) : Block := { b with boot.dark := false, pow.darkWake := false, pins.wakeDriven := true }

/-- A wake source is recognised (R471, R472). [log 114 DEDUCED] -/
def Block.wakeBy (src unit index : Nat) (b : Block) : Block :=
  if b.boot.dark then (if src = 2 ∨ src = 3 then b.leaveDark else b)
  else
    match b.pow.sleep with
    | .awake => b
    | .waking _ _ => b
    | .entering t =>
      if t = 3 then (if src = 2 ∨ src = 3 then { b with pow.darkWake := true } else b)
      else b.abortSleep src unit index
    | .asleep t => ({ b with pow.sleep := .waking t src }).wakePorts

/-- Does a TLP reach the function: the hub is up and the link with it? -/
def Block.linked (b : Block) : Bool := b.hubUp && b.host.linkUp

/-- A TLP addressed to the function: a sleeping module wakes (R472). [log 114, 131 DEDUCED] -/
def Block.onTlp (f : Block → Block) (b : Block) : Block := if b.linked then f (b.wakeBy 1 13 0) else b

end Sys2Proof.Machine
end

