-- ==== Sys2Proof/Machine/Tally.lean ====
section
/-!
DEFINITION. Tally units (R454 to R457): a transfer of a snooped stream starts, brings bytes, and commits or is
discarded in stream order.
-/

namespace Sys2Proof.Machine

/-- The initial STATE of a POLY, and its final XOR (R455). -/
def polyInit (poly : Nat) : Nat := if poly = 0 then 0xFFFFFFFF else if poly = 1 then 0xFFFFFFFFFFFFFFFF else 0

/-- One byte at stream offset o (R455). -/
def polyByte (poly o st : Nat) (x : Byte) : Nat :=
  if poly = 0 then crcByte 0x82F63B78 st x
  else if poly = 1 then crcByte 0xC96C5795D7870F42 st x
  else (st + x.toNat * 2 ^ (8 * (o % 8))) % 2 ^ 64

/-- VALUE (R455). -/
def Csu.value (c : Csu) : Nat := c.state ^^^ polyInit c.poly

/-- Absorb bytes; nothing once DONE (R456). Reaching LIMIT latches VALUE and sets DONE. -/
def Csu.absorb (c : Csu) : List Byte → Csu
  | [] => c
  | x :: xs =>
    if c.done then c
    else
      let c1 := { c with state := polyByte c.poly c.bytes c.state x, bytes := c.bytes + 1 }
      if c.limit ≠ 0 && c1.bytes = c.limit then { c1 with done := true, latched := c1.value } else c1.absorb xs

/-- The bytes of a piece that the filter keeps (R454). -/
def Csu.keep (c : Csu) (da : Nat) (bs : List Byte) : List Byte :=
  if c.lo = 0 && c.hi = 0 then bs
  else bs.zipIdx.filterMap (fun x => if decide (c.lo ≤ da + x.2) && decide (da + x.2 < c.hi) then some x.1 else none)

/-- Insert a piece in DA order. -/
def insertPiece (p : Nat × List Byte) : List (Nat × List Byte) → List (Nat × List Byte)
  | [] => [p]
  | q :: qs => if p.1 < q.1 then p :: q :: qs else q :: insertPiece p qs

/-- Commit or discard the ended transfers at the head of a unit's stream (R454). -/
def Csu.settle : Nat → Csu → Csu
  | 0, c => c
  | fuel + 1, c =>
    match c.pend with
    | [] => c
    | p :: rest =>
      match p.ended with
      | none => c
      | some true =>
        ((p.pieces.foldl (fun (c : Csu) (q : Nat × List Byte) => c.absorb (c.keep q.1 q.2)) { c with pend := rest })).settle fuel
      | some false => { c with pend := rest, discarded := Nat.min (c.discarded + 1) 0xFFFF }.settle fuel

/-- Rewrite a unit; when it reaches LIMIT with SIG_EN it signals as requester 219 (R456). [log 22, 123 DEDUCED] -/
def Block.setCsu (i : Nat) (c : Csu) (b : Block) : Block :=
  let old := b.csu.get Csu.zero i
  let b := { b with csu := b.csu.set Csu.zero i c }
  if c.done && !old.done && c.sigEn then b.issueAdd (if c.latched = c.expect then c.matchCtr else c.missCtr) 219 1 else b

/-- Apply a function to every unit that a test selects. -/
def Block.onCsu (p : Csu → Bool) (f : Csu → Csu) (b : Block) : Block :=
  b.csu.foldl (fun b e => if p e.2 then b.setCsu e.1 (f e.2) else b) b

/-- A transfer of stream (kind, index) starts (R454). -/
def Block.tallyStart (kind index xid : Nat) (b : Block) : Block :=
  b.onCsu (fun c => c.enable && c.kind = kind && c.index = index)
    (fun c => { c with pend := c.pend ++ [{ kind := kind, index := index, xid := xid, pieces := [], ended := none }] })

/-- Is a pending transfer that one, and has it not ended? -/
def TPend.goes (p : TPend) (kind index xid : Nat) : Bool := p.kind = kind && p.index = index && p.xid = xid && p.ended.isNone

/-- Bytes of a started transfer, at their DA. [log 62 DEDUCED] -/
def Block.tallyData (kind index xid da : Nat) (bs : List Byte) (b : Block) : Block :=
  b.onCsu (fun c => c.pend.any (fun p => p.goes kind index xid))
    (fun c => { c with pend := c.pend.map (fun p =>
      if p.goes kind index xid then { p with pieces := insertPiece (da, bs) p.pieces } else p) })

/-- A transfer ends: with class OK or WARN it commits in its turn, else it is discarded (R454). -/
def Block.tallyEnd (kind index xid : Nat) (ok : Bool) (b : Block) : Block :=
  b.onCsu (fun c => c.pend.any (fun p => p.goes kind index xid))
    (fun c => Csu.settle (c.pend.length + 1) { c with pend := c.pend.map (fun p =>
      if p.goes kind index xid then { p with ended := some ok } else p) })

/-- A transfer that starts, brings one piece and ends at once. -/
def Block.tallyWhole (kind index xid da : Nat) (bs : List Byte) (b : Block) : Block :=
  ((b.tallyStart kind index xid).tallyData kind index xid da bs).tallyEnd kind index xid true

end Sys2Proof.Machine
end

