-- ==== Sys2Proof/Machine/TileOps.lean ====
section
/-!
DEFINITION. What every tile rule uses: registers, tile-store accesses with the visibility rule of R138, results in
flight (R166), census records (R177), halting a RUN's tiles and program faults (R152, R159).
-/

namespace Sys2Proof.Machine

/-! ### Registers -/

def Tile.sreg (x : Tile) (core r : Nat) : Nat := (x.sregs.get 0 (32 * core + r)).toNat
def Tile.setSreg (core r v : Nat) (x : Tile) : Tile :=
  { x with sregs := x.sregs.set 0 (32 * core + r) (BitVec.ofNat 32 v) }
def Tile.vreg (x : Tile) (r : Nat) : Nat := (x.vregs.get 0 r).toNat
def Tile.mask (x : Tile) (p : Nat) : Nat := (x.masks.get 0 p).toNat
def Tile.dreg (x : Tile) (r : Nat) : Nat := (x.dregs.get 0 r).toNat
def Tile.acVal (x : Tile) (i : Nat) : Nat := (x.ac.get 0 i).toNat
def Tile.group (x : Tile) (g : Nat) : Group := x.groups.get Group.closedG g
def Tile.setGroup (g : Nat) (v : Group) (x : Tile) : Tile := { x with groups := x.groups.set Group.closedG g v }

/-- Frozen: a freeze is still to pass, or a replay or a spare-row switch runs (R150). -/
def Tile.isFrozen (x : Tile) : Bool := decide (0 < x.frozen) || !x.rerun.isEmpty || x.switching

/-- May a slot of this tile issue now: a program runs, has not ended, halted or stopped, and the tile is not frozen. -/
def Tile.issuing (x : Tile) : Bool := x.run.isSome && !x.halted && !x.ended && !x.stopped && !x.isFrozen

/-- Free to take the next RUN, CONV or ATTN command: nothing runs and everything issued has finished (R157, R188). -/
def Tile.isFree (x : Tile) : Bool :=
  x.run.isNone && x.held.isNone && x.moves.isEmpty && x.drain.isNone && decide (x.st ≠ 2)

/-! ### Filter Wheel (R85, R101, R103) -/

/-- Entry n of the Filter Wheel. -/
def Block.fwEntry (b : Block) (n : Nat) : Nat := if n < 10 then builtinFw.getD n 0 else b.fw.slots.get 0 n
def Block.fmt (b : Block) (n : Nat) : Fmt := fmtOf (b.fwEntry n)

/-- A slot that may hold block-scaled elements: 3–8, or a defined user slot (R89, R103). -/
def Block.isBlockSlot (b : Block) (n : Nat) : Bool :=
  (decide (3 ≤ n) && decide (n ≤ 8)) || (decide (10 ≤ n) && decide (n ≤ 31) && decide ((b.fmt n).kind = 1))

/-- A slot allowed as an output: 0–2 or block-scaled (R103, R123). -/
def Block.isOutSlot (b : Block) (n : Nat) : Bool := decide (n ≤ 2) || b.isBlockSlot n

/-! ### Census (R177 to R179) -/

def u64max : Nat := 2 ^ 64 - 1

/-- Add one record to another: counts add, saturating, AMAX takes the maximum (R178, R179). FP32 codes of non-negative
values order as numbers. -/
def Census.add (a c : Census) : Census :=
  { updates := Nat.min (a.updates + c.updates) u64max, elements := Nat.min (a.elements + c.elements) u64max,
    zero := Nat.min (a.zero + c.zero) u64max, sat := Nat.min (a.sat + c.sat) u64max,
    nonfinite := Nat.min (a.nonfinite + c.nonfinite) u64max, amax := Nat.max a.amax c.amax,
    wrote := a.wrote || c.wrote }

/-- The 64 bytes of a record (R178). -/
def Census.toNat (c : Census) : Nat :=
  fields [(64, c.updates), (128, c.elements), (192, c.zero), (256, c.sat), (320, c.nonfinite), (384, c.amax)]

def Census.ofNat (x : Nat) : Census :=
  { updates := bits x 127 64, elements := bits x 191 128, zero := bits x 255 192, sat := bits x 319 256,
    nonfinite := bits x 383 320, amax := bits x 415 384, wrote := false }

/-- The census of one written operation: its elements' classes and finite source values (R97, R177). [log 44 DEDUCED] -/
def censusOf (classes : List EncClass) (vals : List FV) : Census :=
  let n (k : EncClass → Bool) := (classes.filter k).length
  let top := amaxOf vals
  let code := (fp32.enc (FV.ofDy false top)).1
  { updates := 1, elements := classes.length, zero := n (· = .zero), sat := n EncClass.isSat,
    nonfinite := n EncClass.isNonfinite, wrote := classes.any EncClass.wroteNonfinite,
    amax := if code = 0x7F800000 then 0x7F7FFFFF else code }

/-- A census update of a write made in this cycle (R179). -/
def Tile.addCensus (cid : Nat) (c : Census) (x : Tile) : Tile := { x with recent := x.recent ++ [(x.cyc, cid, c)] }

/-- Updates that satisfy `p` enter their records; the others stay. [log 32 DEDUCED] -/
def Tile.foldCensus (p : Nat → Bool) (x : Tile) : Tile :=
  { x with
    census := (x.recent.filter (fun (r : Nat × Nat × Census) => p r.1)).foldl
      (fun m r => m.upd Census.empty r.2.1 (·.add r.2.2)) x.census,
    recent := x.recent.filter (fun (r : Nat × Nat × Census) => !p r.1) }

/-- Updates of writes made two cycles ago or earlier, which a CSTORE of this cycle records (R179). [log 32 DEDUCED] -/
def Tile.seenCensus (x : Tile) : Tile := x.foldCensus (fun c => decide (c + 2 ≤ x.cyc))

/-- The record with every update in it. -/
def Tile.censusAll (x : Tile) (cid : Nat) : Census := (x.foldCensus (fun _ => true)).census.get Census.empty cid

/-! ### RUNs, halts and faults -/

/-- The RUN of a command. -/
def Cmd.runWork (c : Cmd) : Option RunWork :=
  match c.work with | .run w => some w | _ => none

/-- A tile stops for good in its RUN: groups close; issued moves and drains finish on their own (R130, R159). -/
def Tile.halt (x : Tile) : Tile :=
  { x with halted := true, run := none, held := none, ended := false, groups := [], rerun := [], switching := false,
           faultAt := [], waitSince := none, waitOk := false, stopping := false, stopped := false, branch := none,
           pend := [], frozen := 0 }


/-! ### Tile store (R136 to R138, R147) -/

/-- A tile-store write made in this cycle: visible to every port 2 cycles later (R138). -/
def Tile.tsWrite (addr : Nat) (bs : List Byte) (x : Tile) : Tile :=
  { x with flight := x.flight ++ [{ visible := x.cyc + 2, addr := addr, bytes := bs }] }

/-- Writes that have become visible enter the store. -/
def Block.settleFlight (t : Nat) (b : Block) : Block :=
  let x := b.tile t
  let due := x.flight.filter (fun f => decide (f.visible ≤ x.cyc))
  let b := b.setTile t { x with flight := x.flight.filter (fun f => decide (x.cyc < f.visible)) }
  due.foldl (fun b f => b.memWrite (tileDa t + f.addr) f.bytes) b

/-- Every write in flight enters the store, and every census update its record: the operations of the tile have finished (R158,
R162). [log 33 DEDUCED] -/
def Block.drainFlight (t : Nat) (b : Block) : Block :=
  let x := b.tile t
  let b := b.setTile t { (x.foldCensus (fun _ => true)) with flight := [] }
  x.flight.foldl (fun b f => b.memWrite (tileDa t + f.addr) f.bytes) b

/-! ### Results (R166) -/

/-- Lane-wise choice between two 512-lane registers under a mask. -/
def mergeLanes (mask new old : Nat) : Nat :=
  if mask = 2 ^ 512 - 1 then new else
  (List.range 512).foldl (fun a i =>
    a ||| ((if bit mask i then bits new (32 * i + 31) (32 * i) else bits old (32 * i + 31) (32 * i)) <<< (32 * i))) 0

/-- Row accesses of a port in this cycle (R136, R137): bank bits 12:6 and row bits 23:13 of each 64-byte row touched. -/
def Tile.touch (port addr n : Nat) (w : Bool) (x : Tile) : Tile :=
  { x with acc := x.acc ++ ((List.range ((addr + n - 1) / 64 + 1 - addr / 64)).map
      (fun i => (port, (addr / 64 + i) % 128, (addr / 64 + i) / 128, w))) }

/-- A write by a fixed port in this cycle. -/
def Tile.portWrite (port addr : Nat) (bs : List Byte) (x : Tile) : Tile := (x.touch port addr bs.length true).tsWrite addr bs

/-- One result lands. -/
def Tile.land (x : Tile) (p : Pending) : Tile :=
  match p.dest with
  | .vreg r m => { x with vregs := x.vregs.upd 0 r (fun old => BitVec.ofNat 16384 (mergeLanes m p.value old.toNat)) }
  | .mask q => { x with masks := x.masks.set 0 q (BitVec.ofNat 512 p.value) }
  | .sreg c r => x.setSreg c r p.value
  | .store a port =>
    Tile.touch port a p.bytes.length true
      { x with flight := x.flight ++ [{ visible := p.ready + 2, addr := a, bytes := p.bytes }] }
  | .dreg r => { x with dregs := x.dregs.set 0 r (BitVec.ofNat 128 p.value) }
  | .cclr cid => { x with
      census := x.census.set Census.empty cid Census.empty,
      recent := x.recent.filter (fun (r : Nat × Nat × Census) => r.2.1 ≠ cid || decide (p.ready ≤ r.1)) }
  | .census cid c => { x with recent := x.recent ++ [(p.ready, cid, c)] }

/-- The order of results that land in one cycle: CCLR before updates, stores in port order (R175, R179). -/
def Pending.order (p : Pending) : Nat :=
  match p.dest with | .cclr _ => 0 | .store _ port => 2 + port | _ => 1

/-- Do two results land in one register in the same cycle (R166)? The second part tells a scalar from a vector one. -/
def clash : List Pending → Option Bool
  | [] => none
  | p :: ps =>
    let same (q : Pending) : Bool :=
      decide (p.ready = q.ready) &&
      (match p.dest, q.dest with
       | .vreg a _, .vreg c _ => decide (a = c)
       | .mask a, .mask c => decide (a = c)
       | .sreg a r, .sreg c s => decide (a = c) && decide (r = s)
       | _, _ => false)
    if ps.any same then some (match p.dest with | .sreg _ _ => true | _ => false) else clash ps

/-- Insert by ready cycle, then by order, keeping issue order among equals. -/
def insertPend (p : Pending) : List Pending → List Pending
  | [] => [p]
  | q :: qs =>
    if p.ready < q.ready || (p.ready = q.ready && p.order < q.order) then p :: q :: qs else q :: insertPend p qs

def sortPend (ps : List Pending) : List Pending := ps.foldl (fun acc p => insertPend p acc) []

/-- Everything issued on a tile finishes: results land and writes enter the store (R130, R158, R159). -/
def Block.finishOps (t : Nat) (b : Block) : Block :=
  let x := b.tile t
  (b.setTile t ((sortPend x.pend).foldl Tile.land { x with pend := [] })).drainFlight t

def Block.haltTiles (ts : List Nat) (b : Block) : Block :=
  ts.foldl (fun b t => (b.finishOps t).onTile t Tile.halt) b

/-- A RUN leaves the machine: PREEMPTs that waited for it no longer do (R161). One whose last RUN has gone completes
with the number of RUNs it pre-empted. -/
def Block.preemptDrop (id : Nat) (wasSaved : Bool) (b : Block) : Block :=
  b.mer.running.foldl (fun b c =>
    match c.work with
    | .preempt left n =>
      if left.contains id then
        let left := left.filter (· ≠ id)
        let n := if wasSaved then n + 1 else n
        let b := b.setWork c.id (.preempt left n)
        if left.isEmpty then b.completeId c.id Status.ok 0 n else b
      else b
    | _ => b) b

/-- A regeneration run ends (R246): its tiles are the attention command's again. After success the page is whole and its
LAST_USE is the current SC; a failure is kept for the command. [log 72 DEDUCED] -/
def Block.regenEnd (c : Cmd) (w : RunWork) (attn status detail result : Nat) (b : Block) : Block :=
  let b := { b with mer.running := b.mer.running.filter (fun x => x.id ≠ c.id) }
  match b.cmd attn with
  | none => b
  | some a =>
    match a.work with
    | .attn aw =>
      let b := w.tiles.foldl (fun b t => b.onTile t (fun x => { x with held := some attn, halted := false })) b
      if statusClass status ≤ 1 then
        let p := (aw.toRegen.head?.map (·.2)).getD 0
        let b := match b.pool with
          | some pl => b.onPageE pl p (fun e => { e with filling := false, lastUse := b.now })
          | none => b
        b.setCmd { a with
          acq := a.acq ++ c.acq,
          work := .attn { aw with regen := none, toRegen := aw.toRegen.drop 1, fresh := aw.fresh.filter (· ≠ p) } }
      else b.setCmd { a with work := .attn { aw with regen := none, failed := some (status, detail, result) } }
    | _ => b

/-- A RUN ends with a status: its tiles are released. [log 43 DEDUCED] -/
def Block.endRun (id status detail result : Nat) (b : Block) : Block :=
  match b.cmd id with
  | some c =>
    match c.work with
    | .run w =>
      let b := b.haltTiles (w.tiles.filter (fun t => (b.tile t).run = some id))
      match w.regen with
      | some attn => b.regenEnd c w attn status detail result
      | none =>
        let b := b.complete c status detail result
        b.preemptDrop id (status = Status.preempted)
    | _ => b.complete c status detail result
  | none => b

/-- DETAIL of a program fault (R152). -/
def Tile.faultDetail (x : Tile) (cause group : Nat) : Nat := fields [(0, cause), (8, group), (10, x.pc)]

/-- What a program fault ends (R152, R159): every tile of the RUN halts, and the RUN completes ABORTED PROGRAM_FAULT. `da` is the
faulting granule's DA for the MOVE causes; otherwise RESULT counts the tile's issue cycles, this one among them. [log 28 DEDUCED] -/
def Block.faultEnd (t cause group : Nat) (da : Option Nat) (b : Block) : Block :=
  let x := b.tile t
  let detail := x.faultDetail cause group
  let result := fields [(56, t), (0, match da with | some d => d | none => (x.issueCyc.getD (x.cyc + 1)) % 2 ^ 32)]
  match x.run with
  | some id => b.endRun id Status.programFault detail result
  | none => b.haltTiles [t]

/-- A program fault (R152, R159): the tile writes its error record, and its RUN ends. -/
def Block.progFault (t cause group : Nat) (da : Option Nat) (b : Block) : Block :=
  (b.logError Status.programFault 1 t ((b.tile t).faultDetail cause group) (da.getD 0)).faultEnd t cause group da

/-- A warning acquired by whatever command holds a tile (R97, R131). -/
def Block.tileAcquire (t status : Nat) (b : Block) : Block :=
  match (b.tile t).run.or (b.tile t).held with
  | some id => b.acquire id status
  | none => b

/-- Statuses of R97 for a census update. [log 44 DEDUCED] -/
def Block.censusStatus (t : Nat) (c : Census) (b : Block) : Block :=
  let b := if c.sat = 0 then b else b.tileAcquire t Status.saturated
  if c.wrote then b.tileAcquire t Status.nonfinite else b

/-- Land every result that is due by this cycle; two in one register fault the program (R166). -/
def Block.landResults (t : Nat) (b : Block) : Block :=
  let x := b.tile t
  let due := x.pend.filter (fun p => decide (p.ready ≤ x.cyc))
  match clash due with
  | some true => b.progFault t 0x24 0 none
  | some false => b.progFault t 0x21 0 none
  | none =>
    let x1 := { x with pend := x.pend.filter (fun p => decide (x.cyc < p.ready)) }
    let b := b.setTile t ((sortPend due).foldl Tile.land x1)
    b.settleFlight t

/-- Put a result in flight, L cycles from now. -/
def Tile.later (l : Nat) (d : Dest) (value : Nat) (bs : List Byte) (x : Tile) : Tile :=
  { x with pend := x.pend ++ [{ ready := x.cyc + l, dest := d, value := value, bytes := bs }] }

end Sys2Proof.Machine
end

