-- ==== Sys2Proof/Machine/Halt.lean ====
section
/-!
DEFINITION. Entry into Shutter (R32, R33, R35, R452): latching a cause and ending outstanding work. Pseudo-channel
faults (R260 to R263), which may latch one.
-/

namespace Sys2Proof.Machine

/-! ### Ending outstanding work (R33, R420) -/

/-- Every packet held before dispatch, in rings and tile command queues, ends with a status. -/
def Block.abortAllHeld (status : Nat) (b : Block) : Block :=
  let b := b.mer.rings.foldl (fun b e => b.abortHeld e.1 status) b
  let l := (b.mer.tileHeld.map (·.2)).flatten
  l.foldl (fun b c => b.complete c status 0 0) { b with mer.tileHeld := [] }

/-- One command ends: a RUN with its tiles, a CONV or ATTN command with the tiles it holds, any other alone. [log 76 DEDUCED] -/
def Block.haltCmd (id status : Nat) (b : Block) : Block :=
  match b.cmd id with
  | none => b
  | some c =>
    match c.work with
    | .run _ => b.endRun id status 0 0
    | .conv ts _ => (b.haltTiles (ts.filter (fun t => (b.tile t).held = some id))).completeId id status 0 0
    | .attn w =>
      let mine (t : Nat) : Bool := (b.tile t).held = some id || (w.regen.isSome && (b.tile t).run = w.regen)
      let b := { (b.haltTiles (w.tiles.filter mine)) with
        mer.running := b.mer.running.filter (fun x => some x.id ≠ w.regen) }
      (b.kvRelease c w).completeId id status 0 0
    | .restore _ =>
      let b : Block := { b with train.invalid := (c.pkt.f 371 369, 0) :: b.train.invalid.filter (· ≠ (c.pkt.f 371 369, 0)) }
      b.completeId id status 0 0
    | _ => b.completeId id status 0 0

/-- Engines forget the work of commands that have ended; their transfers in Tally streams are discarded (R454). -/
def Block.reap (b : Block) : Block :=
  let live (id : Nat) : Bool := (b.cmd id).isSome
  let b := { b with
    fab.colls := b.fab.colls.filter (fun c => live c.cmd),
    fab.reqs := b.fab.reqs.filter (fun r => match r.2.2 with | .coll id _ => live id | .cmd id _ _ => live id | .fetch id => live id | _ => true),
    host.reqs := b.host.reqs.filter (fun r => match r.2 with | .tier id _ _ => live id | .flush id => live id | .restore id _ _ => live id | _ => true) }
  let gone (p : TPend) : Bool := (p.kind ≤ 1 || p.kind = 4 || p.kind = 5) && p.ended.isNone && (b.cmd p.xid).isNone
  b.onCsu (fun c => c.pend.any gone) (fun c => Csu.settle (c.pend.length + 1)
    { c with pend := c.pend.map (fun p => if gone p then { p with ended := some false } else p) })

/-- An update command past the checks that end in a refusal: in step 8 of R333, or in its block loop. [log 76 DEDUCED] -/
def Cmd.updRuns (c : Cmd) : Bool := match c.work with | .upd w => w.begun | _ => false

/-- End the running commands a test selects, in dispatch order. -/
def Block.haltWhere (p : Cmd → Bool) (status : Nat) (b : Block) : Block :=
  (b.mer.running.filter p).foldl (fun b c => b.haltCmd c.id status) b

def Cmd.isPreempt (c : Cmd) : Bool := match c.work with | .preempt _ _ => true | _ => false

/-! ### Shutter (R32 to R35) -/

/-- Does a running command go on in Shutter: the snapshot drain (R34), a walk, which pauses (R258), and a counter
operation already issued? -/
def Block.staysInShutter (b : Block) (c : Cmd) : Bool :=
  c.pkt.opcode = 0x0B01 || b.mem.walks.any (fun w => w.cmd = c.id) || c.work = .syncOp

/-- Actions 2 and 3 of R33: update commands pending and queued complete REFUSED IN_SHUTTER, then everything else that does
not go on, an update in step 8 included (R342), completes ABORTED SHUTTER_HALT; every tile program halts. [log 54, 77 DEDUCED] -/
def Block.shutterActions (b : Block) : Block :=
  let b := b.haltWhere (fun c => c.pkt.cls = 8 && !c.updRuns) Status.inShutter
  let b := b.haltWhere (fun c => c.isPreempt) Status.shutterHalt
  let b := b.haltWhere (fun c => !b.staysInShutter c) Status.shutterHalt
  (b.abortAllHeld Status.shutterHalt).reap

/-- Latch Shutter cause k, coded as in R361: the first cause enters Shutter. A cause of kind 0, 1 or 3 is cleared once its
entry is written (R452). [log 54 DEDUCED] -/
def Block.latchCause (k status : Nat) (b : Block) : Block :=
  let first := !b.shut.shut
  let b := { b with shut := { shut := true, active := setBit b.shut.active k true, seen := setBit b.shut.seen k true } }
  let b := b.logState status 0
  let b := if k = 0 ∨ k = 1 ∨ k = 3 then { b with shut.active := setBit b.shut.active k false } else b
  let b := b.wakeBy 6 10 1
  if first then { b.shutterActions with pins.fault := true, pins.wakeDriven := false } else b

/-! ### Pseudo-channels (R260 to R262) -/

def Block.pc (b : Block) (h : Nat) : Pc := b.mem.pcs.get Pc.zero h
def Block.setPc (h : Nat) (p : Pc) (b : Block) : Block := { b with mem.pcs := b.mem.pcs.set Pc.zero h p }

/-- Is some pseudo-channel migrating? -/
def Block.migrating (b : Block) : Option Nat := (b.mem.pcs.find? (fun e => e.2.st = .migrating)).map (·.1)

/-- Does a CLASS 2 or 3 page have a granule homed on h (R262)? -/
def Block.stateHomedOn (b : Block) (h : Nat) : Bool :=
  b.mem.attrs.any (fun e => decide (attrClass e.2 = 2 ∨ attrClass e.2 = 3) &&
    (List.range 32).any (fun i => (b.home (e.1 * 0x10000 + 2048 * i)).1 = h))

/-- [log 49 DEDUCED] -/
def Block.fence (h : Nat) (b : Block) : Block :=
  let b := b.setPc h { b.pc h with st := .fenced }
  let b := b.almanacChange Status.pcRetired 2 h 1 0
  if b.stateHomedOn h then b.latchCause 0 Status.memUncorrectable else b

/-- A permanent fault of a pseudo-channel (R262). [log 49, 53 DEDUCED] -/
def Block.pcFault (h : Nat) (b : Block) : Block :=
  let p := b.pc h
  match p.st with
  | .active | .degraded =>
    if b.migrating.isSome then
      { (b.setPc h { p with st := .queued }) with mem.migQueue := b.mem.migQueue ++ [h] }
    else if b.mem.retired.length < 8 then
      { (b.setPc h { p with st := .migrating }) with
        mem.retired := b.mem.retired ++ [h], mem.migNext := 0, mem.migrated := [], mem.migPoison := [] }
    else b.fence h
  | .queued =>
    if b.migrating.isNone && decide (8 ≤ b.mem.retired.length) then
      { b.fence h with mem.migQueue := b.mem.migQueue.filter (· ≠ h) }
    else b
  | _ => b

/-- Count a correction against its pin (R259, R260): at 64 in an epoch the pin becomes an erasure pin and the
pseudo-channel DEGRADED; a second such pin is a permanent fault (R262). [log 53 DEDUCED] -/
def Block.countPin (h pin : Nat) (b : Block) : Block :=
  let p := b.pc h
  let n := p.counts.get 0 pin + 1
  let b := b.setPc h { p with counts := p.counts.set 0 pin n }
  if n = 64 && !p.erasures.contains pin then
    if p.erasures.isEmpty then
      let b := b.setPc h { b.pc h with erasures := [pin], st := if p.st = .active then .degraded else p.st }
      b.logError Status.memCorrected 2 h (1 + pin) 0
    else b.pcFault h
  else b

end Sys2Proof.Machine
end

