-- ==== Sys2Proof/Machine/Scrub.lean ====
section
/-!
DEFINITION. The read path of stacked memory and of the tile stores (R259 to R262): demand scrub, erasure pins, poisoning
and its test, and what an uncorrectable error in a parameter or optimizer page does.
-/

namespace Sys2Proof.Machine

/-- What reading local memory gives. -/
inductive MemRead where
  | data (bs : List Byte) (corrected : Bool)
  /-- an uncorrectable or poisoned word, at a DA -/
  | bad (da : Nat)
deriving DecidableEq, Repr

/-- Demand scrub of one word (R259): the corrected word is written back, its pin counted, the counter raised and an
error record written. A word decoded at a wrong position keeps its residual error; its ciphertext then differs from
what was written, so its bytes become free values. [log 51 DEDUCED] -/
def Block.scrubWord (w : Nat) (b : Block) : Block :=
  match b.wordOut w with
  | .corrected pos mag =>
    let res := residual (b.mem.errs.get 0 w) pos mag
    let b := { b with mem.errs := b.mem.errs.set 0 w 0 }
    let b := if res = 0 then b else
      let f := b.free 128
      f.2.rawWrite (16 * w) (leBytes 16 f.1)
    if 16 * w < 0x20000000000 then
      let h := (b.home (16 * w)).1
      (({ b with mem.ceCount := satInc 32 b.mem.ceCount } : Block).logError Status.memCorrected 2 h 0 (16 * w)).countPin h (posPin (w % 2) pos)
    else b
  | _ => b

/-- Correct the words of a range (R259). -/
def Block.scrubRange (da n : Nat) (b : Block) : Block :=
  if b.mem.errs.isEmpty then b else
  (wordsOf da n).foldl (fun b w => b.scrubWord w) b

/-- An uncorrectable or poisoned word of stacked memory (R259): an UNCORRECTABLE word's block is poisoned and tested, the
test finding a permanent fault where `perm` says so (R261); a record is written; a CLASS 2 or 3 page latches Shutter
cause 0. [log 52 DESIGN CHOICE] -/
def Block.memFaultWith (perm : Bool) (w : Nat) (b : Block) : Block :=
  if 0x20000000000 ≤ 16 * w then b else
  let h := (b.home (16 * w)).1
  let b := { b with mem.ueCount := satInc 32 b.mem.ueCount }
  let b := if b.isPoisoned w || decide ((b.pc h).st = .fenced) then b else
    if perm then (b.poisonBlock w).pcFault h else b.poisonBlock w
  let b := b.logError Status.memUncorrectable 2 h 0 (16 * w)
  if b.isState (pageOf (16 * w)) then b.latchCause 0 Status.memUncorrectable else b

/-- The same for a demand read: what the test finds is a free value. [log 52 DESIGN CHOICE] -/
def Block.memFault (w : Nat) (b : Block) : Block :=
  if 0x20000000000 ≤ 16 * w then b else
  let f := b.free 1
  f.2.memFaultWith (f.1 = 1) w

/-- A read of local memory below the codec: the outcome, and the block after demand scrubbing (R259). -/
def Block.memRead (da n : Nat) (b : Block) : MemRead × Block :=
  match b.badWord da n with
  | some w => (.bad (16 * w), b.memFault w)
  | none =>
    let c := b.needsScrub da n
    let b := b.scrubRange da n
    (.data (b.peek da n) c, b)


end Sys2Proof.Machine
end

