-- ==== Sys2Proof/Machine/Codec.lean ====
section
/-!
DEFINITION. Coelostat (spec/11): canonical codes, page streams, the page map, assembly slots, DELTA references,
BOUNDED quantisation, and the read and write path of every local DA with views in the way.
-/

namespace Sys2Proof.Machine

/-! ### Entropy tables (R273, R274) -/

/-- The 272 code lengths of a 144-byte table. -/
def tableLens (t : Nat) : List Nat := (List.range 272).map (fun s => bits t (4 * s + 3) (4 * s))

/-- Is a table acceptable (R273)? -/
def tableOk (t : Nat) : Bool :=
  let lens := tableLens t
  bits t 1119 1088 = crc32c (leBytes 136 t) && lens.any (· ≠ 0) &&
    decide ((lens.filter (· ≠ 0)).foldl (fun a l => a + 2 ^ (15 - l)) 0 ≤ 2 ^ 15)

/-- The first code of each length 1 to 15 (R274). -/
def firstCodes (lens : List Nat) : List Nat :=
  ((List.range 15).foldl (fun (acc : List Nat × Nat) i =>
    let n := i + 1
    let prev := if n = 1 then 0 else (lens.filter (· = n - 1)).length
    let code := (acc.2 + prev) * 2
    (acc.1 ++ [code], code)) ([], 0)).1

/-- The canonical code: (symbol, length, code) of every coded symbol (R274). -/
def canonical (lens : List Nat) : List (Nat × Nat × Nat) :=
  let first := firstCodes lens
  ((List.range 15).map (fun i =>
    let n := i + 1
    ((List.range lens.length).filter (fun s => lens.getD s 0 = n)).zipIdx.map
      (fun x => (x.1, n, first.getD i 0 + x.2)))).flatten

/-! ### Bit strings (R281): bits fill each byte from bit 0 upward -/

def bitsOfByte (b : Byte) : List Bool := (List.range 8).map (fun i => b.toNat.testBit i)
def bitsOf (bs : List Byte) : List Bool := (bs.map bitsOfByte).flatten
/-- A fixed-width field, least significant bit first. -/
def fieldBits (w v : Nat) : List Bool := (List.range w).map (fun i => v.testBit i)
/-- A prefix code, most significant bit first. -/
def codeBits (len code : Nat) : List Bool := (fieldBits len code).reverse
def natOfBits (l : List Bool) : Nat := l.foldr (fun b a => 2 * a + b2n b) 0

/-- Bytes of a bit string, zero-padded. -/
def packBytes : Nat → List Bool → List Byte
  | 0, _ => []
  | n + 1, l => if l.isEmpty then [] else BitVec.ofNat 8 (natOfBits (l.take 8)) :: packBytes n (l.drop 8)

/-- Read one prefix code: bits so far (value, length); none when no code matches. -/
def readCode (codes : List (Nat × Nat × Nat)) : Nat → Nat → List Bool → Option (Nat × List Bool)
  | _, _, [] => none
  | v, n, x :: xs =>
    let v := 2 * v + b2n x
    let n := n + 1
    match codes.find? (fun c => c.2.1 = n && c.2.2 = v) with
    | some c => some (c.1, xs)
    | none => if 15 ≤ n then none else readCode codes v n xs

/-- Read HUFF codes until a plane of `len` bytes is full; the plane is built newest first (R282). -/
def readHuff (codes : List (Nat × Nat × Nat)) (len : Nat) : Nat → List Byte → List Bool → Option (List Byte × List Bool)
  | 0, _, _ => none
  | fuel + 1, acc, l =>
    if acc.length = len then some (acc.reverse, l) else
    match readCode codes 0 0 l with
    | none => none
    | some (s, rest) =>
      if s < 256 then readHuff codes len fuel (BitVec.ofNat 8 s :: acc) rest
      else if s ≤ 267 ∧ acc.length + 2 ^ (s - 255) ≤ len then
        readHuff codes len fuel (List.replicate (2 ^ (s - 255)) 0 ++ acc) rest
      else none

/-- Read n bytes of 8-bit fields. -/
def readRaw : Nat → List Bool → Option (List Byte × List Bool)
  | 0, l => some ([], l)
  | n + 1, l =>
    if l.length < 8 then none else
    match readRaw n (l.drop 8) with
    | some (bs, r) => some (BitVec.ofNat 8 (natOfBits (l.take 8)) :: bs, r)
    | none => none

/-- Read the PMODE and TABLE fields of np planes (R281). -/
def readModes : Nat → List Bool → Option (List (Nat × Nat) × List Bool)
  | 0, l => some ([], l)
  | n + 1, l =>
    if l.length < 2 then none else
    let pm := natOfBits (l.take 2)
    let l := l.drop 2
    if pm = 3 then none
    else if pm = 2 then
      if l.length < 4 then none else
      match readModes n (l.drop 4) with
      | some (ms, r) => some ((pm, natOfBits (l.take 4)) :: ms, r)
      | none => none
    else
      match readModes n l with
      | some (ms, r) => some ((pm, 0) :: ms, r)
      | none => none

/-- Read the payloads of the planes in order (R282). -/
def readPlanes (tables : List (Nat × List Nat)) (len : Nat) : List (Nat × Nat) → List Bool →
    Option (List (List Byte) × List Bool)
  | [], l => some ([], l)
  | (pm, t) :: ms, l =>
    let one : Option (List Byte × List Bool) :=
      match pm with
      | 0 => some (List.replicate len 0, l)
      | 1 => readRaw len l
      | _ =>
        match tables.find? (fun x => x.1 = t) with
        | some x => readHuff (canonical x.2) len (len + 1) [] l
        | none => none
    match one with
    | some (p, l) =>
      match readPlanes tables len ms l with
      | some (ps, r) => some (p :: ps, r)
      | none => none
    | none => none

/-- Number of planes of a map's words: W / 8 (R281). -/
def elemBytes (elem : Nat) : Nat := match elem with | 0 => 1 | 1 => 4 | _ => 2

/-- Planes of a page, and the page of its planes. -/
def toPlanes (np : Nat) (page : List Byte) : List (List Byte) :=
  (List.range np).map (fun j => (List.range (page.length / np)).map (fun i => page.getD (i * np + j) 0))
def ofPlanes (np : Nat) (ps : List (List Byte)) : List Byte :=
  (List.range 4096).map (fun i => (ps.getD (i % np) []).getD (i / np) 0)

/-- Decode a stream to the transformed page and its XFORM (R281, R282). -/
def decodeStream (m : CMap) (stream : List Byte) : Option (Nat × List Byte) :=
  let l := bitsOf stream
  let np := elemBytes m.elem
  if l.length < 8 then none else
  let ver := natOfBits (l.take 4)
  let xf := natOfBits ((l.drop 4).take 2)
  if ver ≠ 1 ∨ 2 ≤ xf ∨ natOfBits ((l.drop 6).take 2) ≠ 0 then none else
  match readModes np (l.drop 8) with
  | none => none
  | some (ms, l) =>
    match readPlanes m.tables (4096 / np) ms l with
    | none => none
    | some (ps, rest) =>
      -- the padding is at most 7 zero bits and ends at LEN
      if 8 ≤ rest.length ∨ rest.any id then none else some (xf, ofPlanes np ps)

/-! ### Encoding (R283) -/

/-- Run symbols of n zero bytes: decreasing powers of two, and a single zero as literal 0. -/
def runSymbols (n : Nat) : List Nat :=
  ((List.range 13).reverse.filter (fun k => n.testBit k)).map (fun k => if k = 0 then 0 else 255 + k)

/-- Symbols of a plane: literals, and runs for two or more zeros. `z` counts zeros seen and not yet emitted. -/
def planeSymbols : Nat → List Byte → List Nat
  | z, [] => runSymbols z
  | z, b :: bs => if b = 0 then planeSymbols (z + 1) bs else runSymbols z ++ b.toNat :: planeSymbols 0 bs

/-- HUFF coding of a plane with one table, if it codes every symbol. -/
def huffBits (lens : List Nat) (syms : List Nat) : Option (List Bool) :=
  let codes := canonical lens
  if syms.all (fun s => lens.getD s 0 ≠ 0) then
    some ((syms.map (fun s =>
      match codes.find? (fun c => c.1 = s) with
      | some c => codeBits c.2.1 c.2.2
      | none => [])).flatten)
  else none

/-- The shortest coding of one plane: (PMODE and TABLE bits, payload) (R283). -/
def encodePlane (m : CMap) (plane : List Byte) : List Bool × List Bool :=
  if plane.all (· = 0) then (fieldBits 2 0, [])
  else
    let syms := planeSymbols 0 plane
    let raw := bitsOf plane
    let cands := m.tables.filterMap (fun t => (huffBits t.2 syms).map (fun p => (t.1, p)))
    let best := cands.foldl (fun (acc : Option (Nat × List Bool)) c =>
      match acc with
      | none => some c
      | some a => if c.2.length < a.2.length then some c else some a) none
    match best with
    | some (t, p) => if p.length + 4 ≤ raw.length then (fieldBits 2 2 ++ fieldBits 4 t, p) else (fieldBits 2 1, raw)
    | none => (fieldBits 2 1, raw)

/-- Encode a transformed page as a stream (R281, R283). -/
def encodeStream (m : CMap) (xform : Nat) (page : List Byte) : List Byte :=
  let ps := (toPlanes (elemBytes m.elem) page).map (encodePlane m)
  let l := fieldBits 4 1 ++ fieldBits 2 xform ++ fieldBits 2 0 ++ (ps.map (·.1)).flatten ++ (ps.map (·.2)).flatten
  packBytes (l.length / 8 + 1) l

/-! ### The page map (R277) -/

structure CEntry where
  sect : List Nat
  crc : Nat
  len : Nat
  kind : Nat
  xform : Nat
deriving DecidableEq, Repr

def CEntry.zeroE : CEntry := { sect := [], crc := 0, len := 0, kind := 0, xform := 0 }
def CEntry.lostE : CEntry := { sect := [], crc := 0, len := 0, kind := 3, xform := 0 }

def CEntry.ofNat (x : Nat) : CEntry :=
  { sect := (List.range (Nat.min (bits x 79 76) 8)).map (fun k => bits x (32 * k + 287) (32 * k + 256)),
    crc := bits x 127 96, len := bits x 95 83, kind := bits x 75 74, xform := bits x 73 73 }

def CEntry.toNat (e : CEntry) : Nat :=
  fields ([(96, e.crc), (83, e.len), (76, e.sect.length), (74, e.kind), (73, e.xform)] ++
    e.sect.zipIdx.map (fun x => (256 + 32 * x.2, x.1)))

def CMap.entryAddr (m : CMap) (v : Nat) : Nat := m.entryDa + 64 * v
def CMap.pages (m : CMap) : Nat := 16 * m.count
def CMap.covers (m : CMap) (da : Nat) : Bool := decide (m.da ≤ da) && decide (da < m.da + m.count * 0x10000)
def Block.mapOf (b : Block) (da : Nat) : Option CMap := b.codec.maps.find? (fun m => m.covers da)
def Block.mapNum (b : Block) (n : Nat) : Option CMap := b.codec.maps.find? (fun m => m.num = n)
def Block.entry (b : Block) (m : CMap) (v : Nat) : CEntry := CEntry.ofNat (b.rd (m.entryAddr v) 64)
def Block.setEntry (m : CMap) (v : Nat) (e : CEntry) (b : Block) : Block :=
  { b with codec.touched := b.codec.touched.set false (pageOf (m.da + 4096 * v)) true }.memWrite (m.entryAddr v)
    (leBytes 64 e.toNat)

/-- The codec that serves a page (R271). -/
def CMap.codecOf (m : CMap) (v : Nat) : Nat := ((if m.fs = 0 then v else v % m.fs) + m.num) % 24

/-- Stream bytes of an entry, from its sectors. -/
def Block.sectors (b : Block) (e : CEntry) : List Byte :=
  ((e.sect.map (fun s => b.peek (512 * s) 512)).flatten).take e.len

/-- A DA of the entry or of a sector that cannot be read. -/
def Block.entryBad (b : Block) (m : CMap) (v : Nat) : Option Nat :=
  match b.badWord (m.entryAddr v) 64 with
  | some w => some (16 * w)
  | none => ((b.entry m v).sect.filterMap (fun s => b.badWord (512 * s) 512)).head?.map (16 * ·)

/-- What an access through the memory system gives: bytes (and whether a correction was made), or a status with
DETAIL and the DA. -/
inductive Acc where
  | ok (bs : List Byte) (corrected : Bool)
  | fail (status detail da : Nat)
deriving DecidableEq, Repr

def zeros (n : Nat) : List Byte := List.replicate n 0

/-- Stored content of a page, along its reference chain (R280, R282, R284). -/
def Block.stored (b : Block) (m : CMap) : Nat → Nat → Acc
  | 0, v => .fail Status.codecStreamBad 1 (m.da + 4096 * v)
  | fuel + 1, v =>
    let da := m.da + 4096 * v
    match b.entryBad m v with
    | some x => .fail Status.memUncorrectable 0 x
    | none =>
      let e := b.entry m v
      match e.kind with
      | 0 => .ok (zeros 4096) false
      | 3 => .fail Status.codecStreamBad 3 da
      | 2 =>
        let bs := b.sectors e
        if crc32c bs = e.crc then .ok bs false else .fail Status.codecStreamBad 2 da
      | _ =>
        match decodeStream m (b.sectors e) with
        | none => .fail Status.codecStreamBad 1 da
        | some (xf, page) =>
          if xf ≠ e.xform then .fail Status.codecStreamBad 1 da
          else
            let full : Acc :=
              if xf = 1 then
                match b.stored m fuel (v - m.fs) with
                | .ok r _ => .ok (xorBytes page r) false
                | x => x
              else .ok page false
            match full with
            | .ok bs _ => if crc32c bs = e.crc then .ok bs false else .fail Status.codecStreamBad 2 da
            | x => x

def Block.storedPage (b : Block) (m : CMap) (v : Nat) : Acc := b.stored m 64 v

/-! ### Quantisation (R286) -/

def elemFmt (elem : Nat) : Fmt := if elem = 1 then fp32 else if elem = 2 then bf16 else fp16

/-- q(x) on one element code. -/
def quant (elem m : Nat) (floor : Int) (code : Nat) : Nat :=
  let f := elemFmt elem
  match f.decode code with
  | .fin neg n e =>
    let d : Dy := ⟨n, e⟩
    if n = 0 ∨ d.lt ⟨1, floor⟩ then f.sign neg 0
    else
      let ex := d.floorLog2
      let r := d.roundSig (m + 1)
      if (f.maxfinite).lt r then
        -- toward zero
        f.sign neg ((f.encFin false (n * 2 ^ (e - (min e (ex - m))).toNat / 2 ^ ((ex - m) - (min e (ex - m))).toNat)
          (ex - m)).1)
      else f.sign neg ((f.encFin false r.n.natAbs r.e).1)
  | _ => code

/-- Quantise bytes, element by element, in a BOUNDED view. -/
def CMap.quantise (m : CMap) (bs : List Byte) : List Byte :=
  if m.mode ≠ 2 then bs else
  let w := elemBytes m.elem
  ((List.range (bs.length / w)).map (fun i =>
    leBytes w (quant m.elem m.m m.floor (leNat ((bs.drop (i * w)).take w))))).flatten

/-! ### Open pages (R278) -/

def Block.openSlot (b : Block) (m : CMap) (v : Nat) : Option Slot :=
  b.codec.slots.find? (fun s => s.map = m.num && s.page = v)

/-- Content of an open page: what was written over what is stored. -/
def Block.openContent (b : Block) (m : CMap) (s : Slot) : Acc :=
  if s.grans = 2 ^ 64 - 1 then .ok ((List.range 4096).map (fun i => (s.ovr.get none i).getD 0)) false
  else
    match b.storedPage m s.page with
    | .ok bs c => .ok (bs.zipIdx.map (fun x => (s.ovr.get none x.2).getD x.1)) c
    | x => x

/-- Uncompressed content of a page as a reader sees it. -/
def Block.pageContent (b : Block) (m : CMap) (v : Nat) : Acc :=
  match b.openSlot m v with
  | some s => b.openContent m s
  | none => b.storedPage m v

/-- Sectors in use by a map's entries. -/
def Block.usedSectors (b : Block) (m : CMap) : List Nat :=
  ((List.range m.pages).map (fun v => (b.entry m v).sect)).flatten

/-- A sector homed on a FENCED pseudo-channel has left its pool (R291). -/
def Block.sectorLive (b : Block) (s : Nat) : Bool := (b.mem.pcs.get Pc.zero (b.home (512 * s)).1).st ≠ .fenced

/-- Free sectors of a pool, lowest first. -/
def Block.freeSectors (b : Block) (m : CMap) : List Nat :=
  let used := b.usedSectors m
  ((List.range (128 * m.count)).map (· + m.da / 512)).filter
    (fun s => !used.contains s && b.sectorLive s)

/-- Store a stream of a page: new sectors are the lowest free ones, then the page's own old ones (R278). None when
they do not suffice. -/
def Block.storeStream (m : CMap) (v kind xform crc : Nat) (stream : List Byte) (own : List Nat) (b : Block) :
    Option Block :=
  let n := ceilDiv stream.length 512
  let pool := b.freeSectors m ++ (own.filter b.sectorLive)
  if pool.length < n then none
  else
    let ss := pool.take n
    let b := ss.zipIdx.foldl (fun b x =>
      let part := (stream.drop (512 * x.2)).take 512
      b.memWrite (512 * x.1) (part ++ zeros (512 - part.length))) b
    some (b.setEntry m v { sect := ss, crc := crc, len := stream.length, kind := kind, xform := xform })

/-- The reference page of v where R284 codes it against one. -/
def Block.refOf (b : Block) (m : CMap) (v : Nat) : Option Nat :=
  if m.fs ≠ 0 ∧ m.fs ≤ v ∧ (v / m.fs) % m.key ≠ 0 ∧ (b.entry m (v - m.fs)).kind ≠ 3 then some (v - m.fs) else none

/-- Store a page with given content against a reference content (R283); none when sectors do not suffice. -/
def Block.tryPut (m : CMap) (v : Nat) (content : List Byte) (ref : Option (List Byte)) (b : Block) : Option Block :=
  let own := (b.entry m v).sect
  if content.all (· = 0) then some (b.setEntry m v CEntry.zeroE)
  else
    let xf := if ref.isSome then 1 else 0
    let s := encodeStream m xf (match ref with | some r => xorBytes content r | none => content)
    let crc := crc32c content
    if 3584 < s.length then b.storeStream m v 2 0 crc content own else b.storeStream m v 1 xf crc s own

/-- Is the next page of a chain coded against this one (R284)? -/
def Block.hasDep (b : Block) (m : CMap) (v : Nat) : Bool :=
  m.fs ≠ 0 && decide (v + m.fs < m.pages) && (b.entry m (v + m.fs)).kind = 1 && (b.entry m (v + m.fs)).xform = 1

/-- A page becomes LOST and its sectors are freed; before that its dependent is encoded intra, or is lost too where it cannot
be (R291, R285). -/
def Block.loseGo (m : CMap) : Nat → Nat → Block → Block
  | 0, v, b => b.setEntry m v CEntry.lostE
  | fuel + 1, v, b =>
    if !b.hasDep m v then b.setEntry m v CEntry.lostE
    else
      match b.storedPage m (v + m.fs) with
      | .ok cd _ =>
        match (b.setEntry m v CEntry.lostE).tryPut m (v + m.fs) cd none with
        | some b => b
        | none => (b.loseGo m fuel (v + m.fs)).setEntry m v CEntry.lostE
      | .fail _ _ _ => (b.loseGo m fuel (v + m.fs)).setEntry m v CEntry.lostE

def Block.losePage (m : CMap) (v : Nat) (b : Block) : Block := b.loseGo m 64 v

/-- The error record of a page lost for want of sectors names map and page (R291). -/
def Block.logLost (m : CMap) (v : Nat) (b : Block) : Block := b.logError Status.codecSpaceFull 3 (m.codecOf v) m.num v

/-- A decode inside the codec met an uncorrectable word (R259). -/
def Block.decodeFault (st da : Nat) (b : Block) : Block := if st = Status.memUncorrectable then b.memFault (da / 16) else b

/-- Encode a page with given content against a reference content and store it (R283). The second part is the status
that the command causing it acquires, if any. -/
def Block.putPage (m : CMap) (v : Nat) (content : List Byte) (ref : Option (List Byte)) (b : Block) :
    Block × Option Nat :=
  match b.tryPut m v content ref with
  | some b => (b, none)
  | none => ((b.losePage m v).logLost m v, some Status.codecSpaceFull)

/-- Re-encode the dependent of v before v changes or goes (R285): decoded against v's old content, encoded against
`newRef` (none: intra; so too when v became LOST). [log 57 DEDUCED] -/
def Block.reencodeDep (m : CMap) (v : Nat) (newRef : Option (List Byte)) (go : Block → Block × Option Nat) (b : Block) :
    Block × Option Nat :=
  if !b.hasDep m v then go b
  else
    match b.storedPage m (v + m.fs) with
    | .ok cd _ =>
      let r := go b
      match r.1.tryPut m (v + m.fs) cd (if (r.1.entry m v).kind = 3 then none else newRef) with
      | some b => (b, r.2)
      | none =>
        let r := go ((b.losePage m (v + m.fs)).logLost m (v + m.fs))
        (r.1, r.2.or (some Status.codecSpaceFull))
    | .fail st _ da =>
      let r := go ((b.decodeFault st da).losePage m (v + m.fs))
      (r.1, r.2.or (some st))

/-- Give a page new content: its dependent first, then its own stream (R284, R285). [log 57 DEDUCED] -/
def Block.rewritePage (m : CMap) (v : Nat) (content : List Byte) (b : Block) : Block × Option Nat :=
  b.reencodeDep m v (some content) (fun b =>
    match b.refOf m v with
    | some r =>
      match b.storedPage m r with
      | .ok rc _ => b.putPage m v content (some rc)
      | .fail st _ da => ((b.decodeFault st da).losePage m v, some st)
    | none => b.putPage m v content none)

/-- Set a page ZERO: its dependent is re-encoded intra first (R276, R285). -/
def Block.clearPage (m : CMap) (v : Nat) (e : CEntry) (b : Block) : Block × Option Nat :=
  let b := { b with codec.slots := b.codec.slots.filter (fun s => !(s.map = m.num && s.page = v)) }
  b.reencodeDep m v none (fun b => (b.setEntry m v e, none))

/-- The stored bytes that decoding a page reads: its entry and sectors, and those of its references. -/
def Block.refChain (b : Block) (m : CMap) : Nat → Nat → List (Nat × Nat)
  | 0, _ => []
  | fuel + 1, v =>
    let e := b.entry m v
    (m.entryAddr v, 64) :: e.sect.map (fun s => (512 * s, 512)) ++
      (if e.kind = 1 ∧ e.xform = 1 then b.refChain m fuel (v - m.fs) else [])

/-- Demand scrub of what decoding a page reads (R259): was a word corrected, and the block after. -/
def Block.scrubPage (m : CMap) (v : Nat) (b : Block) : Bool × Block :=
  if b.mem.errs.isEmpty then (false, b) else
  let rs := b.refChain m 64 v
  (rs.any (fun r => b.needsScrub r.1 r.2), rs.foldl (fun b r => b.scrubRange r.1 r.2) b)

/-- Close an open page (R278): encode its content and free the slot. -/
def Block.closePage (m : CMap) (s : Slot) (b : Block) : Block × Option Nat :=
  let c := b.openContent m s
  let b := { b with codec.slots := b.codec.slots.filter (fun x => !(x.map = s.map && x.page = s.page)) }
  match c with
  | .ok bs _ => (b.scrubPage m s.page).2.rewritePage m s.page bs
  | .fail st _ da => ((b.decodeFault st da).losePage m s.page, some st)

/-- May the entry and the stream of a page change now: neither its management page nor that of a dependent coded
against it is write-protected (R290)? -/
def Block.closable (b : Block) (m : CMap) (v : Nat) : Bool :=
  let d := v + m.fs
  !attrWp (b.attr (pageOf (m.da + 4096 * v))) &&
    (m.fs = 0 || decide (m.pages ≤ d) || (b.entry m d).xform = 0 || !attrWp (b.attr (pageOf (m.da + 4096 * d))))

/-- The open pages of one codec, and the one written longest ago that may close (R278). -/
def Block.codecSlots (b : Block) (c : Nat) : List Slot :=
  b.codec.slots.filter (fun s => match b.mapNum s.map with | some m' => m'.codecOf s.page = c | none => false)

/-- [log 59 DEDUCED] -/
def Block.victim (b : Block) (c : Nat) : Option Slot :=
  ((b.codecSlots c).filter (fun s =>
      match b.mapNum s.map with | some m' => b.closable m' s.page | none => true)).foldl
    (fun (a : Option Slot) s =>
      match a with
      | none => some s
      | some x => if s.age < x.age ∨ (s.age = x.age ∧ s.page < x.page) then some s else some x) none

/-- Open a page for writing, closing the slot written longest ago when the codec has no free one (R278). [log 59 DEDUCED] -/
def Block.openPage (m : CMap) (v : Nat) (b : Block) : Block × Option Nat :=
  match b.openSlot m v with
  | some _ => (b, none)
  | none =>
    let r : Block × Option Nat :=
      if (b.codecSlots (m.codecOf v)).length < 64 then (b, none)
      else
        match b.victim (m.codecOf v) with
        | some s => (match b.mapNum s.map with | some m' => b.closePage m' s | none => (b, none))
        | none => (b, none)
    let b := r.1
    ({ b with codec.slots := b.codec.slots ++ [{ map := m.num, page := v, grans := 0, ovr := [], age := b.codec.clock }] },
     r.2)

/-- Write bytes into one codec page at an offset (R278, R286); all 64 granules written closes it. -/
def Block.pageWrite (m : CMap) (v off : Nat) (bs : List Byte) (b : Block) : Block × Option Nat :=
  let r := b.openPage m v
  let b := r.1
  match b.openSlot m v with
  | none => r
  | some s =>
    let g0 := off / 64
    let g1 := (off + bs.length - 1) / 64
    let ovr := bs.zipIdx.foldl (fun o x => o.set none (off + x.2) (some x.1)) s.ovr
    let s1 := { s with ovr := ovr, age := b.codec.clock + 1 }
    -- a BOUNDED view quantises every granule that enters the slot, after the merge
    let s2 :=
      if m.mode ≠ 2 then s1 else
      match b.openContent m s1 with
      | .ok page _ =>
        let lo := 64 * g0
        let q := m.quantise ((page.drop lo).take (64 * (g1 + 1 - g0)))
        { s1 with ovr := q.zipIdx.foldl (fun o x => o.set none (lo + x.2) (some x.1)) s1.ovr }
      | .fail _ _ _ =>
        let q := m.quantise bs
        { s1 with ovr := q.zipIdx.foldl (fun o x => o.set none (off + x.2) (some x.1)) s1.ovr }
    let gr := (List.range (g1 + 1 - g0)).foldl (fun a i => a ||| 2 ^ (g0 + i)) s2.grans
    let s3 := { s2 with grans := gr }
    let b := { b with codec.clock := b.codec.clock + 1,
                      codec.slots := b.codec.slots.map (fun x => if x.map = s.map ∧ x.page = s.page then s3 else x) }
    if gr = 2 ^ 64 - 1 && b.closable m v then
      let r2 := b.closePage m s3
      (r2.1, r.2.or r2.2)
    else (b, r.2)

/-! ### The path of every local access (R270) -/

/-- A range cut at 4 KiB boundaries: (DA, length) pieces. -/
def chunks : Nat → Nat → Nat → List (Nat × Nat)
  | 0, _, _ => []
  | fuel + 1, da, n =>
    if n = 0 then [] else
    let k := Nat.min n (4096 - da % 4096)
    (da, k) :: chunks fuel (da + k) (n - k)

def chunksOf (da n : Nat) : List (Nat × Nat) := chunks (n / 4096 + 2) da n

/-- Read one piece: through a view, or from memory (R259, R270). -/
def Block.pieceRead (da n : Nat) (b : Block) : Acc × Block :=
  match (if attrCodec (b.attr (pageOf da)) && decide (da < 0x20000000000) then b.mapOf da else none) with
  | some m =>
    let v := (da - m.da) / 4096
    match b.pageContent m v with
    | .ok bs _ =>
      let r := b.scrubPage m v
      (.ok ((bs.drop (da % 4096)).take n) r.1, r.2)
    | .fail st d x => (.fail st d x, b.decodeFault st x)
  | none =>
    match b.memRead da n with
    | (.data bs c, b) => (.ok bs c, b)
    | (.bad x, b) => (.fail Status.memUncorrectable 0 x, b)

/-- Read populated local bytes: HBM (with views) or tile store; the first failure ends it (R23). -/
def Block.daRead (da n : Nat) (b : Block) : Acc × Block :=
  if !localPopulated da n then (.fail Status.addrUnmapped 0 da, b) else
  (chunksOf da n).foldl (fun (acc : Acc × Block) c =>
    match acc.1 with
    | .ok bs k =>
      match acc.2.pieceRead c.1 c.2 with
      | (.ok x k2, b) => (.ok (bs ++ x) (k || k2), b)
      | (f, b) => (f, b)
    | _ => acc) (.ok [] false, b)

/-- A range cut at granules: (DA, length) pieces. -/
def granulesOf (da n : Nat) : List (Nat × Nat) :=
  (List.range ((da + n + 2047) / 2048 - da / 2048)).map (fun i =>
    let x := Nat.max da (2048 * (da / 2048 + i))
    (x, Nat.min (da + n) (2048 * (da / 2048 + i) + 2048) - x))

/-- Write stacked memory granule by granule: what is homed on a FENCED pseudo-channel is dropped (R262). -/
def Block.hbmWrite (da : Nat) (bs : List Byte) (b : Block) : Block × Option Nat :=
  if b.mem.pcs.all (fun e => e.2.st ≠ .fenced) then (b.memWrite da bs, none)
  else (granulesOf da bs.length).foldl (fun (acc : Block × Option Nat) g =>
    if (acc.1.mem.pcs.get Pc.zero (acc.1.home g.1).1).st = .fenced then (acc.1, some Status.memUncorrectable)
    else (acc.1.memWrite g.1 ((bs.drop (g.1 - da)).take g.2), acc.2)) (b, none)

/-- Write one piece. -/
def Block.pieceWrite (da : Nat) (bs : List Byte) (b : Block) : Block × Option Nat :=
  match (if attrCodec (b.attr (pageOf da)) && decide (da < 0x20000000000) then b.mapOf da else none) with
  | some m => b.pageWrite m ((da - m.da) / 4096) (da % 4096) bs
  | none => if da < 0x20000000000 then b.hbmWrite da bs else (b.memWrite da bs, none)

/-- The codec pages that a tier command holds against reads, or against writes: an OFFLOAD with RELEASE against writes, a
PREFETCH against both (R299, R300): map, first page, count. -/
def Cmd.tierHold (c : Cmd) (wr : Bool) : Option (Nat × Nat × Nat) :=
  match c.work with
  | .tier w =>
    if w.phase ≠ .queued && (c.pkt.opcode = 0x0602 || (c.pkt.opcode = 0x0601 && bit c.pkt.pnum 161 && wr)) then
      some (c.pkt.f 175 170, c.pkt.f 239 208, c.pkt.f 207 176) else none
  | _ => none

/-- Is a byte of a range held by a tier command? -/
def Block.tierHeld (b : Block) (wr : Bool) (da n : Nat) : Bool :=
  b.mer.running.any (fun c =>
    match c.tierHold wr with
    | some (k, first, count) =>
      match b.mapNum k with
      | some m => decide (m.da + 4096 * first < da + n) && decide (da < m.da + 4096 * (first + count))
      | none => false
    | none => false)

/-- Must a read wait for a PREFETCH that holds its pages (R300)? -/
def Block.readWaits (b : Block) (da n : Nat) : Bool := b.tierHeld false da n

/-- Must a write wait: an ordinary page is write-protected (R384), a codec has no slot it may close (R290), or a tier command
holds the pages (R299, R300)? [log 56 DEDUCED] -/
def Block.writeWaits (b : Block) (da n : Nat) : Bool :=
  b.tierHeld true da n || decide (da < 0x20000000000) && (chunksOf da n).any (fun c =>
    let a := b.attr (pageOf c.1)
    if attrCodec a then
      match b.mapOf c.1 with
      | some m =>
        let v := (c.1 - m.da) / 4096
        (b.openSlot m v).isNone && decide (64 ≤ (b.codecSlots (m.codecOf v)).length) &&
          (b.victim (m.codecOf v)).isNone
      | none => attrWp a
    else attrWp a)

/-- Write populated local bytes through the memory system; the status is the first a piece caused (R291, R262). The
caller has dealt with WP, Shutter and CLASS 4. -/
def Block.daWrite (da : Nat) (bs : List Byte) (b : Block) : Block × Option Nat :=
  (chunksOf da bs.length).foldl (fun (acc : Block × Option Nat) c =>
    let r := acc.1.pieceWrite c.1 ((bs.drop (c.1 - da)).take c.2)
    (r.1, acc.2.or r.2)) (b, none)

end Sys2Proof.Machine
end

