-- ==== Sys2Proof/Machine/TileRead.lean ====
section
/-!
DEFINITION. Tile-store reads by a tile's ports (R137, R138, R147).
-/

namespace Sys2Proof.Machine

/-- The newest in-flight value of a byte, if some write to it is not yet visible. -/
def Tile.flying (x : Tile) (addr : Nat) : Option Byte :=
  (x.flight.reverse.find? (fun f => decide (f.addr ≤ addr) && decide (addr < f.addr + f.bytes.length))).bind
    (fun f => f.bytes[addr - f.addr]?)

/-- Is a byte in a granule that a LOAD has issued and not yet counted (R144)? Until it is counted the byte may read as its
old or its new value (R138). [log 31 DEDUCED] -/
def Tile.loading (x : Tile) (addr : Nat) : Bool :=
  x.moves.any (fun m => m.load && decide (m.ts ≤ addr) && decide (addr < m.ts + 64 * (m.rowGran * m.rows)) &&
    !m.done.contains ((addr - m.ts) / 64))

/-- Does a range hold a byte that is written or being loaded and not yet visible? -/
def Tile.unsettled (x : Tile) (addr n : Nat) : Bool :=
  x.flight.any (fun f => decide (f.addr < addr + n) && decide (addr < f.addr + f.bytes.length)) ||
  x.moves.any (fun m => m.load && decide (m.ts < addr + n) && decide (addr < m.ts + 64 * (m.rowGran * m.rows)))

/-- A byte of a read that finds it unsettled: the old or the new value by a free bit; a byte still being loaded is free.
[log 31 DEDUCED] -/
def Tile.maybe (x : Tile) (coin : Nat) (addr : Nat) (old : Byte) : Byte :=
  match x.flying addr with
  | some w => if bit (Config.freeValue (coin + addr)) 0 then w else old
  | none => if x.loading addr then BitVec.ofNat 8 (Config.freeValue (coin + addr)) else old

/-- A tile-store read by a port of the tile: bytes, or none on an uncorrectable word. A corrected word freezes the tile
for 2 cycles (R147). A byte that is written and not yet visible reads as its old or its new value, by a free value
(R138). -/
def Block.tsRead (t addr n : Nat) (b : Block) : Option (List Byte) × Block :=
  let x := b.tile t
  match b.memRead (tileDa t + addr) n with
  | (.bad _, b) => (none, b)
  | (.data bs corrected, b) =>
    let b := if corrected then
        (b.onTile t (fun x => { x with frozen := x.frozen + 2 })).logError Status.memCorrected 1 t 0 (tileDa t + addr)
      else b
    if x.unsettled addr n then
      let f := b.free 32
      (some (bs.zipIdx.map (fun y => x.maybe f.1 (addr + y.2) y.1)), f.2)
    else (some bs, b)

/-- A read by a fixed port (R137). [log 31 DEDUCED] -/
def Block.portRead (t port addr n : Nat) (b : Block) : Option (List Byte) × Block :=
  (b.onTile t (Tile.touch port addr n false)).tsRead t addr n

end Sys2Proof.Machine
end

