-- ==== Sys2Proof/Machine/Cube.lean ====
section
/-!
DEFINITION. The cube array (spec/05): operand streams, exact block partials and the 48-bit accumulator, the
accumulation-group states, drains, transient faults, reruns and the spare row.
-/

namespace Sys2Proof.Machine

/-! ### Pairs and classes (R110) -/

/-- The class of an operand slot: 4 block-scaled of width ≤ 4, 8 block-scaled of width 5–8, 1 BF16, 2 FP16, 0 none. -/
def Block.operandKind (b : Block) (slot : Nat) : Nat :=
  if slot = 1 then 1 else if slot = 2 then 2
  else if b.isBlockSlot slot then (if (b.fmt slot).width ≤ 4 then 4 else 8) else 0

/-- The step depth d of a pair, and the slot to raise to for the 16-bit class (0 for the narrow classes); none where
the array refuses the pair (R110, R111). -/
def Block.pairClass (b : Block) (sa sb : Nat) : Option (Nat × Nat) :=
  match b.operandKind sa, b.operandKind sb with
  | 4, 4 => some (16, 0)
  | 4, 8 => some (8, 0)
  | 8, 4 => some (8, 0)
  | 8, 8 => some (8, 0)
  | 1, 1 => some (4, 1)
  | 2, 2 => some (4, 2)
  | 1, 4 => some (4, 1)
  | 1, 8 => some (4, 1)
  | 4, 1 => some (4, 1)
  | 8, 1 => some (4, 1)
  | 2, 4 => some (4, 2)
  | 2, 8 => some (4, 2)
  | 4, 2 => some (4, 2)
  | 8, 2 => some (4, 2)
  | _, _ => none

/-! ### Stream descriptors (R112 to R114) -/

structure Osr where
  klen : Nat
  stride : Nat
  scaleCode : Nat
  scaleAddr : Nat
  elem : Nat
  slot : Nat
  transpose : Bool
  uniform : Bool
  reserved : Bool
deriving DecidableEq, Repr

def Osr.of (x : Nat) : Osr :=
  { klen := bits x 119 96, stride := bits x 95 80, scaleCode := bits x 79 72, scaleAddr := bits x 63 40,
    elem := bits x 39 16, slot := bits x 15 11, transpose := bit x 10, uniform := bit x 9,
    reserved := bits x 127 120 ≠ 0 || bits x 71 64 ≠ 0 || bits x 8 0 ≠ 0 }

/-- Bits of one stored element. -/
def Block.elemBits (b : Block) (slot : Nat) : Nat := (b.fmt slot).width

/-- The stream's rows and scale plane lie inside the populated store; `n` is 96 for A and 64 for B (R114). -/
def Block.osrFits (b : Block) (o : Osr) (n : Nat) : Bool :=
  let w := b.elemBits o.slot
  let rows := if o.transpose then o.klen else n
  let len := ceilDiv ((if o.transpose then n else o.klen) * w) 8
  decide (o.elem + 32 * o.stride * (rows - 1) + len ≤ tileBytes) &&
    (!b.isBlockSlot o.slot || o.uniform || decide (o.scaleAddr + n * (o.klen / 32) ≤ tileBytes))

/-- The checks of one stream of a group: a multiple of d, and of 32 where block-scaled, alignment, place, uniform
scale where transposed, reserved fields zero (R114). -/
def Block.osrOk (b : Block) (o : Osr) (n d : Nat) : Bool :=
  decide (o.klen ≠ 0) && decide (o.klen % d = 0) && (!b.isBlockSlot o.slot || decide (o.klen % 32 = 0)) &&
    decide (o.elem % 32 = 0) && b.osrFits o n && !o.reserved &&
    (!b.isBlockSlot o.slot || !o.transpose || o.uniform) && (!o.uniform || decide (o.scaleCode ≠ 0xFF))

/-- The check a group makes when it opens: none, or the fault cause (R114, R135). -/
def Block.openCheck (b : Block) (oa ob : Osr) : Option Nat :=
  match b.pairClass oa.slot ob.slot with
  | none => some 0x15
  | some (d, _) =>
    if oa.klen = ob.klen && b.osrOk oa 96 d && b.osrOk ob 64 d then none else some 0x16

/-! ### Operands of one step -/

/-- Bytes a stream reads in a step of d values from k: element bytes by row, and scale bytes by row. -/
def Block.osrRowAddr (o : Osr) (w row k : Nat) : Nat × Nat :=
  -- byte address and bit offset of element (row, k)
  let i := if o.transpose then row else k
  let r := if o.transpose then k else row
  (o.elem + 32 * o.stride * r + i * w / 8, i * w % 8)

/-- The codes of element (row, k … k + d − 1) of a stream, read from a store image. -/
def osrCodes (rd : Nat → Nat) (o : Osr) (w row k d : Nat) : List Nat :=
  (List.range d).map (fun j =>
    let a := Block.osrRowAddr o w row (k + j)
    bits (rd a.1 + 256 * rd (a.1 + 1)) (a.2 + w - 1) a.2)

/-- The scale code of a row's block at k. -/
def osrScale (rd : Nat → Nat) (o : Osr) (row k : Nat) : Nat :=
  if o.uniform then o.scaleCode else rd (o.scaleAddr + row * (o.klen / 32) + k / 32)

/-- Raise a block-scaled value to a 16-bit format (R111): the value and whether it saturated. -/
def raiseTo (f : Fmt) (v : FV) : FV × Bool :=
  match v with
  | .fin neg m e =>
    if (f.maxfinite).lt (⟨m, e⟩ : Dy) then (f.decode (f.maxCode neg), true)
    else (f.round (.fin neg m e), false)
  | v => (v, false)

/-! ### Accumulation (R115 to R118) -/

/-- Two special states together: NaN wins, opposite infinities make NaN. -/
def spJoin (a c : Nat) : Nat :=
  if a = 0 then c else if c = 0 then a else if a = c then a else 1

/-- The special contribution of a product (R118). -/
def spMul (x y : FV) : Nat :=
  match x.mul y with
  | .nan => 1
  | .inf false => 2
  | .inf true => 3
  | .fin _ _ _ => 0

def Cell.zero : Cell := { sp := 0, n := 0, e := 0, part := 0, bsp := 0 }

/-- Add an exact finite term with one round48 (R116). -/
def Cell.addFin (c : Cell) (v : Dy) : Cell :=
  if c.sp ≠ 0 then c else
  let r := round48 ((⟨c.n, c.e⟩ : Dy).add v)
  { c with n := r.n, e := r.e }

/-- The integer of an element in units of its format's quantum (R115). -/
def quanta (f : Fmt) (v : FV) : Int :=
  let q : Int := if f.kind = 2 then -(f.bias : Int) else 1 - (f.bias : Int) - f.mw
  shl v.dy.n (v.dy.e - q)

def quantExp (f : Fmt) : Int := if f.kind = 2 then -(f.bias : Int) else 1 - (f.bias : Int) - f.mw

/-- One step of a narrow class on one cell: products enter the block partial; at the block's end the partial, scaled,
is added with one rounding (R115, R116, R118). -/
def Cell.narrow (fa fb : Fmt) (c : Cell) (as bs : List FV) (sa sb : Nat) (endBlock : Bool) : Cell :=
  let ps := as.zip bs
  let bsp := ps.foldl (fun s p => spJoin s (spMul p.1 p.2)) c.bsp
  let part := ps.foldl (fun s p =>
    if p.1.isFin && p.2.isFin then s + quanta fa p.1 * quanta fb p.2 else s) c.part
  if !endBlock then { c with part := part, bsp := bsp }
  else
    match e8m0 sa, e8m0 sb with
    | some xa, some xb =>
      let sp := spJoin c.sp bsp
      if sp ≠ 0 then { sp := sp, n := 0, e := 0, part := 0, bsp := 0 }
      else
        let c1 := c.addFin ⟨part, quantExp fa + quantExp fb + xa + xb⟩
        { c1 with part := 0, bsp := 0 }
    | _, _ => { sp := 1, n := 0, e := 0, part := 0, bsp := 0 }

/-- One step of the 16-bit class on one cell: one rounding for each product, in increasing k (R117, R118). -/
def Cell.wide (c : Cell) (as bs : List FV) : Cell :=
  (as.zip bs).foldl (fun c p =>
    let s := spMul p.1 p.2
    if s ≠ 0 then { c with sp := spJoin c.sp s, n := 0, e := 0 }
    else c.addFin (p.1.dy.mul p.2.dy)) c

/-- The codes of elements k … k + d − 1 of every row of a stream of n rows. -/
def operandCodes (rd : Nat → Nat) (o : Osr) (w n k d : Nat) : List (List Nat) :=
  (List.range n).map (fun row => osrCodes rd o w row k d)

/-- One step on all cells of a group, from its operands' codes and, through `rd`, its scales: the new cells, and the raised
values that saturated (R111). -/
def Block.stepCells (b : Block) (rd : Nat → Nat) (oa ob : Osr) (ca cb : List (List Nat)) (k : Nat) (cells : List Cell) :
    List Cell × Nat :=
  match b.pairClass oa.slot ob.slot with
  | none => (cells, 0)
  | some (d, raise) =>
    let fa := b.fmt oa.slot
    let fb := b.fmt ob.slot
    let line (o : Osr) (f : Fmt) (cs : List Nat × Nat) : List FV × Nat × Nat :=
      let codes := cs.1
      let row := cs.2
      if b.isBlockSlot o.slot then
        let sc := osrScale rd o row k
        if raise = 0 then (codes.map f.decode, sc, 0)
        else
          let rs := codes.map (fun c => raiseTo (b.fmt raise) (decBlockElem f sc c))
          (rs.map (·.1), sc, (rs.filter (·.2)).length)
      else (codes.map f.decode, 127, 0)
    let as := ca.zipIdx.map (line oa fa)
    let bs := cb.zipIdx.map (line ob fb)
    let fin := decide ((k + d) % 32 = 0)
    let new := (as.zip ((List.range 96).map (fun r => (cells.drop (64 * r)).take 64))).map (fun (a, row) =>
      (bs.zip row).map (fun (x, c) =>
        if raise = 0 then c.narrow fa fb a.1 x.1 a.2.1 x.2.1 fin else c.wide a.1 x.1))
    (new.flatten, (as ++ bs).foldl (fun s l => s + l.2.2) 0)

/-- A byte of the tile store as a port of the tile reads it now, without effect. -/
def Block.tsPeek (b : Block) (t addr : Nat) : Nat := (b.mem.bytes.get 0 (tileDa t + addr)).toNat

/-- Byte ranges a step reads, for the Plate-code check (R130, R147). -/
def Block.stepRanges (b : Block) (o : Osr) (n k d : Nat) : List (Nat × Nat) :=
  let w := b.elemBits o.slot
  let el := if o.transpose then (List.range d).map (fun j => (o.elem + 32 * o.stride * (k + j), ceilDiv (n * w) 8))
    else (List.range n).map (fun r => (o.elem + 32 * o.stride * r + k * w / 8, ceilDiv (d * w) 8))
  let sc := if b.isBlockSlot o.slot && !o.uniform then
      (List.range n).map (fun r => (o.scaleAddr + r * (o.klen / 32) + k / 32, 1)) else []
  el ++ sc

/-- Does a step at k use the second half of an 8 × 8 block that the step before it read (R138)? [log 147 DEDUCED] -/
def Osr.secondHalf (o : Osr) (k d : Nat) : Bool := o.transpose && decide (d = 4) && decide (k % 8 = 4)

/-- How many values of k the first step of a block reads: a transposed stream with d = 4 reads the 8 × 8 block whole, as far as
the stream goes (R138). -/
def Osr.readDepth (o : Osr) (k d : Nat) : Nat := if o.transpose && d = 4 then Nat.min 8 (o.klen - k) else d

/-- Ranges a step reads of a stream: none where the codes were read with the step before. -/
def Block.readRanges (b : Block) (o : Osr) (n k d : Nat) : List (Nat × Nat) :=
  if o.secondHalf k d then [] else b.stepRanges o n k (o.readDepth k d)

/-- The codes a step uses, and those it keeps for the next. [log 147 DEDUCED] -/
def Block.stepCodes (b : Block) (rd : Nat → Nat) (o : Osr) (n k d : Nat) (kept : List (List Nat)) :
    List (List Nat) × List (List Nat) :=
  let w := b.elemBits o.slot
  if o.secondHalf k d then (kept, [])
  else
    (operandCodes rd o w n k d,
     if o.readDepth k d = 8 && d = 4 then operandCodes rd o w n (k + 4) 4 else [])

/-- Apply one step of an open group: reads its operands now (R138), adds, moves k on; SETTLE when the stream ends
(R120). An uncorrectable operand faults the program (R130). -/
def Block.applyStep (t g : Nat) (gr : Group) (b : Block) : Block :=
  let oa := Osr.of gr.osrA
  let ob := Osr.of gr.osrB
  match b.pairClass oa.slot ob.slot with
  | none => b.progFault t 0x15 g none
  | some (d, _) =>
    let ranges := b.readRanges oa 96 gr.k d ++ b.readRanges ob 64 gr.k d
    if !b.allClean && ranges.any (fun r => (b.badWord (tileDa t + r.1) r.2).isSome) then b.progFault t 0x17 g none
    else
      let x := b.tile t
      -- a byte not yet visible reads as its old or its new value (R138)
      let ovr := ranges.any (fun r => x.unsettled r.1 r.2)
      let f := if ovr then b.free 32 else (0, b)
      let b := f.2
      let rd (a : Nat) : Nat := if ovr then (x.maybe f.1 a (BitVec.ofNat 8 (b.tsPeek t a))).toNat else b.tsPeek t a
      let ca := b.stepCodes rd oa 96 gr.k d gr.keptA
      let cb := b.stepCodes rd ob 64 gr.k d gr.keptB
      let r := b.stepCells rd oa ob ca.1 cb.1 gr.k gr.cells
      let k := gr.k + d
      let g1 := { gr with k := k, last := x.cyc, cells := r.1, sat := gr.sat + r.2, keptA := ca.2, keptB := cb.2,
                          state := if oa.klen ≤ k then .settle else .accum }
      b.onTile t (fun x => ranges.foldl (fun x r => x.touch 0 r.1 r.2 false) (x.setGroup g g1))

/-- A STEP of group g (R120). -/
def Block.cubeStep (t g : Nat) (first : Bool) (b : Block) : Block :=
  let x := b.tile t
  let gr := x.group g
  match gr.state, first with
  | .closed, true =>
    if decide (x.cyc < x.dregAt.get 0 (16 + g)) || decide (x.cyc < x.dregAt.get 0 (20 + g)) then b.progFault t 0x03 0 none
    else
      let oa := Osr.of (x.dreg (16 + g))
      let ob := Osr.of (x.dreg (20 + g))
      match b.openCheck oa ob with
      | some cause => b.progFault t cause g none
      | none => b.applyStep t g { Group.closedG with
          state := .accum, osrA := x.dreg (16 + g), osrB := x.dreg (20 + g), cells := List.replicate 6144 Cell.zero }
  | .closed, false => b.progFault t 0x10 g none
  | .accum, false => b.applyStep t g gr
  | .accum, true => b.progFault t 0x11 g none
  | .settle, true => b.progFault t 0x11 g none
  | .ready, true => b.progFault t 0x11 g none
  | .settle, false => b.progFault t 0x14 g none
  | .ready, false => b.progFault t 0x14 g none
  | .rerun, _ => b

/-! ### Drain (R119, R123 to R127) -/

structure Odr where
  tensorScale : Nat
  census : Nat
  stride : Nat
  scaleAddr : Nat
  elem : Nat
  merge : Nat
  slot : Nat
  rule : Nat
  mode : Nat
  reserved : Bool
deriving DecidableEq, Repr

def Odr.of (x : Nat) : Odr :=
  { tensorScale := bits x 127 120, census := bits x 119 112, stride := bits x 111 96, scaleAddr := bits x 87 64,
    elem := bits x 63 40, merge := bits x 39 16, slot := bits x 15 11, rule := bits x 10 9, mode := bits x 8 7,
    reserved := bits x 95 88 ≠ 0 || bits x 6 0 ≠ 0 }

/-- [log 34 DEDUCED] -/
def Odr.raw (o : Odr) : Bool := o.mode = 1 || o.mode = 3
def Odr.merges (o : Odr) : Bool := o.mode = 2 || o.mode = 3

/-- Bytes of one output row. -/
def Block.odrRow (b : Block) (o : Odr) : Nat := if o.raw then 512 else 8 * (b.fmt o.slot).width

/-- The check a DRAIN makes when it issues (R123). -/
def Block.odrOk (b : Block) (o : Odr) : Bool :=
  decide (o.elem % 32 = 0) && decide (o.elem + 32 * o.stride * 95 + b.odrRow o ≤ tileBytes) &&
    (!o.merges || (decide (o.merge % 64 = 0) && decide (o.merge + 8 * 6144 ≤ tileBytes))) && !o.reserved &&
    decide (o.rule ≠ 3) &&
    (o.raw || (b.isOutSlot o.slot &&
      (!b.isBlockSlot o.slot ||
        (decide (o.scaleAddr + 192 ≤ tileBytes) && !(o.rule = 2 && o.tensorScale = 0xFF)))))

/-- A DRAIN of group g through ODR number r (R120, R123, R124). `busyEnd` lets one issue in the last busy cycle. -/
def Block.cubeDrain (t g r : Nat) (b : Block) : Block :=
  let x := b.tile t
  let gr := x.group g
  match gr.state with
  | .closed => b.progFault t 0x10 g none
  | .accum => b.progFault t 0x12 g none
  | .settle => b.progFault t 0x12 g none
  | .rerun => b
  | .ready =>
    if x.cyc < x.dregAt.get 0 (24 + r) then b.progFault t 0x03 0 none
    else if x.drain.isSome then b.progFault t 0x13 g none
    else
      let o := Odr.of (x.dreg (24 + r))
      if !b.odrOk o then b.progFault t 0x16 g none
      else b.setTile t { (x.setGroup g Group.closedG) with
        drain := some { odr := x.dreg (24 + r), cells := gr.cells, issued := x.cyc, sat := gr.sat, chunk := 0 } }

/-- A DISCARD of group g (R120). -/
def Block.cubeDiscard (t g : Nat) (b : Block) : Block :=
  match ((b.tile t).group g).state with
  | .rerun => b
  | _ => b.onTile t (Tile.setGroup g Group.closedG)

/-- A cell as the value it drains to (R119): zero drains as +0. -/
def Cell.fv (c : Cell) : FV :=
  match c.sp with
  | 0 => FV.ofDy false ⟨c.n, c.e⟩
  | 1 => .nan
  | 2 => .inf false
  | _ => .inf true

/-- ACC48 (R126). -/
def Cell.acc48 (c : Cell) : Nat :=
  if c.sp ≠ 0 then c.sp * 4
  else if c.n = 0 then 0
  else
    let k := nbits c.n.natAbs
    let sig := if k ≤ 48 then c.n.natAbs * 2 ^ (48 - k) else c.n.natAbs / 2 ^ (k - 48)
    fields [(63, b2n (decide (c.n < 0))), (52, (c.e + k - 1 + 1023).toNat), (4, sig)]

/-- An ACC48 entry as read (R126). -/
def acc48Read (x : Nat) : Cell :=
  let ex := bits x 62 52
  let sig := bits x 51 4
  let sp := bits x 3 2
  let bad := { Cell.zero with sp := 1 }
  if bits x 1 0 ≠ 0 then bad
  else if sp ≠ 0 then { Cell.zero with sp := sp }
  else if ex = 2047 || (ex = 0 && sig ≠ 0) || (1 ≤ ex && !bit sig 47) then bad
  else if ex = 0 then Cell.zero
  else { Cell.zero with n := if bit x 63 then -(sig : Int) else sig, e := (ex : Int) - 1023 - 47 }

/-- Merge an entry into a cell: R118, one round48, and the range of the accumulator (R127). -/
def Cell.merge (c d : Cell) : Cell :=
  let sp := spJoin c.sp d.sp
  if sp ≠ 0 then { Cell.zero with sp := sp }
  else
    let r := round48 ((⟨c.n, c.e⟩ : Dy).add ⟨d.n, d.e⟩)
    if r.n = 0 then Cell.zero
    else if 1023 < r.floorLog2 then { Cell.zero with sp := if r.n < 0 then 3 else 2 }
    else if r.floorLog2 < -1022 then Cell.zero
    else { Cell.zero with n := r.n, e := r.e }

/-- One drained row: its element bytes, its scale bytes, the classes of its elements (R119, R97). [log 34 DEDUCED] -/
def Block.drainRow (b : Block) (o : Odr) (cells : List Cell) : List Byte × List Byte × List EncClass :=
  if o.raw then
    ((cells.map (fun c => leBytes 8 c.acc48)).flatten, [],
     cells.map (fun c => if c.sp ≠ 0 then .nonfinite else if c.n = 0 then .zero else .normal))
  else
    let f := b.fmt o.slot
    let vs := cells.map Cell.fv
    if b.isBlockSlot o.slot then
      let e0 := encBlock f o.rule o.tensorScale (vs.take 32)
      let e1 := encBlock f o.rule o.tensorScale (vs.drop 32)
      (leBytes (8 * f.width) (packBits f.width (e0.codes ++ e1.codes)), leBytes 1 e0.scale ++ leBytes 1 e1.scale,
       e0.classes ++ e1.classes)
    else
      let es := vs.map f.enc
      ((es.map (fun e => leBytes (f.width / 8) e.1)).flatten, [], es.map (·.2))

/-- Output rows of one chunk: a drain writes a chunk in each busy cycle (R124). [log 34 DEDUCED] -/
def Odr.rows (o : Odr) : Nat := if o.mode = 0 then 8 else 2

/-- The last busy cycle of the drain unit, in which it becomes free (R124). -/
def Drain.until (d : Drain) : Nat := d.issued + 96 / (Odr.of d.odr).rows

/-- The drain unit writes its next chunk: it reads the chunk's ACC48 entries in a MERGE mode (R127, R138), rounds, writes output
rows and scales through its port (R119, R137) and updates the census record with the write (R179). The operation counts as one
update, with its first chunk; the raised operands that saturated (R111) count there too. [log 32, 33 DEDUCED] -/
def Block.drainChunk (t : Nat) (b : Block) : Block :=
  match (b.tile t).drain with
  | none => b
  | some d =>
    let o := Odr.of d.odr
    let n := o.rows
    let r := if o.merges then b.portRead t 2 (o.merge + 512 * (n * d.chunk)) (512 * n) else (some [], b)
    match r with
    | (none, b) => (b.onTile t (fun x => { x with drain := none })).progFault t 0x08 0 none
    | (some m, b) =>
      let own := (d.cells.drop (64 * (n * d.chunk))).take (64 * n)
      let cells := if o.merges then
          own.zipIdx.map (fun c => c.1.merge (acc48Read (leNat ((m.drop (8 * c.2)).take 8)))) else own
      let rows := (List.range n).map (fun i => b.drainRow o ((cells.drop (64 * i)).take 64))
      let x := rows.zipIdx.foldl (fun (x : Tile) r =>
        let i := n * d.chunk + r.2
        let x := x.portWrite 2 (o.elem + 32 * o.stride * i) r.1.1
        if r.1.2.1.isEmpty then x else x.portWrite 2 (o.scaleAddr + 2 * i) r.1.2.1) (b.tile t)
      let c := censusOf (rows.map (·.2.2)).flatten (cells.map Cell.fv)
      let c := { c with updates := b2n (decide (d.chunk = 0)), sat := c.sat + (if d.chunk = 0 then d.sat else 0) }
      let left := decide (n * (d.chunk + 1) < 96)
      let b := b.setTile t { (x.addCensus o.census c) with drain := if left then some { d with chunk := d.chunk + 1 } else none }
      b.censusStatus t c

/-- The drain unit writes in a cycle between its first and its last busy one (R124). [log 33 DEDUCED] -/
def Block.drainCycle (t : Nat) (b : Block) : Block :=
  let x := b.tile t
  match x.drain with
  | none => b
  | some d => if d.issued + d.chunk < x.cyc && x.cyc < d.until then b.drainChunk t else b

/-- The drain unit finishes: what it has not yet written is written, and it becomes free (R119, R124). -/
def Block.drainComplete (t : Nat) (b : Block) : Block :=
  match (b.tile t).drain with
  | none => b
  | some d => (List.range (96 / (Odr.of d.odr).rows - d.chunk)).foldl (fun (b : Block) _ => b.drainChunk t) b

/-! ### Faults of the array (R129 to R132) -/

/-- Recompute a group from k = 0 to the step count it had (R131): the bytes and the order are the same. -/
def Block.replayGo (b : Block) (t : Nat) (oa ob : Osr) : Nat → Nat → Nat → List Cell → List Cell
  | 0, _, _, cells => cells
  | fuel + 1, k, target, cells =>
    if target ≤ k then cells
    else
      match b.pairClass oa.slot ob.slot with
      | none => cells
      | some (d, _) =>
        let ca := operandCodes (b.tsPeek t) oa (b.elemBits oa.slot) 96 k d
        let cb := operandCodes (b.tsPeek t) ob (b.elemBits ob.slot) 64 k d
        b.replayGo t oa ob fuel (k + d) target (b.stepCells (b.tsPeek t) oa ob ca cb k cells).1

/-- The group as its replay leaves it, the second half of a block that it has read kept again. [log 45 DESIGN CHOICE] -/
def Block.replay (b : Block) (t : Nat) (gr : Group) : Group :=
  let oa := Osr.of gr.osrA
  let ob := Osr.of gr.osrB
  let d := ((b.pairClass oa.slot ob.slot).map Prod.fst).getD 0
  let kept (o : Osr) (n : Nat) : List (List Nat) :=
    if o.secondHalf gr.target d then operandCodes (b.tsPeek t) o (b.elemBits o.slot) n gr.target 4 else []
  { gr with
    state := gr.back, k := gr.target, last := (b.tile t).cyc, keptA := kept oa 96, keptB := kept ob 64,
    cells := b.replayGo t oa ob (gr.target + 1) 0 gr.target (List.replicate 6144 Cell.zero) }

/-- A group enters RERUN: its accumulators are discarded, its state and step count kept (R120). -/
def Group.toRerun (g : Group) : Group :=
  match g.state with
  | .accum => { g with state := .rerun, back := .accum, target := g.k, cells := [] }
  | .settle => { g with state := .rerun, back := .settle, target := g.k, cells := [] }
  | .ready => { g with state := .rerun, back := .ready, target := g.k, cells := [] }
  | _ => g

def Tile.openGroups (x : Tile) : List Nat := (List.range 4).filter (fun g => (x.group g).state ≠ .closed)

/-- A tile is retired at run time: Almanac state 2, and its command ends ABORTED PROGRAM_FAULT, cause TILE_RETIRED
(R132, R213). The error record of the fault is the Almanac's record (R67). [log 46 DEDUCED] -/
def Block.retireTile (t g : Nat) (b : Block) : Block :=
  let b := b.onTile t (fun x => { x with st := 2 })
  let b := b.almanacChange Status.programFault 1 t (if (b.tile t).held.isSome then 0x18 else (b.tile t).faultDetail 0x18 g) 0
  match (b.tile t).held with
  | some id =>
    let detail := 0x18
    let b := match b.cmd id with
      | some c =>
        let ts := match c.work with | .conv ts _ => ts | .attn w => w.tiles | _ => []
        let b := b.haltTiles (ts.filter (fun t => (b.tile t).held = some id))
        match c.work with | .attn w => b.kvRelease c w | _ => b
      | none => b
    b.completeId id Status.programFault detail (fields [(56, t)])
  | none => b.faultEnd t 0x18 g none

/-- A fault of group g noted: it takes the place of an earlier one of the group. -/
def Tile.noteFault (g row col : Nat) (x : Tile) : Tile :=
  { x with faultAt := (g, row, col) :: x.faultAt.filter (fun f => f.1 ≠ g) }

/-- A residue or parity mismatch in group g, cube (row, col) (R131, R132). A fault in another group during a rerun is handled
after it (R134); one of a group whose rerun has not begun does not occur. [log 45 DESIGN CHOICE] -/
def Block.transientFault (t g row col : Nat) (b : Block) : Block :=
  let x := b.tile t
  let again := x.faultAt.contains (g, row, col)
  if x.held.isSome then
    -- the CONV or ATTN command's groups are the sequencer's own: the rerun shows as its warning (R213, R232)
    if x.switching then b
    else if again then
      if x.badRow = 12 then
        (b.onTile t (fun x => { x with faultAt := [(g, row, col)], switching := true })).tileAcquire t Status.passRerun
      else b.retireTile t g
    else
      (b.onTile t (fun x => { x.noteFault g row col with
        rerun := if x.rerun.contains g then x.rerun else x.rerun ++ [g] })).tileAcquire t Status.passRerun
  else if x.run.isNone || x.halted || x.switching then b
  else
    let gr := x.group g
    if gr.state = .rerun then
      if x.rerun.head? ≠ some g then b
      else if again then
        if x.badRow = 12 then
          -- permanent, the spare row is free: every open group is discarded and rerun after the switch
          let open4 := x.openGroups
          let x := open4.foldl (fun x g => x.setGroup g (x.group g).toRerun) x
          b.setTile t { x with switching := true, rerun := open4, faultAt := [(g, row, col)] }
        else b.retireTile t g
      else b.onTile t (Tile.noteFault g row col)
    else if gr.state = .closed then b
    else
      (b.setTile t { ((x.setGroup g gr.toRerun).noteFault g row col) with rerun := x.rerun ++ [g] }).tileAcquire t Status.passRerun

/-- The replay at the head of the tile's reruns reaches the step count before the fault (R120, R131).
[log 45 DESIGN CHOICE; 46 DEDUCED] -/
def Block.rerunDone (t : Nat) (b : Block) : Block :=
  let x := b.tile t
  if x.switching then b else
  match x.rerun with
  | [] => b
  | g :: rest =>
    let left := x.faultAt.filter (fun f => f.1 ≠ g)
    if x.held.isSome then b.onTile t (fun x => { x with rerun := rest, faultAt := left })
    else
      let gr := x.group g
      b.setTile t { (x.setGroup g (b.replay t gr)) with rerun := rest, faultAt := left }

/-- After 2,048 cycles the spare row is in; open groups are rerun in ascending order (R129, R132). [log 45 DESIGN CHOICE] -/
def Block.spareRowDone (t : Nat) (b : Block) : Block :=
  let x := b.tile t
  if !x.switching then b else
  let row := match x.faultAt with | (_, r, _) :: _ => r | [] => 0
  let b := b.setTile t { x with switching := false, badRow := row, st := 1, faultAt := [] }
  (b.almanacChange Status.passRerun 1 t 0 0).tileAcquire t (Status.passRerun + loggedMark)

/-- SETTLE ends 28 cycles after the last step (R120, R122). -/
def Block.groupSettle (t g : Nat) (b : Block) : Block :=
  let x := b.tile t
  let gr := x.group g
  if gr.state = .settle ∧ gr.last + 28 ≤ x.cyc then b.onTile t (Tile.setGroup g { gr with state := .ready }) else b

/-! ### Meanings of the cube rows -/

/-- A slot's effect where the tile may issue; otherwise the row does not occur. [log 39 DEDUCED] -/
def Block.slot (t : Nat) (f : Block → Block) (b : Block) : Block := if (b.tile t).issuing then f b else b

def execStep (t g : Nat) (first : Bool) (s : State) : Host.Outcome State Fault Refusal :=
  s.run (Block.slot t (Block.cubeStep t g first))
def execDrain (t g odr : Nat) (s : State) : Host.Outcome State Fault Refusal :=
  s.run (Block.slot t (Block.cubeDrain t g odr))
def execDiscard (t g : Nat) (s : State) : Host.Outcome State Fault Refusal :=
  s.run (Block.slot t (Block.cubeDiscard t g))

/-- STEP and DRAIN in one bundle: different groups, or fault GROUP_OPEN (R121). -/
def execStepAndDrain (t sg : Nat) (first : Bool) (dg odr : Nat) (s : State) : Host.Outcome State Fault Refusal :=
  s.run (Block.slot t (fun b =>
    if sg = dg then b.progFault t 0x11 sg none else (b.cubeStep t sg first).slot t (Block.cubeDrain t dg odr)))
def execStepAndDiscard (t sg : Nat) (first : Bool) (dg : Nat) (s : State) : Host.Outcome State Fault Refusal :=
  s.run (Block.slot t (fun b =>
    if sg = dg then b.progFault t 0x11 sg none else (b.cubeStep t sg first).slot t (Block.cubeDiscard t dg)))

def execGroupSettle (t g : Nat) (s : State) : Host.Outcome State Fault Refusal := s.run (Block.groupSettle t g)

/-- DRAIN_COMPLETE occurs once the drain's last busy cycle has come (R124), or on a halted tile, whose drain
finishes on its own (R130, R158, R162). -/
def Block.drainEvent (t : Nat) (b : Block) : Block :=
  let x := b.tile t
  match x.drain with
  | none => b
  | some d =>
    if x.run.isNone then (b.drainComplete t).drainFlight t
    else if d.until ≤ x.cyc then b.drainComplete t else b

def execDrainComplete (t : Nat) (s : State) : Host.Outcome State Fault Refusal := s.run (Block.drainEvent t)
def execTransientFault (t g row col : Nat) (s : State) : Host.Outcome State Fault Refusal :=
  s.run (Block.transientFault t g row col)
def execRerunDone (t : Nat) (s : State) : Host.Outcome State Fault Refusal := s.run (Block.rerunDone t)
def execSpareRowSwitchDone (t : Nat) (s : State) : Host.Outcome State Fault Refusal := s.run (Block.spareRowDone t)

end Sys2Proof.Machine
end

