-- ==== Sys2Proof/Machine/Wire.lean ====
section
/-!
DEFINITION. Sending messages on Meridian (R351, R353, R357): message heads, flits of a message, routes, and the local
delivery of a message to a rank the module hosts (R22).
-/

namespace Sys2Proof.Machine

/-! The kinds of a message (R353). -/

namespace Kind
def peerWrite : Nat := 0
def writeAck : Nat := 1
def readReq : Nat := 2
def readRsp : Nat := 3
def collStart : Nat := 4
def collData : Nat := 5
def collAbort : Nat := 6
def unreach : Nat := 7
end Kind

def Msg.zero : Msg :=
  { kind := 0, src := 0, dest := 0, no := 0, vl := 4, length := 0, offset := 0, exp := 0, rctr := 0, rop := 0, rval := 0,
    tree := 0, seq := 0, shard := 0, level := 0, node := 0, data := [] }

/-- The 32-byte message head (R353). -/
def Msg.head (m : Msg) : Nat :=
  fields [(252, m.kind), (208, m.length % 2 ^ 32), (176, m.offset % 2 ^ 32), (173, m.exp % 8), (159, m.rctr % 2 ^ 13),
    (157, m.rop % 4), (125, m.rval % 2 ^ 32), (121, m.tree % 16), (89, m.seq % 2 ^ 32), (73, m.shard % 2 ^ 16),
    (68, m.level % 32), (52, m.node % 2 ^ 16)]

/-- Read a head back into a message. -/
def Msg.withHead (m : Msg) (h : Nat) : Msg :=
  { m with kind := bits h 255 252, length := bits h 239 208, offset := bits h 207 176, exp := bits h 175 173,
           rctr := bits h 171 159, rop := bits h 158 157, rval := bits h 156 125, tree := bits h 124 121,
           seq := bits h 120 89, shard := bits h 88 73, level := bits h 72 68, node := bits h 67 52 }

/-- Does a kind carry LENGTH bytes of data behind its head? -/
def Msg.hasData (m : Msg) : Bool := m.kind = 0 || m.kind = 3 || m.kind = 5 || (decide (8 ≤ m.kind) && decide (m.kind ≤ 11))

/-- Ranks the module hosts, primary first (R366). -/
def Block.hosted (b : Block) : List Nat := b.fab.primary.toList ++ b.fab.emul
def Block.hosts (b : Block) (r : Nat) : Bool := b.hosted.contains r
def Block.primaryRank (b : Block) : Nat := b.fab.primary.getD 0

def Block.port (b : Block) (m : Nat) : Port := b.fab.ports.get Port.zero m
def Block.setPort (m : Nat) (p : Port) (b : Block) : Block := { b with fab.ports := b.fab.ports.set Port.zero m p }
def PortState.isUp (s : PortState) : Bool := s = .up8 || s = .up4

/-- The port a flit for a rank leaves by: the primary when it is up, else the alternate (R357). A port without a key counts as
down (R415). [log 116 DEDUCED] -/
def Block.routePort (b : Block) (dest : Nat) : Option Nat :=
  let e := b.fab.routes.get 0xFF dest
  let ok (k : Nat) : Bool := decide (k < 8) && (b.port k).st.isUp && (b.port k).txKey.isSome
  if ok (e / 16) then some (e / 16) else if ok (e % 16) then some (e % 16) else none

/-- Data bytes that follow the head in the flits of a message: 192 in the first, 224 in each other. -/
def payloads : Nat → List Byte → List (List Byte)
  | 0, _ => []
  | fuel + 1, bs => if bs.isEmpty then [] else bs.take 224 :: payloads fuel (bs.drop 224)

/-- The flits of a message (R351, R353). -/
def Msg.flits (m : Msg) (cmd : Option Nat) : List QFlit :=
  let ps := (leBytes 32 m.head ++ m.data.take 192) :: payloads (m.data.length / 224 + 1) (m.data.drop 192)
  ps.zipIdx.map (fun x => {
    typ := 1, vl := m.vl, dest := m.dest, src := m.src, msg := m.no, first := x.2 = 0,
    last := decide (x.2 + 1 = ps.length), no := x.2, pwords := ceilDiv x.1.length 16, payload := leNat x.1, cmd := cmd })

/-- Queue a flit at a port: `own` tells the module's own flits from forwarded ones (R356). -/
def Block.queueFlit (m : Nat) (own : Bool) (q : QFlit) (b : Block) : Block :=
  let p := b.port m
  b.setPort m { p with queues := p.queues.upd [] (2 * q.vl + b2n own) (· ++ [q]) }

/-- The command behind a request, for the ports it has flits on (R358). -/
def PeerReq.cmdOf (b : Block) : PeerReq → Option Nat
  | .move t _ _ => (b.tile t).run
  | .cmd id _ _ => some id
  | .coll id _ => some id
  | .fetch id => some id
  | _ => none

/-- Send a message: to a rank the module hosts it is delivered at once; with its route down an UNREACH comes back. `who`
waits for the answer. -/
def Block.post (m : Msg) (who : Option PeerReq) (b : Block) : Block :=
  let no := b.fab.nextMsg
  let m := { m with no := no }
  let b := { b with
    fab.nextMsg := (no + 1) % 2 ^ 16,
    fab.reqs := b.fab.reqs ++ (match who with | some r => [(no, m.dest, r)] | none => []) }
  if b.hosts m.dest then { b with fab.inbox := b.fab.inbox ++ [m] }
  else
    match b.routePort m.dest with
    | none => { b with fab.inbox := b.fab.inbox ++
        [{ Msg.zero with kind := Kind.unreach, src := b.primaryRank, dest := m.src, rval := no }] }
    | some k => (m.flits (who.bind (PeerReq.cmdOf b))).foldl (fun b q => b.queueFlit k true q) b

/-- Take the request that an answer names, if it is still awaited. -/
def Block.takeReq (no : Nat) (b : Block) : Option (Nat × PeerReq) × Block :=
  match b.fab.reqs.find? (fun r => r.1 = no) with
  | some r => (some r.2, { b with fab.reqs := b.fab.reqs.filter (fun x => x.1 ≠ no) })
  | none => (none, b)

/-! ### Requests to host memory (R432) -/

/-- Ask the host for bytes: a read request leaves, its tag outstanding. -/
def Block.askHost (addr n : Nat) (who : HostReq) (b : Block) : Block :=
  let tag := b.host.nextTag
  ({ b with host.nextTag := tag + 1, host.reqs := b.host.reqs ++ [(tag, who)] }).emit (.hostRead tag addr n)

end Sys2Proof.Machine
end

