-- ==== Sys2Proof/Machine/Moves.lean ====
section
/-!
DEFINITION. The move engine (R143 to R146): the move slot, and the granules of LOAD and STORE transfers in local memory,
host memory and peer windows, counted on the arrival counters.
-/

namespace Sys2Proof.Machine

def Move.total (m : Move) : Nat := m.rowGran * m.rows
/-- DA and tile-store address of a granule: the tile-store side is packed (R143). -/
def Move.gda (m : Move) (g : Nat) : Nat := m.da + 64 * (m.stride * (g / m.rowGran) + g % m.rowGran)
def Move.gts (m : Move) (g : Nat) : Nat := m.ts + 64 * g

/-- The descriptor check at issue (R146). -/
def Move.valid (m : Move) : Bool :=
  decide (m.da % 64 = 0) && decide (m.ts % 64 = 0) && decide (m.rowGran ≠ 0) && decide (m.rows ≠ 0) &&
    decide (m.ts + 64 * m.total ≤ tileBytes) &&
    (List.range m.rows).all (fun j =>
      regionOf (m.gda (j * m.rowGran)) ≠ .reserved && regionOf (m.gda (j * m.rowGran + m.rowGran - 1)) ≠ .reserved)

/-- The move a descriptor register describes (R143). -/
def Tile.mkMove (x : Tile) (load : Bool) (mdr ac : Nat) : Move :=
  let d := x.dreg mdr
  { id := x.nextMove, load := load, da := bits d 127 76, ts := bits d 75 52, rowGran := bits d 51 36, rows := bits d 35 24,
    stride := bits d 23 0, ac := ac, done := [], asked := [], failed := false }

def moveKind (load : Bool) : Nat := if load then 2 else 3

/-- The move slot (R145): the register is latched, checked, and the transfer queued. With 32 queued the bundle is held
(R150): the slot does not issue. -/
def Block.moveIssue (t : Nat) (load : Bool) (mdr ac : Nat) (b : Block) : Block :=
  let x := b.tile t
  if 32 ≤ x.moves.length then b
  else if x.cyc < x.dregAt.get 0 mdr then b.progFault t 0x03 0 none
  else
    let m := x.mkMove load mdr ac
    if !m.valid then b.progFault t 0x05 0 none
    else (b.setTile t { x with moves := x.moves ++ [m], nextMove := x.nextMove + 1 }).tallyStart (moveKind load) t m.id

/-- The move of an identifier. -/
def Tile.move (x : Tile) (id : Nat) : Option Move := x.moves.find? (fun m => m.id = id)
def Tile.setMove (m : Move) (x : Tile) : Tile := { x with moves := x.moves.map (fun y => if y.id = m.id then m else y) }
def Tile.dropMove (id : Nat) (x : Tile) : Tile := { x with moves := x.moves.filter (fun y => y.id ≠ id) }

/-- A transfer fails (R146): nothing further of it is written, and the program faults with the granule's DA. [log 38 DEDUCED] -/
def Block.moveFail (t id cause da : Nat) (b : Block) : Block :=
  let b := b.onTile t (Tile.dropMove id)
  match (b.tile t).run with
  | some _ => b.progFault t cause 0 (some da)
  | none => b

/-- A granule is counted (R144); the last one ends the transfer. -/
def Block.countGranule (t : Nat) (m : Move) (g : Nat) (b : Block) : Block :=
  let m := { m with done := g :: m.done }
  let b := b.onTile t (fun x => { (x.setMove m) with ac := x.ac.upd 0 m.ac (· + 1) })
  if m.done.length < m.total then b
  else (b.onTile t (Tile.dropMove m.id)).tallyEnd (moveKind m.load) t m.id true

/-- A LOAD granule's bytes arrive: written into the tile store, visible, counted (R144). -/
def Block.loadArrives (t : Nat) (m : Move) (g : Nat) (bs : List Byte) (b : Block) : Block :=
  let b := b.memWrite (tileDa t + m.gts g) bs
  let b := b.tallyData (moveKind m.load) t m.id (m.gda g) bs
  b.countGranule t m g

/-- The read of a peer window for a granule, and the write of one. -/
def Block.askPeerRead (ex rank off n : Nat) (who : PeerReq) (b : Block) : Block :=
  b.post { Msg.zero with
    kind := Kind.readReq, src := b.primaryRank, dest := rank, vl := 4, length := n, offset := off, exp := ex } (some who)
def Block.askPeerWrite (ex rank off : Nat) (bs : List Byte) (who : PeerReq) (b : Block) : Block :=
  b.post { Msg.zero with
    kind := Kind.peerWrite, src := b.primaryRank, dest := rank, vl := 4, length := bs.length, offset := off, exp := ex,
    data := bs } (some who)

/-- The cause of a failed local access of a move (R146). [log 38 DEDUCED] -/
def moveCause (status : Nat) : Nat := if status = Status.addrUnmapped then 0x04 else 0x06

/-- LOAD_GRANULE_COMPLETE of a local granule, or the request of one in host memory or a peer window (R145). -/
def Block.loadGranule (t xfer g : Nat) (b : Block) : Block :=
  match (b.tile t).move xfer with
  | none => b
  | some m =>
    if !m.load || decide (m.total ≤ g) || m.done.contains g || m.asked.contains g then b
    else
      let da := m.gda g
      match regionOf da with
      | .host addr =>
        (b.onTile t (Tile.setMove { m with asked := g :: m.asked })).askHost addr 64 (.move t xfer g)
      | .peer ex rank off =>
        (b.onTile t (Tile.setMove { m with asked := g :: m.asked })).askPeerRead ex rank off 64 (.move t xfer g)
      | _ =>
        if b.readWaits da 64 then b else
        match b.daRead da 64 with
        | (.ok bs c, b) => (if c then b.tileAcquire t Status.memCorrected else b).loadArrives t m g bs
        | (.fail st _ _, b) => b.moveFail t xfer (moveCause st) da

/-- Bytes of the tile store that a STORE granule reads through the move port. -/
def Block.storeBytes (t : Nat) (m : Move) (g : Nat) (b : Block) : Option (List Byte) × Block :=
  b.tsRead t (m.gts g) 64

/-- STORE_GRANULE_ACK of a local or host granule, or the message of one in a peer window (R144). -/
def Block.storeGranule (t xfer g : Nat) (b : Block) : Block :=
  match (b.tile t).move xfer with
  | none => b
  | some m =>
    if m.load || decide (m.total ≤ g) || m.done.contains g || m.asked.contains g then b
    else
      let da := m.gda g
      match regionOf da with
      | .peer ex rank off =>
        match b.storeBytes t m g with
        | (some bs, b) =>
          ((b.onTile t (Tile.setMove { m with asked := g :: m.asked })).tallyData 3 t xfer da bs).askPeerWrite ex rank off bs
            (.move t xfer g)
        | (none, b) => b.moveFail t xfer 0x06 da
      | .host addr =>
        match b.storeBytes t m g with
        | (some bs, b) => ((b.emit (.hostWrite addr bs)).tallyData 3 t xfer da bs).countGranule t m g
        | (none, b) => b.moveFail t xfer 0x06 da
      | _ =>
        if !localPopulated da 64 then b.moveFail t xfer 0x04 da
        else if b.roHit da 64 then b.onTile t (Tile.dropMove xfer)
        else if b.writeWaits da 64 then b
        else
          match b.storeBytes t m g with
          | (none, b) => b.moveFail t xfer 0x06 da
          | (some bs, b) =>
            match b.daWrite da bs with
            | (b, none) => (b.tallyData 3 t xfer da bs).countGranule t m g
            | (b, some st) =>
              if st = Status.memUncorrectable then b.moveFail t xfer 0x06 da
              else ((b.tileAcquire t st).tallyData 3 t xfer da bs).countGranule t m g

/-- The host's bytes for a LOAD granule, or the failure of the request (R146, R432). -/
def Block.moveHostData (t xfer g : Nat) (r : Option (List Byte)) (b : Block) : Block :=
  match (b.tile t).move xfer, r with
  | some m, some bs => b.loadArrives t m g bs
  | some m, none => b.moveFail t xfer 0x07 (m.gda g)
  | none, _ => b

/-- A peer's answer to a granule: data, an acknowledgement, a refusal, or no route (R146, R364). -/
inductive PeerAns where
  | data (bs : List Byte) | ack | refused | unreachable
deriving DecidableEq, Repr

def Block.movePeerAns (t xfer g : Nat) (a : PeerAns) (b : Block) : Block :=
  match (b.tile t).move xfer with
  | none => b
  | some m =>
    match a with
    | .data bs => b.loadArrives t m g bs
    | .ack => b.countGranule t m g
    | .refused => b.moveFail t xfer 0x04 (m.gda g)
    | .unreachable => b.moveFail t xfer 0x0B (m.gda g)

/-! ### Meanings of the move rows -/

def execLoad (t mdr ac : Nat) (s : State) : Host.Outcome State Fault Refusal :=
  s.run (Block.slot t (Block.moveIssue t true mdr ac))
def execStore (t mdr ac : Nat) (s : State) : Host.Outcome State Fault Refusal :=
  s.run (Block.slot t (Block.moveIssue t false mdr ac))
def execLoadGranuleComplete (t xfer gran : Nat) (s : State) : Host.Outcome State Fault Refusal :=
  s.run (Block.loadGranule t xfer gran)
def execStoreGranuleAck (t xfer gran : Nat) (s : State) : Host.Outcome State Fault Refusal :=
  s.run (Block.storeGranule t xfer gran)

/-- A move access that has waited 64 cycles freezes its tile for one cycle (R137, R150). -/
def execMoveAccessStarvation (t : Nat) (s : State) : Host.Outcome State Fault Refusal :=
  s.run (fun b =>
    let x := b.tile t
    if x.moves.isEmpty || x.run.isNone then b else b.setTile t { x with frozen := x.frozen + 1 })

end Sys2Proof.Machine
end

