-- ==== Sys2Proof/Machine/Scalar.lean ====
section
/-!
DEFINITION. The scalar cores (R180 to R185), branches (R141), tile packets (R184), and the sync slot with the
arrival counters (R144, R148).
-/

namespace Sys2Proof.Machine

/-- A scalar register as a word. -/
def Tile.sw (x : Tile) (core r : Nat) : Word := x.sregs.get 0 (32 * core + r)

/-- A scalar slot of a core: a busy core faults the program (R180). [log 39 DEDUCED] -/
def Block.scalar (t core : Nat) (f : Tile → Block → Block) : Block → Block :=
  Block.slot t (fun b =>
    let x := b.tile t
    if x.cyc < x.busy.get 0 core then b.progFault t 0x22 0 none else f x b)

/-- A result that lands in a scalar register L cycles later (R166, R182). -/
def Block.scLater (t l core rd : Nat) (v : Word) (b : Block) : Block :=
  b.onTile t (fun x => x.later l (.sreg core rd) v.toNat [])

/-- Form R: a function of RA and RB. -/
def Block.scR (t : Nat) (a : ScR) (l : Nat) (f : Word → Word → Word) : Block → Block :=
  Block.scalar t a.core (fun x b => b.scLater t l a.core a.rd (f (x.sw a.core a.ra) (x.sw a.core a.rb)))

/-- IMM14, signed (R181). -/
def imm14 (n : Nat) : Word := BitVec.ofInt 32 (sx 14 n)

/-- Form I: a function of RA and IMM14. -/
def Block.scI (t : Nat) (a : ScI) (f : Word → Word → Word) : Block → Block :=
  Block.scalar t a.core (fun x b => b.scLater t 2 a.core a.rd (f (x.sw a.core a.ra) (imm14 a.imm)))

/-- Shift counts come from bits 4:0 (R182). -/
def shCount (w : Word) : Nat := w.toNat % 32
def wordShl (p q : Word) : Word := p <<< shCount q
def wordShr (p q : Word) : Word := p >>> shCount q
def wordSar (p q : Word) : Word := p.sshiftRight (shCount q)
def wordSlt (p q : Word) : Word := if p.slt q then 1 else 0
def wordSltu (p q : Word) : Word := if p.ult q then 1 else 0
def wordMulhu (p q : Word) : Word := BitVec.ofNat 32 (p.toNat * q.toNat / 2 ^ 32)
/-- A divisor of 0 gives quotient 0xFFFF_FFFF and remainder RA (R182). -/
def wordDivu (p q : Word) : Word := if q = 0 then 0xFFFFFFFF else p / q
def wordRemu (p q : Word) : Word := if q = 0 then p else p % q

/-- DIVU and REMU: ready at t + 16, the core busy to t + 15. -/
def Block.scDiv (t : Nat) (a : ScR) (f : Word → Word → Word) : Block → Block :=
  Block.scalar t a.core (fun x b =>
    (b.scLater t 16 a.core a.rd (f (x.sw a.core a.ra) (x.sw a.core a.rb))).onTile t
      (fun x => { x with busy := x.busy.set 0 a.core (x.cyc + 16) }))

/-- Address of a form-I access of size n: RA + n × IMM14. -/
def scEa (x : Tile) (a : ScI) (n : Nat) : Nat := (x.sw a.core a.ra + BitVec.ofNat 32 n * imm14 a.imm).toNat

/-- A form-I access aligned to its size and inside the store, else SCALAR_ADDR (R184). -/
def scAddrOk (ea size n : Nat) : Bool := decide (ea % size = 0) && decide (ea + n ≤ tileBytes)

/-- A descriptor register takes 16 tile-store bytes, latchable 4 cycles later (R149, R182). -/
def Block.scDesc (t core dr ea : Nat) (b : Block) : Block :=
  match b.portRead t (5 + core) ea 16 with
  | (none, b) => b.progFault t 0x08 0 none
  | (some bs, b) =>
    b.onTile t (fun x => { x.later 4 (.dreg dr) (leNat bs) [] with dregAt := x.dregAt.set 0 dr (x.cyc + 4) })

/-- Packets of a tile not yet completed (R60). -/
def Block.outstanding (b : Block) (t : Nat) : Nat :=
  ((b.mer.tileQ.get [] (t / 36)).filter (fun (p : Packet × Nat) => p.1.src = .tile t)).length +
  ((b.mer.tileHeld.get [] (t / 36)).filter (fun c => c.pkt.src = .tile t)).length +
  (b.mer.running.filter (fun c => c.pkt.src = .tile t)).length +
  (b.mer.tileFailed.filter (fun c => c.1.pkt.src = .tile t)).length

/-- May a tile issue a packet now: fewer than 16 outstanding, and room in the quadrant's queue of 256 (R60)? [log 40 DEDUCED] -/
def Block.pktRoom (b : Block) (t : Nat) : Bool :=
  decide (b.outstanding t < 16) &&
    decide ((b.mer.tileQ.get [] (t / 36)).length + (b.mer.tileHeld.get [] (t / 36)).length < 256)

/-- PKT (R184): the packet at EA enters the tile command queue of the quadrant. [log 40 DEDUCED] -/
def Block.scPkt (t : Nat) (a : ScI) : Block → Block :=
  Block.scalar t a.core (fun x b =>
    let ea := scEa x a 64
    if !b.pktRoom t then b
    else if !scAddrOk ea 64 64 then b.progFault t 0x23 0 none
    else
      match b.portRead t (5 + a.core) ea 64 with
      | (none, b) => b.progFault t 0x08 0 none
      | (some h, b) =>
        let n := bits (leNat h) 23 16
        if n = 0 ∨ 4 < n then b.progFault t 0x25 0 none
        else if !scAddrOk ea 64 (64 * n) then b.progFault t 0x23 0 none
        else
          match b.tsRead t (ea + 64) (64 * n - 64) with
          | (none, b) => b.progFault t 0x08 0 none
          | (some ps, b) =>
            let p : Packet := { src := .tile t, hdr := BitVec.ofNat 512 (leNat h), params := ps }
            { (b.onTile t (fun x => { x with busy := x.busy.set 0 a.core (x.cyc + 4 * n) })) with
              mer.tileQ := b.mer.tileQ.upd [] (t / 36) (· ++ [(p, ((x.run.bind b.cmd).map (fun c => c.ring)).getD 0)]) })

/-- A branch slot (R141): in a delay bundle it faults; taken, it redirects after two delay bundles. -/
def Block.scBranch (t : Nat) (a : ScB) (cond : Word → Word → Bool) : Block → Block :=
  Block.scalar t a.core (fun x b =>
    if x.branch.isSome then b.progFault t 0x02 0 none
    else if cond (x.sw a.core a.ra) (x.sw a.core a.rb) then b.onTile t (fun x => { x with branch := some (3, a.target) })
    else b)

/-- DBNZ: RA ← RA − 1, taken if the new value is not 0. -/
def Block.scDbnz (t : Nat) (a : ScB) : Block → Block :=
  Block.scalar t a.core (fun x b =>
    if x.branch.isSome then b.progFault t 0x02 0 none
    else
      let v := x.sw a.core a.ra - 1
      let b := b.scLater t 2 a.core a.ra v
      if v = 0 then b else b.onTile t (fun x => { x with branch := some (3, a.target) }))

/-! ### The sync slot (R148) -/

/-- The value of a sync-slot operation. -/
def Tile.sval (x : Tile) : SVal → Nat
  | .imm v => v
  | .reg c r => x.sreg c r

/-- A WAIT of the sync slot: found true, the bundle may issue in this cycle; false, it is held (R148, R150). -/
def Block.slotWait (t : Nat) (holds : Tile → Block → Bool) : Block → Block :=
  Block.slot t (fun b =>
    let x := b.tile t
    if holds x b then b.setTile t { x with waitOk := true, waitSince := none }
    else b.setTile t { x with waitOk := false, waitSince := some (x.waitSince.getD b.now) })

/-- WAIT_TIMEOUT: a sync-slot wait has lasted WAIT_LIMIT SC ticks (R152, R157). -/
def Block.waitTimeout (t : Nat) (b : Block) : Block :=
  let x := b.tile t
  match x.waitSince, x.run.bind b.cmd with
  | some since, some c =>
    match c.work with
    | .run w => if w.waitLimit ≠ 0 ∧ since + w.waitLimit ≤ b.now then b.progFault t 0x09 0 none else b
    | _ => b
  | _, _ => b

/-- Insert an operation after those of lower or equal requester index (R64). -/
def insertOp (o : SyncOp) : List SyncOp → List SyncOp
  | [] => [o]
  | p :: ps => if o.req < p.req then o :: p :: ps else p :: insertOp o ps

/-- A counter after an operation (R62). -/
def SyncOp.apply (v : Word) (o : SyncOp) : Word := if o.set then BitVec.ofNat 32 o.val else v + BitVec.ofNat 32 o.val

/-- Complete the SYNC_WAIT commands whose condition on a counter now holds (R51, R64). -/
def Block.wakeWaiters (ctr : Nat) (b : Block) : Block :=
  b.mer.running.foldl (fun b c =>
    match c.work with
    | .syncWait k cond v =>
      if k = ctr && condHolds cond (b.syncVal ctr) v then b.completeId c.id Status.ok 0 (b.syncVal ctr) else b
    | _ => b) b

/-- Every operation issued on a counter reaches it, in ascending requester index, then the waiters are evaluated (R64,
R65). [log 13 DESIGN CHOICE; 145 DEDUCED] -/
def Block.syncEffect (ctr : Nat) (b : Block) : Block :=
  let ops := (b.mer.syncPending.filter (fun o => o.ctr = ctr)).foldl (fun l o => insertOp o l) []
  let v := ops.foldl SyncOp.apply (b.mer.sync.get 0 ctr)
  let b := { b with mer.sync := b.mer.sync.set 0 ctr v,
                    mer.syncPending := b.mer.syncPending.filter (fun o => o.ctr ≠ ctr) }
  let b := ops.foldl (fun b o => match o.cmd with | some id => b.completeId id Status.ok 0 0 | none => b) b
  b.wakeWaiters ctr

/-! ### Meanings of the sync rows -/

def execSyncSlotWait (t ctr cond : Nat) (v : SVal) (s : State) : Host.Outcome State Fault Refusal :=
  s.run (Block.slotWait t (fun x b => condHolds cond (b.syncVal ctr) (x.sval v)))
def execWaitAc (t ac cond : Nat) (v : SVal) (s : State) : Host.Outcome State Fault Refusal :=
  s.run (Block.slotWait t (fun x _ => condHolds cond (x.acVal ac) (x.sval v)))
def execSyncSlotAdd (t ctr : Nat) (v : SVal) (s : State) : Host.Outcome State Fault Refusal :=
  s.run (Block.slot t (fun b =>
    b.issueSync { ctr := ctr, req := t, set := false, val := (b.tile t).sval v, cmd := none }))
def execSyncSlotSet (t ctr : Nat) (v : SVal) (s : State) : Host.Outcome State Fault Refusal :=
  s.run (Block.slot t (fun b =>
    b.issueSync { ctr := ctr, req := t, set := true, val := (b.tile t).sval v, cmd := none }))
/-- SET_AC: arrivals that come later in the queue are added to the value it sets (R144). -/
def execSetAc (t ac : Nat) (v : SVal) (s : State) : Host.Outcome State Fault Refusal :=
  s.run (Block.slot t (fun b => b.onTile t (fun x => { x with ac := x.ac.set 0 ac (BitVec.ofNat 32 (x.sval v)) })))
def execSyncOpEffect (ctr : Nat) (s : State) : Host.Outcome State Fault Refusal := s.run (Block.syncEffect ctr)
def execWaitTimeout (t : Nat) (s : State) : Host.Outcome State Fault Refusal := s.run (Block.waitTimeout t)

/-! ### Meanings of the scalar rows (R182) -/

def execScalarAdd (t : Nat) (a : ScR) (s : State) : Host.Outcome State Fault Refusal :=
  s.run (Block.scR t a 2 (· + ·))
def execScalarSub (t : Nat) (a : ScR) (s : State) : Host.Outcome State Fault Refusal :=
  s.run (Block.scR t a 2 (· - ·))
def execScalarAnd (t : Nat) (a : ScR) (s : State) : Host.Outcome State Fault Refusal :=
  s.run (Block.scR t a 2 (· &&& ·))
def execScalarOr (t : Nat) (a : ScR) (s : State) : Host.Outcome State Fault Refusal :=
  s.run (Block.scR t a 2 (· ||| ·))
def execScalarXor (t : Nat) (a : ScR) (s : State) : Host.Outcome State Fault Refusal :=
  s.run (Block.scR t a 2 (· ^^^ ·))
def execScalarShl (t : Nat) (a : ScR) (s : State) : Host.Outcome State Fault Refusal :=
  s.run (Block.scR t a 2 wordShl)
def execScalarShr (t : Nat) (a : ScR) (s : State) : Host.Outcome State Fault Refusal :=
  s.run (Block.scR t a 2 wordShr)
def execScalarSar (t : Nat) (a : ScR) (s : State) : Host.Outcome State Fault Refusal :=
  s.run (Block.scR t a 2 wordSar)
def execScalarSlt (t : Nat) (a : ScR) (s : State) : Host.Outcome State Fault Refusal :=
  s.run (Block.scR t a 2 wordSlt)
def execScalarSltu (t : Nat) (a : ScR) (s : State) : Host.Outcome State Fault Refusal :=
  s.run (Block.scR t a 2 wordSltu)
def execScalarMul (t : Nat) (a : ScR) (s : State) : Host.Outcome State Fault Refusal :=
  s.run (Block.scR t a 3 (· * ·))
def execScalarMulhu (t : Nat) (a : ScR) (s : State) : Host.Outcome State Fault Refusal :=
  s.run (Block.scR t a 3 wordMulhu)
def execScalarAddi (t : Nat) (a : ScI) (s : State) : Host.Outcome State Fault Refusal :=
  s.run (Block.scI t a (· + ·))
def execScalarAndi (t : Nat) (a : ScI) (s : State) : Host.Outcome State Fault Refusal :=
  s.run (Block.scI t a (· &&& ·))
def execScalarOri (t : Nat) (a : ScI) (s : State) : Host.Outcome State Fault Refusal :=
  s.run (Block.scI t a (· ||| ·))
def execScalarXori (t : Nat) (a : ScI) (s : State) : Host.Outcome State Fault Refusal :=
  s.run (Block.scI t a (· ^^^ ·))
def execScalarShli (t : Nat) (a : ScI) (s : State) : Host.Outcome State Fault Refusal :=
  s.run (Block.scI t a wordShl)
def execScalarShri (t : Nat) (a : ScI) (s : State) : Host.Outcome State Fault Refusal :=
  s.run (Block.scI t a wordShr)
def execScalarSari (t : Nat) (a : ScI) (s : State) : Host.Outcome State Fault Refusal :=
  s.run (Block.scI t a wordSar)
def execScalarLi (t : Nat) (a : ScU) (s : State) : Host.Outcome State Fault Refusal :=
  s.run (Block.scalar t a.core (fun _ b => b.scLater t 2 a.core a.rd (BitVec.ofInt 32 (sx 19 a.imm))))
def execScalarLui (t : Nat) (a : ScU) (s : State) : Host.Outcome State Fault Refusal :=
  s.run (Block.scalar t a.core (fun _ b => b.scLater t 2 a.core a.rd (BitVec.ofNat 32 (a.imm * 2 ^ 13))))
def execScalarDivu (t : Nat) (a : ScR) (s : State) : Host.Outcome State Fault Refusal :=
  s.run (Block.scDiv t a wordDivu)
def execScalarRemu (t : Nat) (a : ScR) (s : State) : Host.Outcome State Fault Refusal :=
  s.run (Block.scDiv t a wordRemu)
def execScalarLd (t : Nat) (a : ScI) (s : State) : Host.Outcome State Fault Refusal :=
  s.run (Block.scalar t a.core (fun x b =>
    let ea := scEa x a 4
    if !scAddrOk ea 4 4 then b.progFault t 0x23 0 none
    else
      match b.portRead t (5 + a.core) ea 4 with
      | (some bs, b) => b.scLater t 6 a.core a.rd (BitVec.ofNat 32 (leNat bs))
      | (none, b) => b.progFault t 0x08 0 none))
def execScalarSt (t : Nat) (a : ScI) (s : State) : Host.Outcome State Fault Refusal :=
  s.run (Block.scalar t a.core (fun x b =>
    let ea := scEa x a 4
    if !scAddrOk ea 4 4 then b.progFault t 0x23 0 none
    else b.onTile t (fun x => x.later 2 (.store ea (5 + a.core)) 0 (leBytes 4 (x.sreg a.core a.rd)))))
def execScalarWdr (t : Nat) (a : ScD) (s : State) : Host.Outcome State Fault Refusal :=
  s.run (Block.scalar t a.core (fun _ b => b.scDesc t a.core a.dr (16 * a.addr)))
def execScalarWdrr (t : Nat) (a : ScI) (s : State) : Host.Outcome State Fault Refusal :=
  s.run (Block.scalar t a.core (fun x b =>
    let ea := scEa x a 16
    if !scAddrOk ea 16 16 then b.progFault t 0x23 0 none else b.scDesc t a.core a.rd ea))
def execScalarVget (t : Nat) (a : ScV) (s : State) : Host.Outcome State Fault Refusal :=
  s.run (Block.scalar t a.core (fun x b =>
    b.scLater t 4 a.core a.rd (BitVec.ofNat 32 (x.vreg a.vn >>> (32 * a.lane)))))
def execScalarRdsc (t : Nat) (a : ScU) (s : State) : Host.Outcome State Fault Refusal :=
  s.run (Block.scalar t a.core (fun _ b =>
    b.scLater t 2 a.core a.rd (BitVec.ofNat 32 (if a.imm = 0 then b.now else b.now / 2 ^ 32))))
def execScalarPkt (t : Nat) (a : ScI) (s : State) : Host.Outcome State Fault Refusal :=
  s.run (Block.scPkt t a)
def execScalarBr (t : Nat) (a : ScB) (s : State) : Host.Outcome State Fault Refusal :=
  s.run (Block.scBranch t a (fun _ _ => true))
def execScalarBeq (t : Nat) (a : ScB) (s : State) : Host.Outcome State Fault Refusal :=
  s.run (Block.scBranch t a (fun p q => p == q))
def execScalarBne (t : Nat) (a : ScB) (s : State) : Host.Outcome State Fault Refusal :=
  s.run (Block.scBranch t a (fun p q => p != q))
def execScalarBlt (t : Nat) (a : ScB) (s : State) : Host.Outcome State Fault Refusal :=
  s.run (Block.scBranch t a (fun p q => p.slt q))
def execScalarBge (t : Nat) (a : ScB) (s : State) : Host.Outcome State Fault Refusal :=
  s.run (Block.scBranch t a (fun p q => !p.slt q))
def execScalarDbnz (t : Nat) (a : ScB) (s : State) : Host.Outcome State Fault Refusal :=
  s.run (Block.scDbnz t a)

end Sys2Proof.Machine
end

