-- ==== Sys2Proof/Machine/SlotDecode.lean ====
section
/-!
DEFINITION. The slots of a bundle (R139, R142, R145, R148, R167, R168, R181): the command each slot stands for, and the
static check of the loader (R155 check 0x05, R186).
-/

namespace Sys2Proof.Machine

/-- The cube slot (R142). -/
def cubeSlot (t w : Nat) : List Instr :=
  match bits w 31 29 with
  | 1 => [.step t (bits w 27 26) (bit w 28)]
  | 2 => [.drain t (bits w 25 24) (bits w 23 22)]
  | 3 => [.discard t (bits w 25 24)]
  | 4 => [.stepAndDrain t (bits w 27 26) (bit w 28) (bits w 25 24) (bits w 23 22)]
  | 5 => [.stepAndDiscard t (bits w 27 26) (bit w 28) (bits w 25 24)]
  | _ => []

/-- A later instance of a repeated bundle: its STEP without FIRST (R140). -/
def cubeAgain (t w : Nat) : List Instr :=
  match bits w 31 29 with
  | 1 => [.step t (bits w 27 26) false]
  | 4 => [.step t (bits w 27 26) false]
  | 5 => [.step t (bits w 27 26) false]
  | _ => []

def cubeOk (w : Nat) : Bool :=
  let op := bits w 31 29
  decide (op ≤ 5) && (!bit w 28 || op = 1 || op = 4 || op = 5) && bits w 21 0 = 0

/-- Operands of a form-A and of a form-M vector slot. -/
def vecA (pipe w : Nat) : VecA :=
  { pipe := pipe, vd := bits w 39 34, va := bits w 33 28, vb := bits w 27 22, vc := bits w 21 16, pm := bits w 15 13,
    pk := bit w 12, mod := bits w 11 0 }
def vecM (pipe w : Nat) : VecM :=
  { pipe := pipe, vr := bits w 39 34, acore := bits w 33 32, areg := bits w 31 27, sr := bits w 26 25, ofs := bits w 24 13,
    slot := bits w 12 8, cid := bits w 7 0 }

/-- A vector slot (R169). -/
def vecSlot (t pipe w : Nat) : List Instr :=
  match bits w 47 40 with
  | 0x01 => [.vecAdd t (vecA pipe w)]
  | 0x02 => [.vecSub t (vecA pipe w)]
  | 0x03 => [.vecMul t (vecA pipe w)]
  | 0x04 => [.vecFma t (vecA pipe w)]
  | 0x05 => [.vecMin t (vecA pipe w)]
  | 0x06 => [.vecMax t (vecA pipe w)]
  | 0x07 => [.vecAbs t (vecA pipe w)]
  | 0x08 => [.vecNeg t (vecA pipe w)]
  | 0x09 => [.vecSel t (vecA pipe w)]
  | 0x0A => [.vecCmp t (vecA pipe w)]
  | 0x0B => [.vecAnd t (vecA pipe w)]
  | 0x0C => [.vecOr t (vecA pipe w)]
  | 0x0D => [.vecXor t (vecA pipe w)]
  | 0x0E => [.vecIadd t (vecA pipe w)]
  | 0x10 => [.vecCvt t (vecA pipe w)]
  | 0x11 => [.vecScalest t (vecA pipe w)]
  | 0x12 => [.vecBcast t (vecA pipe w)]
  | 0x13 => [.vecRot t (vecA pipe w)]
  | 0x14 => [.vecFtoi t (vecA pipe w)]
  | 0x15 => [.vecItof t (vecA pipe w)]
  | 0x20 => [.vecExp2 t (vecA pipe w)]
  | 0x21 => [.vecExp t (vecA pipe w)]
  | 0x22 => [.vecExpd t (vecA pipe w)]
  | 0x23 => [.vecLog2 t (vecA pipe w)]
  | 0x24 => [.vecRcp t (vecA pipe w)]
  | 0x25 => [.vecRsqrt t (vecA pipe w)]
  | 0x26 => [.vecSqrt t (vecA pipe w)]
  | 0x27 => [.vecSigm t (vecA pipe w)]
  | 0x28 => [.vecTanh t (vecA pipe w)]
  | 0x29 => [.vecSint t (vecA pipe w)]
  | 0x2A => [.vecCost t (vecA pipe w)]
  | 0x30 => [.vecRsum t (vecA pipe w)]
  | 0x31 => [.vecRmax t (vecA pipe w)]
  | 0x32 => [.vecRamax t (vecA pipe w)]
  | 0x40 => [.vecLdrL t (vecM pipe w)]
  | 0x41 => [.vecLdrH t (vecM pipe w)]
  | 0x42 => [.vecLdc t (vecM pipe w)]
  | 0x43 => [.vecMld t (vecM pipe w)]
  | 0x48 => [.vecStrL t (vecM pipe w)]
  | 0x49 => [.vecStrH t (vecM pipe w)]
  | 0x4A => [.vecStc t (vecM pipe w)]
  | 0x4B => [.vecMst t (vecM pipe w)]
  | 0x4C => [.vecCstore t (vecM pipe w)]
  | 0x4D => [.vecCclr t (vecM pipe w)]
  | _ => []

/-- Fields that a vector operation uses: VA, VB, VC, packed mode (R169). -/
def vecUses (op : Nat) : Bool × Bool × Bool × Bool :=
  if [0x01, 0x02, 0x03, 0x05, 0x06].contains op then (true, true, false, true) else
  if [0x04].contains op then (true, true, true, true) else
  if [0x07, 0x08, 0x10, 0x11, 0x14, 0x15, 0x20, 0x21, 0x23, 0x24, 0x25, 0x26, 0x27, 0x28, 0x29, 0x2A, 0x30, 0x31, 0x32].contains op then (true, false, false, false) else
  if [0x09, 0x0A, 0x0B, 0x0C, 0x0D, 0x0E, 0x22].contains op then (true, true, false, false) else
  if [0x12].contains op then (false, false, false, false) else
  if [0x13].contains op then (true, true, true, false) else
  (false, false, false, false)

/-- MOD of a form-A operation, `slot` the slots named in FORMATS, `blk` those that may hold block-scaled elements: its used bits hold allowed values and the others are 0 (R169, R186). -/
def vecModOk (op m : Nat) (slot : Nat → Bool) (blk : Nat → Bool) : Bool :=
  if op = 0x0A then decide (m ≤ 6)
  else if op = 0x10 then (m = 1 * 128 || m = 2 * 128) && slot (m / 128)
  else if op = 0x11 then bits m 4 0 = 0 && decide (bits m 6 5 ≤ 1) && slot (bits m 11 7) && blk (bits m 11 7)
  else if op = 0x12 then decide (m < 128)
  else if decide (0x30 ≤ op) && decide (op ≤ 0x32) then decide (1 ≤ m) && decide (m ≤ 9)
  else m = 0

/-- Is a mask number P1 to P7 in the low three bits of a register field? -/
def maskFieldOk (f : Nat) : Bool := decide (1 ≤ f) && decide (f ≤ 7)

/-- The static check of a vector slot (R186). -/
def vecOk (w : Nat) (slot blk : Nat → Bool) : Bool :=
  if w = 0 then true else
  let op := bits w 47 40
  if (vecSlot 0 0 w).isEmpty then false
  else if op < 0x40 then
    let a := vecA 0 w
    let u := vecUses op
    (u.1 || a.va = 0) && (u.2.1 || a.vb = 0) && (u.2.2.1 || a.vc = 0) && (u.2.2.2 || !a.pk) &&
      (op ≠ 0x09 || a.pm ≠ 0) && (op ≠ 0x11 || a.pm = 0) && (op ≠ 0x0A || maskFieldOk a.vd) && vecModOk op a.mod slot blk
  else
    let m := vecM 0 w
    let conv := op = 0x42 || op = 0x4A
    let mask := op = 0x43 || op = 0x4B
    let rec1 := op = 0x4C || op = 0x4D
    (!mask || maskFieldOk m.vr) && (!rec1 || m.vr = 0) &&
      (if op = 0x4A then decide (m.sr ≤ 2) else m.sr = 0) &&
      (if conv then slot m.slot && (m.slot = 1 || m.slot = 2 || blk m.slot) && (!blk m.slot || decide (m.areg ≤ 30))
       else m.slot = 0) &&
      (op = 0x4A || rec1 || m.cid = 0) &&
      (op ≠ 0x4D || (m.acore = 0 && m.areg = 0 && m.ofs = 0))

/-- Operands of the scalar forms (R181). -/
def scR (core w : Nat) : ScR := { core := core, rd := bits w 23 19, ra := bits w 18 14, rb := bits w 13 9 }
def scI (core w : Nat) : ScI := { core := core, rd := bits w 23 19, ra := bits w 18 14, imm := bits w 13 0 }
def scU (core w : Nat) : ScU := { core := core, rd := bits w 23 19, imm := bits w 18 0 }
def scB (core w : Nat) : ScB := { core := core, ra := bits w 23 19, rb := bits w 18 14, target := bits w 13 0 }
def scD (core w : Nat) : ScD := { core := core, dr := bits w 23 19, addr := bits w 18 0 }
def scV (core w : Nat) : ScV := { core := core, rd := bits w 23 19, vn := bits w 18 13, lane := bits w 12 4 }

/-- The scalar slot (R182): core in bits 31:30 of w, SCALAR.OP below. -/
def scalarSlot (t w : Nat) : List Instr :=
  let core := bits w 31 30
  match bits w 29 24 with
  | 0x01 => [.scalarAdd t (scR core w)]
  | 0x02 => [.scalarSub t (scR core w)]
  | 0x03 => [.scalarAnd t (scR core w)]
  | 0x04 => [.scalarOr t (scR core w)]
  | 0x05 => [.scalarXor t (scR core w)]
  | 0x06 => [.scalarShl t (scR core w)]
  | 0x07 => [.scalarShr t (scR core w)]
  | 0x08 => [.scalarSar t (scR core w)]
  | 0x09 => [.scalarSlt t (scR core w)]
  | 0x0A => [.scalarSltu t (scR core w)]
  | 0x0B => [.scalarMul t (scR core w)]
  | 0x0C => [.scalarMulhu t (scR core w)]
  | 0x1C => [.scalarDivu t (scR core w)]
  | 0x1D => [.scalarRemu t (scR core w)]
  | 0x10 => [.scalarAddi t (scI core w)]
  | 0x11 => [.scalarAndi t (scI core w)]
  | 0x12 => [.scalarOri t (scI core w)]
  | 0x13 => [.scalarXori t (scI core w)]
  | 0x14 => [.scalarShli t (scI core w)]
  | 0x15 => [.scalarShri t (scI core w)]
  | 0x16 => [.scalarSari t (scI core w)]
  | 0x20 => [.scalarLd t (scI core w)]
  | 0x21 => [.scalarSt t (scI core w)]
  | 0x25 => [.scalarWdrr t (scI core w)]
  | 0x2C => [.scalarPkt t (scI core w)]
  | 0x18 => [.scalarLi t (scU core w)]
  | 0x19 => [.scalarLui t (scU core w)]
  | 0x29 => [.scalarRdsc t (scU core w)]
  | 0x30 => [.scalarBr t (scB core w)]
  | 0x31 => [.scalarBeq t (scB core w)]
  | 0x32 => [.scalarBne t (scB core w)]
  | 0x33 => [.scalarBlt t (scB core w)]
  | 0x34 => [.scalarBge t (scB core w)]
  | 0x35 => [.scalarDbnz t (scB core w)]
  | 0x24 => [.scalarWdr t (scD core w)]
  | 0x28 => [.scalarVget t (scV core w)]
  | _ => []

/-- Form-R operations (R182). -/
def isFormR (op : Nat) : Bool := (decide (1 ≤ op) && decide (op ≤ 0xC)) || op = 0x1C || op = 0x1D

def scalarOk (w bundles : Nat) : Bool :=
  if w = 0 then true else
  let op := bits w 29 24
  if (scalarSlot 0 w).isEmpty then false
  else
    (!isFormR op || bits w 8 0 = 0) &&
      (op ≠ 0x25 || decide (bits w 23 19 ≤ 27)) && (op ≠ 0x24 || decide (bits w 23 19 ≤ 27)) &&
      (op ≠ 0x2C || bits w 23 19 = 0) && (op ≠ 0x28 || bits w 3 0 = 0) && (op ≠ 0x29 || decide (bits w 18 0 ≤ 1)) &&
      (op < 0x30 || decide (bits w 13 0 < bundles)) && (op ≠ 0x30 || bits w 23 14 = 0) &&
      (op ≠ 0x35 || bits w 18 14 = 0)

/-- The move slot (R145). -/
def moveSlot (t w : Nat) : List Instr :=
  match bits w 47 44 with
  | 1 => [.load t (bits w 43 40) (bits w 39 36)]
  | 2 => [.store t (bits w 43 40) (bits w 39 36)]
  | _ => []

def moveOk (w : Nat) : Bool := decide (bits w 47 44 ≤ 2) && bits w 35 0 = 0

/-- The value of a sync slot (R148). -/
def syncVal (w : Nat) : SVal := if bit w 13 then .reg (bits w 12 11) (bits w 10 6) else .imm (bits w 12 0)

/-- A sync slot that holds its bundle. -/
def syncWaitSlot (t w : Nat) : Option Instr :=
  match bits w 31 29 with
  | 1 => some (.syncSlotWait t (bits w 26 14) (bits w 28 27) (syncVal w))
  | 4 => some (.waitAc t (bits w 17 14) (bits w 28 27) (syncVal w))
  | _ => none

/-- Any other sync slot. -/
def syncSlot (t w : Nat) : List Instr :=
  match bits w 31 29 with
  | 2 => [.syncSlotAdd t (bits w 26 14) (syncVal w)]
  | 3 => [.syncSlotSet t (bits w 26 14) (syncVal w)]
  | 5 => [.setAc t (bits w 17 14) (syncVal w)]
  | _ => []

def syncOk (w : Nat) : Bool :=
  let op := bits w 31 29
  decide (op ≤ 5) && (op = 1 || op = 4 || bits w 28 27 = 0) && (decide (op < 4) || bits w 26 18 = 0) &&
    (!bit w 13 || bits w 5 0 = 0)

/-! ### Bundles (R139, R140) -/

def bundleCube (x : Nat) : Nat := bits x 255 224
def bundleEnd (x : Nat) : Bool := bit x 15
def bundleRepeat (x : Nat) : Nat := bits x 11 0

/-- The wait that holds a bundle. -/
def bundleWait (t x : Nat) : Option Instr := syncWaitSlot t (bits x 47 16)

/-- The commands of a bundle's first instance, its wait apart. -/
def bundleSlots (t x : Nat) : List Instr :=
  cubeSlot t (bundleCube x) ++ vecSlot t 0 (bits x 223 176) ++ vecSlot t 1 (bits x 175 128) ++
    scalarSlot t (bits x 127 96) ++ moveSlot t (bits x 95 48) ++ syncSlot t (bits x 47 16)

/-- Does a bundle decode statically (R155 check 0x05)? -/
def bundleOk (x bundles : Nat) (slot blk : Nat → Bool) : Bool :=
  cubeOk (bundleCube x) && vecOk (bits x 223 176) slot blk && vecOk (bits x 175 128) slot blk &&
    scalarOk (bits x 127 96) bundles && moveOk (bits x 95 48) && syncOk (bits x 47 16) && bits x 14 12 = 0

end Sys2Proof.Machine
end

