-- ==== Sys2Proof/Machine/Engine.lean ====
section
/-!
DEFINITION. What every engine's commands use: refusing, ranges of Device Addresses, masks of tiles, and record fields.
-/

namespace Sys2Proof.Machine

/-- A number with bits hi:lo replaced. -/
def putBits (x hi lo v : Nat) : Nat :=
  x / 2 ^ (hi + 1) * 2 ^ (hi + 1) + v % 2 ^ (hi + 1 - lo) * 2 ^ lo + x % 2 ^ lo

/-- A command completes REFUSED with a DETAIL; RESULT is 0. -/
def Block.refuse (c : Cmd) (status detail : Nat) (b : Block) : Block := b.completeId c.id status detail 0

/-- A command completes OK DONE. -/
def Block.done (c : Cmd) (result : Nat) (b : Block) : Block := b.completeId c.id Status.ok 0 result

/-- The index numbers of the set bits of an n-bit mask, ascending. -/
def maskList (n m : Nat) : List Nat := (List.range n).filter (fun i => bit m i)

/-- A range of local memory that a command names: refused ADDR_UNMAPPED where a byte of it does not exist, BAD_PARAM where
it lies in the host window or a peer window (R23). [log 122 DEDUCED] -/
def localStatus (da n : Nat) : Option Nat :=
  match regionOf da with
  | .host _ => some Status.badParam
  | .peer _ _ _ => some Status.badParam
  | _ => if localPopulated da n then none else some Status.addrUnmapped

/-- The same for a range that must lie in HBM. -/
def hbmStatus (da n : Nat) : Option Nat :=
  match regionOf da with
  | .hbm => if inHbm da n then none else some Status.addrUnmapped
  | .reserved => some Status.addrUnmapped
  | .tile t off => if off + n ≤ tileBytes ∧ t < 144 then some Status.badParam else some Status.addrUnmapped
  | _ => some Status.badParam

/-- Is every page of a range of populated HBM of a class that a test accepts? -/
def Block.pagesAll (b : Block) (da n : Nat) (p : Nat → Bool) : Bool :=
  inHbm da n && (pagesOf da n).all (fun g => p (b.attr g))

/-- A running command acquires a status that the log already holds (R505). -/
def Block.acquireLogged (id status : Nat) (b : Block) : Block := b.acquire id (status + loggedMark)

/-- Read local memory for a command: it acquires MEM_CORRECTED where a word was corrected; it ends with the read's
failure (R23, R259). -/
def Block.cmdRead (id da n : Nat) (k : List Byte → Block → Block) (b : Block) : Block :=
  match b.daRead da n with
  | (.ok bs corrected, b) => k bs (if corrected then b.acquireLogged id Status.memCorrected else b)
  | (.fail st d _, b) => b.completeId id st d 0

/-- Write local memory for a command: it ends with the write's failure, or acquires its warning. -/
def Block.cmdWrite (id da : Nat) (bs : List Byte) (k : Block → Block) (b : Block) : Block :=
  match b.daWrite da bs with
  | (b, none) => k b
  | (b, some st) => if statusClass st ≤ 1 then k (b.acquire id st) else b.completeId id st 0 0

/-- Response data of a command is written to its buffer, in host memory or locally, sealed for a sealed command (R59), and
the command completes. A local write that WP holds back waits with its bytes; in Shutter none reaches a parameter or optimizer page (R33, R34). -/
def Block.respond (c : Cmd) (da : Nat) (bs : List Byte) (detail result : Nat) (b : Block) : Block :=
  let out := c.sealedRsp Status.ok detail result bs
  let finish (b : Block) : Block :=
    ({ b with mer.running := b.mer.running.map (fun x => if x.id = c.id then { x with rsp := bs } else x) } : Block).completeId
      c.id Status.ok detail result
  match regionOf da with
  | .host a => finish (b.emit (.hostWrite a out))
  | _ =>
    if b.shut.shut && (pagesOf da bs.length).any (fun g => b.isState g) then b.refuse c Status.inShutter 0
    else if b.writeWaits da bs.length then
      { b with mer.running := b.mer.running.map (fun x =>
          if x.id = c.id then { x with rsp := bs, detail := detail, result := result, work := .await 10 da 0 0 } else x) }
    else b.cmdWrite c.id da out finish

/-- A response buffer in local memory or the host window. [log 122 DEDUCED] -/
def rspStatus (da n : Nat) : Option Nat :=
  match regionOf da with
  | .host _ => none
  | _ => localStatus da n

end Sys2Proof.Machine
end

