-- ==== Sys2Proof/Machine/Train.lean ====
section
/-!
DEFINITION. Training numerics (spec/13): the scale table, folding the census, overflow records, the all-finite flag and
the loss scale; the step ledgers (R379, R380).
-/

namespace Sys2Proof.Machine

/-! ### The step ledger (R379, R380) -/

def Block.ledger (b : Block) (k : Nat) : Option Ledger := b.train.ledgers.get none k
def Block.setLedger (k : Nat) (l : Option Ledger) (b : Block) : Block :=
  { b with train.ledgers := b.train.ledgers.set none k l }

/-- Every ledger, rewritten. -/
def Block.onLedgers (f : Ledger → Ledger) (b : Block) : Block :=
  { b with train.ledgers := b.train.ledgers.map (fun e => (e.1, e.2.map f)) }

def Ledger.fresh (rank : Nat) : Ledger :=
  { rank := rank, stepNext := 1, openStep := 0, stepBase := 1, roundSeed := 0, lastCut := 0, lastComplete := 0, cutSc := 0,
    ncur := 0, nstr := 0, gated := false, cursors := List.replicate 16 { pos := 0, base := 0, stride := 0 },
    streams := List.replicate 16 { ctr := 0, base := 0, draws := 0, seed := 0 } }

/-- The first 2,044 bytes of a ledger's image. -/
def Ledger.body (l : Ledger) : List Byte :=
  leBytes 4 0x4744454C ++ leBytes 2 1 ++ leBytes 2 l.rank ++ leBytes 8 l.stepNext ++ leBytes 8 l.openStep ++
    leBytes 8 l.stepBase ++ leBytes 8 l.roundSeed ++ leBytes 4 l.lastCut ++ leBytes 4 l.lastComplete ++ leBytes 8 l.cutSc ++
    leBytes 4 (fields [(16, b2n l.gated), (8, l.nstr), (0, l.ncur)]) ++ leBytes 4 0 ++
    (l.cursors.map (fun c => leBytes 8 c.pos ++ leBytes 8 c.base ++ leBytes 8 c.stride ++ leBytes 8 0)).flatten ++
    (l.streams.map (fun s => leBytes 8 s.ctr ++ leBytes 8 s.base ++ leBytes 8 s.draws ++ leBytes 8 s.seed)).flatten ++
    zeros 0x3BC

/-- The 2,048 bytes of a ledger. -/
def Ledger.bytes (l : Ledger) : List Byte := l.body ++ leBytes 4 (crc32c l.body)

/-- A ledger read from an image. -/
def Ledger.ofBytes (bs : List Byte) : Ledger :=
  let f (o n : Nat) : Nat := leNat ((bs.drop o).take n)
  { rank := f 6 2, stepNext := f 8 8, openStep := f 0x10 8, stepBase := f 0x18 8, roundSeed := f 0x20 8,
    lastCut := f 0x28 4, lastComplete := f 0x2C 4, cutSc := f 0x30 8, ncur := f 0x38 1, nstr := f 0x39 1,
    gated := bit (f 0x3A 1) 0,
    cursors := (List.range 16).map (fun i =>
      { pos := f (0x40 + 32 * i) 8, base := f (0x48 + 32 * i) 8, stride := f (0x50 + 32 * i) 8 }),
    streams := (List.range 16).map (fun i =>
      { ctr := f (0x240 + 32 * i) 8, base := f (0x248 + 32 * i) 8, draws := f (0x250 + 32 * i) 8,
        seed := f (0x258 + 32 * i) 8 }) }

/-- Are MAGIC, VERSION, reserved bits and CRC of an image correct: is it the image of the ledger it spells? -/
def ledgerImageOk (bs : List Byte) : Bool := (Ledger.ofBytes bs).bytes = bs

def u64 (x : Nat) : Nat := x % 2 ^ 64

/-- STEP_OPEN on a ledger (R380). -/
def Ledger.openS (l : Ledger) : Ledger :=
  { l with
    openStep := l.stepNext, stepNext := u64 (l.stepNext + 1),
    cursors := l.cursors.zipIdx.map (fun x => if x.2 < l.ncur then { x.1 with pos := u64 (x.1.pos + x.1.stride) } else x.1),
    streams := l.streams.zipIdx.map (fun x => if x.2 < l.nstr then { x.1 with ctr := u64 (x.1.ctr + x.1.draws) } else x.1) }

/-- The ledger as it was before its STEP_OPEN (R383). -/
def Ledger.unopen (l : Ledger) : Ledger :=
  { l with
    stepNext := l.openStep, openStep := 0,
    cursors := l.cursors.zipIdx.map (fun x =>
      if x.2 < l.ncur then { x.1 with pos := u64 (x.1.pos + 2 ^ 64 - x.1.stride) } else x.1),
    streams := l.streams.zipIdx.map (fun x =>
      if x.2 < l.nstr then { x.1 with ctr := u64 (x.1.ctr + 2 ^ 64 - x.1.draws) } else x.1) }

/-- The ledgers that exist, by hosted index. -/
def Block.ledgerList (b : Block) : List (Nat × Ledger) :=
  b.train.ledgers.filterMap (fun e => e.2.map (fun l => (e.1, l)))

/-- STEP of the live step: OPEN_STEP of hosted index 0. -/
def Block.openStep (b : Block) : Nat := match b.ledger 0 with | some l => l.openStep | none => 0

/-! ### The step record (R318) -/

/-- Bits of the step record that rules name. -/
def stepOpenBit : Nat := 428
def stepLocalBit : Nat := 429

/-- The step record as it stands in HBM, 0 with no table. -/
def Block.stepRec (b : Block) : Nat := match b.train.table with | some t => b.rd t.1 128 | none => 0

/-- The A9's own write of the step record. [log 81 DEDUCED] -/
def Block.setStepRec (r : Nat) (b : Block) : Block := match b.train.table with | some t => b.wr t.1 128 r | none => b

def Block.stepIsOpen (b : Block) : Bool := bit b.stepRec stepOpenBit

/-- A clear of LOCAL (R319, R320): the first sets NF_INDEX; one after FLAG_COMBINE's admission also makes COMBINED false
where no update engine has reached its test, and is logged. [log 81, 82 DEDUCED] -/
def Block.clearLocal (index : Nat) (b : Block) : Block :=
  let r := b.stepRec
  if !bit r stepOpenBit || !bit r stepLocalBit then b
  else
    let r := putBits (setBit r stepLocalBit false) 479 456 index
    if !b.train.flagged then b.setStepRec r
    else
      let comb := bits r 431 430
      let gate := comb = 0 || (comb = 1 && !b.train.tested)
      let b := b.setStepRec (if gate then putBits r 431 430 2 else r)
      let b := if gate then { (b.onLedgers (fun l => { l with gated := true })) with train.late := true } else b
      b.logError Status.nonfinite 0 0 0 index

/-- COMBINED as FLAG_COMBINE writes it; a late clear keeps it false (R320, R29). [log 81, 82 DEDUCED] -/
def Block.writeCombined (flag : Bool) (b : Block) : Block :=
  b.setStepRec (putBits b.stepRec 431 430 (if flag && !b.train.late then 1 else 2))

/-! ### Scale records (R311, R312) -/

def scaleAddr (base i : Nat) : Nat := base + 128 * (i + 1)
def recSlot (r k : Nat) : Nat := bits r (5 * k + 224) (5 * k + 220)
def recCode (r k : Nat) : Nat := bits r (8 * k + 247) (8 * k + 240)
def recHist (r k : Nat) : Nat := bits r (32 * k + 543) (32 * k + 512)

/-- CODE_Lk of a record (R312). -/
def Block.codeOf (b : Block) (r k : Nat) : Nat :=
  let s := recSlot r k
  if s ≤ 2 ∨ s = 9 then 0x7F
  else if 10 ≤ s ∧ (b.fmt s).kind = 0 then recCode r k
  else
    let est := (dec32 (BitVec.ofNat 32 (bits r 511 480))).dy
    if est.n = 0 then recCode r k
    else
      let a : Dy := ⟨est.n, est.e + bits r 219 216⟩
      let mx := (b.fmt s).maxfinite
      let x0 := a.floorLog2 - mx.floorLog2
      let x := if a.le ⟨mx.n, mx.e + x0⟩ then x0 else x0 + 1
      (max 0 (min 254 (127 + x))).toNat

def Block.recode (b : Block) (r : Nat) : Nat :=
  (List.range 4).foldl (fun r' k => putBits r' (8 * k + 247) (8 * k + 240) (b.codeOf r k)) r

/-- A finite, non-negative FP32 code. -/
def fp32NonNeg (c : Nat) : Bool := decide (c < 0x7F800000)

/-- Is a WRITE image of a scale record valid (R311)? -/
def Block.scaleImageOk (b : Block) (r : Nat) : Bool :=
  b.isOutSlot (recSlot r 0) &&
  [1, 2, 3].all (fun k =>
    recSlot r k = 9 ||
      (b.isOutSlot (recSlot r k) && recSlot r (k - 1) ≠ 9 &&
        (b.fmt (recSlot r (k - 1))).maxfinite.lt (b.fmt (recSlot r k)).maxfinite)) &&
  decide (1 ≤ bits r 215 211) && decide (bits r 215 211 ≤ 16) && decide (bits r 210 207 < bits r 215 211) &&
  fp32NonNeg (bits r 511 480) && (List.range 16).all (fun k => fp32NonNeg (recHist r k)) &&
  (List.range 4).all (fun k => decide (recCode r k ≤ 254)) && bits r 202 0 = 0

/-- Is a WRITE image of the step record valid (R317)? -/
def stepImageOk (r : Nat) : Bool :=
  !bit r stepOpenBit && bits r 431 430 ≠ 3 && decide (1 ≤ bits r 543 512) &&
  decide (-126 ≤ sx 8 (bits r 447 440)) && decide (sx 8 (bits r 447 440) ≤ sx 8 (bits r 455 448)) &&
  decide (sx 8 (bits r 455 448) ≤ sx 8 (bits r 439 432)) && bits r 1023 640 = 0 && bits r 427 0 = 0

/-- The default scale record and step record of INIT (R310). -/
def scaleDefault : Nat :=
  fields [(240, 0x7F7F7F7F), (220, 3), (225, 9), (230, 9), (235, 9), (211, 1)]
def stepDefault : Nat := fields [(448, 16), (432, 24), (512, 2000)]

/-! ### Folding (R313) -/

/-- The fold of a combined census into a record, the codes apart. -/
def foldInto (r : Nat) (c : Census) : Nat :=
  let r := putBits r 383 352 (bits r 383 352 + 1)
  let r := putBits r 447 384 (Nat.min (bits r 447 384 + c.sat) u64max)
  let r := putBits r 479 448 c.amax
  let p := bits r 210 207
  let r := putBits r (32 * p + 543) (32 * p + 512) c.amax
  let r := putBits r 210 207 ((p + 1) % bits r 215 211)
  let est := (List.range (bits r 215 211)).foldl (fun a k => Nat.max a (recHist r k)) 0
  let r := putBits r 511 480 est
  let r := setBit r 203 (decide (bits r 319 288 < c.sat))
  let r := setBit r 204 (bits r 287 272 ≠ 0 && decide (bits r 287 272 * c.elements < 65536 * c.zero))
  setBit r 205 (decide (0 < c.nonfinite))

/-- Does a fold call for a repetition (R313)? -/
def foldRepeats (r : Nat) (c : Census) (level : Nat) (check : Bool) : Bool :=
  check && decide (0 < c.sat) && decide (level < 3) && recSlot r (level + 1) ≠ 9

/-- Write a repetition record to the log (R317). -/
def Block.logRepetition (c : Cmd) (cs : Census) (record census old new level source : Nat) (b : Block) : Block :=
  b.logEntry {
    sc := 0, seq := 0, status := Status.overflowRepeat, kind := 1, almanac := false, unit := 0, index := c.index,
    detail := 0, info := 0,
    body := fields [(192, b.now), (128, bits b.stepRec 639 576), (96, Nat.min cs.sat (2 ^ 32 - 1)), (64, cs.amax),
      (40, record), (32, census), (24, old), (16, new), (14, level), (12, level + 1), (11, source)] }

/-- Fold a census into record `i` of the table at `base`, where the record reads `r`; `force` is the repetition that R315
has already decided. Answers the new record and whether it repeats. [log 148 DEDUCED] -/
def Block.foldRecord (c : Cmd) (base i r : Nat) (cs : Census) (level census : Nat) (check force : Bool) (b : Block) :
    Nat × Bool × Block :=
  let b := if bit r 206 && decide (0 < cs.nonfinite) then b.clearLocal i else b
  let r1 := b.recode (foldInto r cs)
  let rep := force || foldRepeats r1 cs level check
  let r2 := if rep then putBits r1 351 320 (bits r1 351 320 + 1) else r1
  let b := if rep then
      b.logRepetition c cs i census (recCode r level) (recCode r2 (level + 1)) level (if force then 0 else 1) else b
  (r2, rep, b.wr (scaleAddr base i) 128 r2)

/-- Combine n census records at a DA (R313, R315). -/
def combineCensus (bs : List Byte) (n : Nat) : Census :=
  (List.range n).foldl (fun (a : Census) j => a.add (Census.ofNat (leNat ((bs.drop (64 * j)).take 64)))) Census.empty

/-! ### SCALE_SET (R310) -/

/-- Fields of the SCALE_SET parameters. -/
def ssDa (p : Packet) : Nat := p.f 507 456
def ssIndex (p : Packet) : Nat := p.f 455 432
def ssCount (p : Packet) : Nat := p.f 431 408

/-- Must a write of the scale table wait for a page's copy (R384)? An earlier SCALE_SET that waits keeps the scale lock. -/
def Block.scaleBlocked (b : Block) (c : Cmd) (da n : Nat) : Bool :=
  b.writeWaits da n || b.mer.running.any (fun x => x.work = .scaleWait && decide (x.id < c.id))

/-- Run a SCALE_SET's write now, or let it wait. -/
def Block.scaleWrite (c : Cmd) (da n : Nat) (go : Block → Block) (b : Block) : Block :=
  if b.scaleBlocked c da n then b.setCmd { c with work := .scaleWait } else go b

def Block.scaleInit (c : Cmd) (b : Block) : Block :=
  let base := ssDa c.pkt
  let n := ssCount c.pkt
  if b.train.table.isSome || base % 128 ≠ 0 || n = 0 || n = 0xFFFFFF ||
      !b.pagesAll base (128 * (n + 1)) (fun a => attrClass a = 3) then b.refuse c Status.badParam 0
  else b.scaleWrite c base (128 * (n + 1)) (fun b =>
    let b := { b with train.table := some (base, n) }
    let b := (List.range n).foldl (fun b i => b.wr (scaleAddr base i) 128 scaleDefault) (b.setStepRec stepDefault)
    b.done c 0)

/-- WRITE of a scale record or of the step record. -/
def Block.scaleRecWrite (c : Cmd) (b : Block) : Block :=
  match b.train.table with
  | none => b.refuse c Status.badParam 0
  | some (base, n) =>
    let i := ssIndex c.pkt
    if n ≤ i ∧ i ≠ 0xFFFFFF then b.refuse c Status.badParam 0
    else
      match localStatus (ssDa c.pkt) 128 with
      | some st => b.refuse c st 0
      | none =>
        b.cmdRead c.id (ssDa c.pkt) 128 (fun bs b =>
          let r := leNat bs
          if i = 0xFFFFFF then
            if b.stepIsOpen || !stepImageOk r then b.refuse c Status.badParam 0
            else b.scaleWrite c base 128 (fun b => (b.setStepRec r).done c 0)
          else if !b.scaleImageOk r then b.refuse c Status.badParam 0
          else b.scaleWrite c (scaleAddr base i) 128 (fun b =>
            (b.wr (scaleAddr base i) 128 (if bits r 511 480 = 0 then r else b.recode r)).done c 0))

/-- FOLD (R313, R316, R324). -/
def Block.scaleFold (c : Cmd) (b : Block) : Block :=
  match b.train.table with
  | none => b.refuse c Status.badParam 0
  | some (base, n) =>
    let i := ssIndex c.pkt
    let k := ssCount c.pkt
    let level := c.pkt.f 385 384
    if n ≤ i ∨ k = 0 ∨ 4096 < k ∨ ssDa c.pkt % 64 ≠ 0 then b.refuse c Status.badParam 0
    else
      match localStatus (ssDa c.pkt) (64 * k) with
      | some st => b.refuse c st 0
      | none =>
        b.scaleWrite c (scaleAddr base i) 128 (fun b =>
          b.cmdRead c.id (ssDa c.pkt) (64 * k) (fun bs b =>
            b.cmdRead c.id (scaleAddr base i) 128 (fun rb b =>
              let cs := combineCensus bs k
              let x := b.foldRecord c base i (leNat rb) cs level 0 (bit (c.pkt.f 383 383) 0) false
              let r := x.1
              let b := x.2.2
              let b := if c.pkt.f 394 394 = 1 && !x.2.1 then b.issueAdd (c.pkt.f 407 395) 219 1 else b
              let b := if x.2.1 then b.acquireLogged c.id Status.overflowRepeat else b
              let b := if bit r 205 then b.acquire c.id Status.nonfinite else b
              let b := if bit r 203 then b.acquire c.id Status.saturated else b
              let detail := fields [(0, b2n x.2.1), (1, b2n (bit r 203)), (2, b2n (bit r 204)), (3, b2n (bit r 205))]
              b.completeId c.id Status.ok detail
                (fields [(32, Nat.min cs.sat (2 ^ 32 - 1)), (0, bits r 271 240)]))))

/-- BIND (R315). -/
def Block.scaleBind (c : Cmd) (b : Block) : Block :=
  let i := ssIndex c.pkt
  let cen := c.pkt.f 393 386
  match b.train.table with
  | none => b.refuse c Status.badParam 0
  | some (_, n) =>
    if i = 0xFFFFFF then { b with train.binds := b.train.binds.set none cen none }.done c 0
    else if n ≤ i then b.refuse c Status.badParam 0
    else { b with train.binds := b.train.binds.set none cen (some i) }.done c 0

/-- STEP_OPEN (R318, R380). -/
def Block.stepOpen (c : Cmd) (b : Block) : Block :=
  let ls := b.ledgerList
  match b.train.table, ls.head? with
  | some (base, _), some (_, l0) =>
    if b.stepIsOpen || !b.train.invalid.isEmpty || ls.any (fun l => l.2.stepNext ≠ l0.stepNext) then
      b.refuse c Status.badParam 0
    else b.scaleWrite c base 128 (fun b =>
      let old := b.stepRec
      let b := b.onLedgers Ledger.openS
      let b := { b with train := { b.train with
        flagged := false, late := false, tested := false, before := old, updStep := l0.stepNext, updStarted := 0,
        updFinal := 0, finals := [] } }
      let r := putBits (setBit (setBit old stepOpenBit true) stepLocalBit true) 431 430 0
      let r := putBits (putBits r 479 456 0xFFFFFF) 639 576 b.openStep
      (b.setStepRec r).done c 0)
  | _, _ => b.refuse c Status.badParam 0

/-- The step record as STEP_CLOSE leaves it (R320). -/
def stepClosed (r : Nat) : Nat :=
  let good := bits r 543 512   -- GROWTH_INTERVAL
  let ls := sx 8 (bits r 455 448)
  let r := setBit r stepOpenBit false
  if bits r 431 430 = 1 then
    let g := bits r 575 544 + 1
    if good ≤ g then
      let ls := if ls = sx 8 (bits r 439 432) then ls else ls + 1
      putBits (putBits r 575 544 0) 455 448 (wrap 8 ls)
    else putBits r 575 544 g
  else
    let ls := max (sx 8 (bits r 447 440)) (ls - 1)
    putBits (putBits (putBits r 575 544 0) 455 448 (wrap 8 ls)) 511 480 (bits r 511 480 + 1)

def Block.stepClose (c : Cmd) (b : Block) : Block :=
  match b.train.table with
  | some (base, _) =>
    if !b.stepIsOpen || bits b.stepRec 431 430 = 0 then b.refuse c Status.badParam 0
    else b.scaleWrite c base 128 (fun b =>
      let r := stepClosed b.stepRec
      let b := (b.setStepRec r).onLedgers (fun l => { l with openStep := 0 })
      b.done c (fields [(0, bits r 455 448), (32, bits r 575 544)]))
  | none => b.refuse c Status.badParam 0

/-- Try every SCALE_SET that waits again, in dispatch order (R384). The start of each is handed in. -/
def Block.retryScale (start : Cmd → Block → Block) (b : Block) : Block :=
  (b.mer.running.filter (fun c => c.work = .scaleWait)).foldl (fun b c =>
    start { c with work := .none } (b.setCmd { c with work := .none })) b

/-- The actions of SCALE_SET. [log 80 DEDUCED] -/
def Block.startScale (c : Cmd) (b : Block) : Block :=
  match c.pkt.f 511 508 with
  | 0 => b.scaleInit c
  | 1 => b.scaleRecWrite c
  | 2 => b.scaleFold c
  | 3 => b.scaleBind c
  | 4 => b.stepOpen c
  | 5 => b.stepClose c
  | _ => b.refuse c Status.badParam 0

end Sys2Proof.Machine
end

