-- ==== Sys2Proof/Machine/Program.lean ====
section
/-!
DEFINITION. Tile programs (R153 to R164): loading images, RUN and its start, the finish of tiles with overflow repetition
(R160, R315), and PREEMPT with its saves. The Filter Wheel's FW_WRITE (R104 to R106).
-/

namespace Sys2Proof.Machine

/-! ### The Filter Wheel (R102 to R106) -/

/-- CRC-32C over the 256 bytes of the entries (R104). -/
def Block.fwCrc (b : Block) : Nat := crc32c (((List.range 32).map (fun n => leBytes 8 (b.fwEntry n))).flatten)

/-- FW_TABLE_REV (R106). -/
def Block.fwRev (b : Block) : Nat := 0x1000 + b.fw.changes

/-- Is an entry valid for a user slot (R102)? -/
def fwEntryOk (w : Nat) : Bool :=
  let f := fmtOf w
  if f.kind = 0 then w = 0
  else
    f.kind = 1 && bits w 63 48 = 0 && bits w 15 0 = 0 && f.width = b2n f.signed + f.ew + f.mw && decide (2 ≤ f.width) &&
    decide (f.width ≤ 8) && decide (1 ≤ f.ew) && decide (1 ≤ f.mw) && decide (f.special ≤ 2) &&
    (f.special ≠ 2 || decide (2 ≤ f.ew)) && (f.sat ≠ 1 || f.special = 2) && (f.sat ≠ 2 || f.special ≠ 0) &&
    decide (f.sat ≤ 2) && decide (f.bias ≤ 127) && decide (f.emax ≤ 127)

/-- User slots in use by dispatched commands (R105). -/
def Block.fmtsBusy (b : Block) : Nat := b.mer.running.foldl (fun a c => a ||| c.fmts) 0

/-- FW_WRITE (R104); its length was checked at step 8. [log 30 DEDUCED] -/
def Block.startFwWrite (c : Cmd) (b : Block) : Block :=
  let mask := c.pkt.f 31 0
  let slots := maskList 32 mask
  let ent (i : Nat) : Nat := c.pkt.f (64 * i + 127) (64 * i + 64)
  match (maskList 10 mask).head? with
  | some i => b.refuse c Status.badParam i
  | none =>
    match slots.zipIdx.find? (fun x => !fwEntryOk (ent x.2)) with
    | some x => b.refuse c Status.badParam x.1
    | none =>
      match slots.find? (fun n => bit b.fmtsBusy n) with
      | some n => b.refuse c Status.fwSlotBusy n
      | none =>
        let new := slots.zipIdx.foldl (fun m x => m.set 0 x.1 (ent x.2)) b.fw.slots
        let changed := decide (new ≠ b.fw.slots)
        let b := { b with fw := { slots := new, changes := if changed then (b.fw.changes + 1) % 4096 else b.fw.changes } }
        let b := if changed then b.almanacChange Status.ok 0 c.index 0 0 else b
        b.done c (fields [(48, b.fwRev), (0, b.fwCrc)])

/-! ### Images (R153 to R155) -/

def Image.count (m : Image) : Nat := bits m.header 95 64
def Image.entry (m : Image) : Nat := bits m.header 127 96
def Image.crc (m : Image) : Nat := bits m.header 159 128
def Image.formats (m : Image) : Nat := bits m.header 191 160
/-- [log 42 DEDUCED] -/
def Image.fallback (m : Image) : Nat := bits m.header 299 296
def Image.level (m : Image) : Nat := bits m.header 301 300
def Image.localSync (m : Image) : Bool := bit m.header 303
def Image.variant (m : Image) : Nat := bits m.header 335 304
def Image.constTs (m : Image) : Nat := bits m.header 295 272

/-- Handles that an image of n bundles at a handle occupies (R154). -/
def handlesOf (h n : Nat) : List Nat := (List.range (ceilDiv n 2048)).map (· + h)
def Image.handles (m : Image) : List Nat := handlesOf m.handle m.count

def Tile.image (x : Tile) (h : Nat) : Option Image := x.images.find? (fun m => m.handle = h)
/-- The image a tile runs. -/
def Tile.running (x : Tile) : Option Image := x.image x.handle

/-- The fallback chain from a handle, the image itself first (R155, R160). -/
def Tile.chain (x : Tile) : Nat → Nat → List Image
  | 0, _ => []
  | fuel + 1, h =>
    match x.image h with
    | some m => m :: x.chain fuel m.fallback
    | none => []

/-- Checks 0x01 to 0x0A of an image: the reason and the DETAIL bits above it, of the first that fails. A user slot may stand
where a block-scaled element slot may; whether it is defined is a check of RUN (R103, R155). [log 41, 42 DEDUCED] -/
def imageFault (h hd : Nat) (body : List Byte) : Option (Nat × Nat) :=
  let n := bits hd 95 64
  let cg := bits hd 271 256
  let bundle (i : Nat) : Nat := leNat ((body.drop (32 * i)).take 32)
  let named (s : Nat) : Bool := bit (bits hd 191 160) s
  let elem (s : Nat) : Bool := decide (3 ≤ s) && decide (s ≤ 31) && decide (s ≠ 9)
  if bits hd 31 0 ≠ 0x4D495054 ∨ bits hd 47 32 ≠ 1 ∨ bits hd 63 48 ≠ 128 then some (1, 0)
  else if bits hd 159 128 ≠ crc32c body then some (2, 0)
  else if n = 0 ∨ 2048 * (8 - h) < n then some (3, 0)
  else if n ≤ bits hd 127 96 then some (4, 0)
  else
    match (List.range n).find? (fun i => !bundleOk (bundle i) n named elem) with
    | some i => some (5, i)
    | none =>
      if (List.range n).all (fun i => !bundleEnd (bundle i)) then some (6, 0)
      else if bits hd 239 224 ≠ 28 then some (7, 0)
      else if bit hd 302 && (bits hd 255 240 = 0 || decide (4096 < bits hd 255 240)) then some (8, 0)
      else if 1024 < cg ∨ bits hd 295 272 % 64 ≠ 0 ∨ tileBytes < bits hd 295 272 + 64 * cg then some (9, 0)
      else if (bits hd 299 296 ≠ 15 && (handlesOf h n).contains (bits hd 299 296)) ||
          (bits hd 301 300 = 3 && bits hd 299 296 ≠ 15) then some (10, 0)
      else none

/-- Does a running RUN on a tile use one of some handles (check 0x0B)? Its fallback chain counts. -/
def Block.handlesUsed (b : Block) (t : Nat) (hs : List Nat) : Bool :=
  match (b.tile t).run.bind b.cmd with
  | some c =>
    match c.work with
    | .run w => ((b.tile t).chain 4 w.handle).any (fun m => m.handles.any hs.contains) ||
        (((b.tile t).running.map (fun m => m.handles.any hs.contains)).getD false)
    | _ => false
  | none => false

/-- PROG_LOAD (R154, R155). -/
def Block.startProgLoad (c : Cmd) (b : Block) : Block :=
  let tiles := maskList 144 (c.pkt.f 255 112)
  let h := c.pkt.f 67 64
  let da := c.pkt.f 51 0
  if 8 ≤ h ∨ da % 64 ≠ 0 then b.refuse c Status.badParam 0
  else
    match hbmStatus da 128 with
    | some st => b.refuse c st 0
    | none =>
      b.cmdRead c.id da 128 (fun hb b =>
        let hd := leNat hb
        let n := 32 * bits hd 95 64 + 64 * bits hd 271 256
        if bits hd 31 0 ≠ 0x4D495054 ∨ bits hd 47 32 ≠ 1 ∨ bits hd 63 48 ≠ 128 then b.refuse c Status.imageRefused 1
        else if !inHbm da (128 + n) then b.refuse c Status.addrUnmapped 0
        else
          b.cmdRead c.id (da + 128) n (fun body b =>
            match imageFault h hd body with
            | some (r, d) => b.refuse c Status.imageRefused (fields [(0, r), (8, d)])
            | none =>
              let hs := handlesOf h (bits hd 95 64)
              if tiles.any (fun t => b.handlesUsed t hs) then b.refuse c Status.imageRefused 0x0B
              else
                let m : Image := {
                  handle := h, header := hd,
                  bundles := (List.range (bits hd 95 64)).map (fun i => leNat ((body.drop (32 * i)).take 32)),
                  consts := body.drop (32 * bits hd 95 64) }
                let b := tiles.foldl (fun b t => b.onTile t (fun x =>
                  { x with images := x.images.filter (fun y => !y.handles.any hs.contains) ++ [m] })) b
                b.done c m.crc))

/-! ### RUN (R155 to R157) -/

def runTiles (p : Packet) : List Nat := maskList 144 (p.f 255 112)
def runHandle (p : Packet) : Nat := p.f 111 108
def runSave (p : Packet) : Nat := p.f 51 0
/-- Save area of the k-th tile of a RUN (R162). -/
def saveArea (base k : Nat) : Nat := base + k * 0xC40000

/-- The image of a level in a chain. -/
def chainLevel (ms : List Image) (l : Nat) : Option Image := ms.find? (fun m => m.level = l)

/-- Does the save block of a tile match (R164)? -/
def Block.saveMatches (b : Block) (t da h : Nat) : Bool :=
  let lv := bits (b.rd (da + 0xC) 4) 19 18
  b.rd da 4 = 0x54584354 &&
    (match chainLevel ((b.tile t).chain 4 h) lv with
     | some m => m.crc = b.rd (da + 4) 4
     | none => false)

/-- Checks 0x0C to 0x10 of a RUN. -/
def Block.runFault (b : Block) (p : Packet) : Option Nat :=
  let ts := runTiles p
  let h := runHandle p
  let ovf := bit p.pnum 106
  let chain (t : Nat) : List Image := (b.tile t).chain 4 h
  let crc (t : Nat) : Option Nat := ((b.tile t).image h).map Image.crc
  let first := ((ts.head?.map chain).getD []).head?
  if ts.any (fun t => (crc t).isNone || decide (crc t ≠ first.map Image.crc)) then some 0x0C
  else
    match first with
    | none => some 0x0C
    | some m =>
      if bits m.header 223 192 ≠ 0 ∧ bits m.header 223 192 ≠ b.fwCrc then some 0x0D
      else if ovf && ts.any (fun t =>
          let c := chain t
          (c.getLast?.map Image.fallback) ≠ some 15 ||
            (c.zip (c.drop 1)).any (fun x => decide (x.2.level ≤ x.1.level) || x.2.variant ≠ x.1.variant ||
              !x.2.localSync)) then some 0x0E
      else if bit p.pnum 107 && (runSave p = 0 || ts.zipIdx.any (fun x => !b.saveMatches x.1 (saveArea (runSave p) x.2) h))
        then some 0x0F
      else if ovf && !m.localSync then some 0x10
      else none

/-- Filter Wheel slots that a RUN's images name (R105). [log 41 DEDUCED] -/
def Block.runFormats (b : Block) (p : Packet) : Nat :=
  (runTiles p).foldl (fun a t => ((b.tile t).chain (if bit p.pnum 106 then 4 else 1) (runHandle p)).foldl
    (fun a m => a ||| m.formats) a) 0

/-- RUN (R156): checked and queued on its tiles. [log 47 DEDUCED] -/
def Block.startRun (c : Cmd) (b : Block) : Block :=
  let p := c.pkt
  let ts := runTiles p
  let save := runSave p
  let fmts := b.runFormats p
  if ts.isEmpty ∨ 8 ≤ runHandle p ∨ save % 0x10000 ≠ 0 then b.refuse c Status.badParam 0
  else
    match (if save = 0 then none else hbmStatus save (0xC40000 * ts.length)) with
    | some st => b.refuse c st 0
    | none =>
      match b.runFault p with
      | some r => b.refuse c Status.imageRefused r
      | none =>
        if (maskList 32 fmts).any (fun n => (b.fmt n).kind = 0) || ts.any (fun t => (b.tile t).st = 2) ||
            (bit p.pnum 106 && (b.train.binds.get none (p.f 105 98)).isNone) then b.refuse c Status.badParam 0
        else
          b.setCmd { c with
            fmts := fmts,
            work := .run {
              tiles := ts, handle := runHandle p, level := 0, resume := bit p.pnum 107, ovfEn := bit p.pnum 106,
              ovfCensus := p.f 105 98, waitLimit := p.f 95 64, saveDa := save,
              args := (List.range 16).map (fun i => p.f (32 * i + 287) (32 * i + 256)), started := false, finished := [],
              maxCycles := 0, frozen := 0, preempt := [], saved := [], regen := none } }

/-! ### The start of a RUN (R157, R164) -/

/-- Tiles a command is to run on, while it waits for them or holds them. -/
def Cmd.tileList (c : Cmd) : List Nat :=
  match c.work with
  | .run w => w.tiles
  | .conv ts _ => ts
  | .attn w => w.tiles
  | _ => []

/-- May a command that waits for its tiles take them now: each is free, and no earlier command waits for one (R56, R157)?
[log 47 DEDUCED] -/
def Block.tilesReady (b : Block) (c : Cmd) : Bool :=
  c.tileList.all (fun t => (b.tile t).isFree) &&
    (b.mer.running.takeWhile (fun x => x.id ≠ c.id)).all (fun x => x.tileList.all (fun t => !c.tileList.contains t))

/-- A tile's state at the start of an image (R157, R187). -/
def Block.startTile (t id : Nat) (m : Image) (args : List Nat) (stop : Bool) (b : Block) : Block :=
  let x := b.tile t
  let y : Tile := {
    Tile.zero with
    st := x.st, phys := x.phys, badRow := x.badRow, images := x.images, nextMove := x.nextMove, run := some id,
    handle := m.handle, pc := m.entry, stopping := stop, fresh := true,
    sregs := args.zipIdx.foldl (fun s a => s.set 0 (16 + a.2) (BitVec.ofNat 32 a.1)) [] }
  (b.setTile t y).memWrite (tileDa t + m.constTs) m.consts

/-- Restore a tile from its save area (R163, R164). [log 37 DEDUCED] -/
def Block.resumeTile (t id : Nat) (m : Image) (stop : Bool) (bs : List Byte) (b : Block) : Block :=
  let x := b.tile t
  let f (o n : Nat) : Nat := leNat ((bs.drop o).take n)
  let w := f 0xC 4
  let y : Tile := {
    Tile.zero with
    st := x.st, phys := x.phys, badRow := x.badRow, images := x.images, nextMove := x.nextMove, run := some id,
    handle := m.handle, pc := f 8 4, stopping := stop, cyc := f 0x10 8, fresh := true, ended := decide (m.count ≤ f 8 4),
    issueCyc := if m.count ≤ f 8 4 then some (f 0x10 8) else none,
    first := decide (bits w 11 0 = (bundleRepeat (m.bundles.getD (f 8 4) 0) + 1) % 4096),
    repLeft := if bits w 11 0 = 0 then 4096 else bits w 11 0,
    ac := (List.range 16).foldl (fun s i => s.set 0 i (BitVec.ofNat 32 (f (0x40 + 4 * i) 4))) [],
    dregs := (List.range 28).foldl (fun s i =>
      s.set 0 i (BitVec.ofNat 128 (f (if i < 16 then 0x80 + 16 * i else if i < 24 then 0x180 + 16 * (i - 16)
        else 0x200 + 16 * (i - 24)) 16))) [],
    sregs := (List.range 128).foldl (fun s i => s.set 0 i (BitVec.ofNat 32 (f (0x400 + 4 * i) 4))) [],
    vregs := (List.range 64).foldl (fun s i => s.set 0 i (BitVec.ofNat 16384 (f (0x10000 + 2048 * i) 2048))) [],
    census := (List.range 256).foldl (fun s i =>
      s.set Census.empty i (Census.ofNat (f (0x30000 + 64 * i) 64))) [],
    masks := (List.range 7).foldl (fun s i => s.set 0 (i + 1) (BitVec.ofNat 512 (f (0x34040 + 64 * i) 64))) [] }
  (b.setTile t y).memWrite (tileDa t) (bs.drop 0x40000)

/-- Start every tile of a RUN anew on an image's handle. -/
def Block.startTiles (id h : Nat) (w : RunWork) (b : Block) : Block :=
  w.tiles.foldl (fun b t =>
    match (b.tile t).image h with
    | some m => b.startTile t id m w.args (!w.preempt.isEmpty)
    | none => b) b

/-- Read local memory for a RUN: a failure ends the RUN and releases its tiles (R23, R259). -/
def Block.runRead (id da n : Nat) (k : List Byte → Block → Block) (b : Block) : Block :=
  match b.daRead da n with
  | (.ok bs corrected, b) => k bs (if corrected then b.acquireLogged id Status.memCorrected else b)
  | (.fail st d _, b) => b.endRun id st d 0

/-- Resume every tile of a RUN from its save area. -/
def Block.resumeTiles (id : Nat) (w : RunWork) (b : Block) : Block :=
  w.tiles.zipIdx.foldl (fun b x =>
    let da := saveArea w.saveDa x.2
    if (b.cmd id).isNone then b else
    b.runRead id da 0xC40000 (fun bs b =>
      match chainLevel ((b.tile x.1).chain 4 w.handle) (bits (leNat ((bs.drop 0xC).take 4)) 19 18) with
      | some m => b.resumeTile x.1 id m (!w.preempt.isEmpty) bs
      | none => b)) b

/-- The level a RUN's first tile runs. -/
def Block.runLevel (b : Block) (w : RunWork) : Nat :=
  (((w.tiles.head?.bind (fun t => (b.tile t).running)).map Image.level).getD 0)

/-- The first RUN in dispatch order that can start now, starts (R157). -/
def Block.runStart (b : Block) : Block :=
  let ready (c : Cmd) : Bool := match c.work with | .run w => !w.started && b.tilesReady c | _ => false
  match b.mer.running.find? ready with
  | none => b
  | some c =>
    match c.work with
    | .run w =>
      let w := { w with started := true }
      let b := b.setWork c.id (.run w)
      let b := if w.resume then b.resumeTiles c.id w else b.startTiles c.id w.handle w
      b.setWork c.id (.run { w with level := b.runLevel w })
    | _ => b

/-! ### The finish of a tile (R158, R160, R315) -/

/-- Has every operation a tile issued finished (R158)? -/
def Block.quiet (b : Block) (t : Nat) : Bool :=
  let x := b.tile t
  x.moves.isEmpty && x.drain.isNone && x.pend.isEmpty && x.acc.isEmpty && decide (x.frozen = 0 ∧ b.outstanding t = 0)

/-- The combined OVF_CENSUS record of a RUN's tiles. -/
def Block.runCensus (b : Block) (w : RunWork) : Census :=
  w.tiles.foldl (fun (a : Census) t => a.add ((b.tile t).censusAll w.ovfCensus)) Census.empty

/-- The last tile of a RUN has finished: repeat it in its fallback image, or complete it. [log 29, 43, 148 DEDUCED] -/
def Block.runDone (c : Cmd) (w : RunWork) (b : Block) : Block :=
  let cs := b.runCensus w
  let img := (w.tiles.head?.bind (fun t => (b.tile t).running))
  let fall := (img.map Image.fallback).getD 15
  let complete (b : Block) : Block :=
    b.endRun c.id Status.ok w.level (fields [(32, Nat.min w.maxCycles (2 ^ 32 - 1)), (0, Nat.min w.frozen (2 ^ 32 - 1))])
  if w.ovfEn && decide (0 < cs.sat) && fall ≠ 15 then
    match b.train.table, b.train.binds.get none w.ovfCensus with
    | some (base, _), some i =>
      b.runRead c.id (scaleAddr base i) 128 (fun rb b =>
        let x := b.foldRecord c base i (leNat rb) cs w.level w.ovfCensus false true
        let w := { w with finished := [], maxCycles := 0, frozen := 0, handle := w.handle }
        let b := (x.2.2.acquireLogged c.id Status.overflowRepeat).startTiles c.id fall w
        match b.cmd c.id with
        | some c => b.setWork c.id (.run { w with level := b.runLevel w })
        | none => b)
    | _, _ => complete b
  else complete b

/-- TILE_FINISH. [log 1 DESIGN CHOICE; 36 DEDUCED] -/
def Block.tileFinish (t : Nat) (b : Block) : Block :=
  let x := b.tile t
  match x.run.bind b.cmd with
  | none => b
  | some c =>
    match c.work with
    | .run w =>
      if !x.ended || x.stopped || w.finished.contains t || !b.quiet t then b
      else
        let w := { w with
          finished := t :: w.finished, maxCycles := Nat.max w.maxCycles (x.issueCyc.getD x.cyc), frozen := w.frozen + x.frozenTotal }
        let last := decide (w.tiles.length ≤ w.finished.length)
        let blocked := last && w.ovfEn && decide (0 < (b.runCensus w).sat) && (match b.train.table with
          | some (base, _) =>
            ((b.train.binds.get none w.ovfCensus).map (fun i => b.writeWaits (scaleAddr base i) 128)).getD false
          | none => false)
        if blocked then b
        else
          let b := (b.finishOps t).setWork c.id (.run w)
          if last then b.runDone { c with work := .run w } w else b
    | _ => b

/-! ### PREEMPT (R133, R161 to R163) -/

def Block.startPreempt (c : Cmd) (b : Block) : Block :=
  let ts := maskList 144 (c.pkt.f 255 112)
  let hit (x : Cmd) : Bool := match x.work with
    | .run w => w.started && w.regen.isNone && w.tiles.any ts.contains
    | _ => false
  let runs := b.mer.running.filter hit
  if runs.any (fun x => match x.work with | .run w => w.saveDa = 0 | _ => false) then b.refuse c Status.badParam 0
  else if runs.isEmpty then b.done c 0
  else
    let b := runs.foldl (fun b x =>
      match x.work with
      | .run w =>
        let b := b.setWork x.id (.run { w with preempt := c.id :: w.preempt })
        w.tiles.foldl (fun b t => b.onTile t (fun y => { y with stopping := true })) b
      | _ => b) b
    b.setWork c.id (.preempt (runs.map (·.id)) 0)

/-- Is a tile at a boundary (R133)? Between the delay bundles of a taken branch it is not: the save block has no place for
the branch. [log 35 DEDUCED] -/
def Tile.atBoundary (x : Tile) : Bool :=
  (List.range 4).all (fun g => (x.group g).state = .closed) && x.rerun.isEmpty && !x.switching && x.drain.isNone &&
    x.branch.isNone && !x.issued

/-- [log 35 DEDUCED] -/
def Block.preemptBoundary (t : Nat) (b : Block) : Block :=
  let x := b.tile t
  if x.run.isSome && x.stopping && !x.stopped && x.atBoundary then
    b.setTile t { x with stopped := true, issueCyc := x.issueCyc.or (some x.cyc) } else b

/-- The save block of a tile (R163, R187). [log 36, 37 DEDUCED] -/
def Block.saveBlock (b : Block) (t : Nat) : List Byte :=
  let x := b.tile t
  let m := x.running
  let n := (m.map Image.count).getD 0
  let due := (if x.first then bundleRepeat ((m.map (fun m => m.bundles.getD x.pc 0)).getD 0) + 1 else x.repLeft) % 4096
  let dr (i : Nat) : List Byte := leBytes 16 (x.dreg i)
  leBytes 4 0x54584354 ++ leBytes 4 ((m.map Image.crc).getD 0) ++ leBytes 4 (if x.ended then n else x.pc) ++
    leBytes 4 (fields [(18, (m.map Image.level).getD 0), (0, if x.ended then 0 else due)]) ++ leBytes 8 (x.issueCyc.getD x.cyc) ++ zeros 0x28 ++
    ((List.range 16).map (fun i => leBytes 4 (x.acVal i))).flatten ++
    ((List.range 16).map dr).flatten ++ ((List.range 8).map (fun i => dr (16 + i))).flatten ++
    ((List.range 4).map (fun i => dr (24 + i))).flatten ++ zeros 0x1C0 ++
    ((List.range 128).map (fun i => leBytes 4 (x.sreg (i / 32) (i % 32)))).flatten ++ zeros 0xFA00 ++
    ((List.range 64).map (fun i => leBytes 2048 (x.vreg i))).flatten ++
    ((List.range 256).map (fun i => leBytes 64 (x.censusAll i).toNat)).flatten ++ zeros 0x40 ++
    ((List.range 7).map (fun i => leBytes 64 (x.mask (i + 1)))).flatten ++ zeros 0xBE00

/-- PREEMPT_SAVE_DONE: the save area of a stopped tile is written once its operations have finished; with the last one the
RUN completes ABORTED PREEMPTED. [log 48 DEDUCED] -/
def Block.saveDone (t : Nat) (b : Block) : Block :=
  let x := b.tile t
  match x.run.bind b.cmd with
  | none => b
  | some c =>
    match c.work with
    | .run w =>
      let da := saveArea w.saveDa (w.tiles.idxOf t)
      if !x.stopped || w.saved.contains t || !b.quiet t || b.writeWaits da 0xC40000 then b
      else
        let b := b.finishOps t
        match b.tsRead t 0 tileBytes with
        | (none, b) => b.progFault t 0x08 0 none
        | (some ts, b) =>
          match b.daWrite da (b.saveBlock t ++ ts) with
          | (b, some st) => b.endRun c.id st 0 0
          | (b, none) =>
            let w := { w with saved := t :: w.saved }
            let b := b.setWork c.id (.run w)
            if w.tiles.all w.saved.contains then
              let waited := w.tiles.foldl (fun a u => Nat.max a (b.tile u).stopWait) 0
              b.endRun c.id Status.preempted (if 4096 < waited then Nat.min waited (2 ^ 32 - 1) else 0) 0
            else b
    | _ => b

/-! ### Meanings of the rows -/

def execTileFinish (t : Nat) (s : State) : Host.Outcome State Fault Refusal := s.run (Block.tileFinish t)
def execPreemptBoundary (t : Nat) (s : State) : Host.Outcome State Fault Refusal := s.run (Block.preemptBoundary t)
def execPreemptSaveDone (t : Nat) (s : State) : Host.Outcome State Fault Refusal := s.run (Block.saveDone t)

end Sys2Proof.Machine
end

