-- ==== Sys2Proof/Machine/Conv.lean ====
section
/-!
DEFINITION. The Window Convolution Engine (spec/08): the descriptor of CONV3D and CONV3D_T, coordinates and padding,
skipped taps, the value of every output cell, the output layout, and the completion.
-/

namespace Sys2Proof.Machine

/-! ### The descriptor (R195 to R198) -/

structure Axis where
  inn : Nat
  out : Nat
  padLo : Nat
  padHi : Nat
  k : Nat
  stride : Nat
  dil : Nat
  outPad : Nat
  mode : Nat
  causal : Bool
deriving DecidableEq, Repr

def Axis.of (x : Nat) : Axis :=
  { inn := bits x 127 112, out := bits x 111 96, padLo := bits x 95 80, padHi := bits x 79 64, k := bits x 63 56,
    stride := bits x 55 48, dil := bits x 47 40, outPad := bits x 39 32, mode := bits x 31 30, causal := bit x 29 }

/-- A tensor record (R198). -/
structure Tens where
  eda : Nat
  sda : Nat
  sn : Nat
  st : Nat
  sh : Nat
  ssn : Nat
  sst : Nat
  ssh : Nat
deriving DecidableEq, Repr

def Tens.of (x : Nat) : Tens :=
  { eda := bits x 255 204, sda := bits x 203 152, sn := bits x 151 120, st := bits x 119 92, sh := bits x 91 72,
    ssn := bits x 71 44, sst := bits x 43 20, ssh := bits x 19 0 }

structure Conv where
  trans : Bool
  tiles : List Nat
  groups : Nat
  cout : Nat
  cin : Nat
  n : Nat
  stripW : Nat
  lb : Nat
  wb : Nat
  ob : Nat
  census : Nat
  tscale : Nat
  inSlot : Nat
  wSlot : Nat
  outSlot : Nat
  block : Nat
  rule : Nat
  biasEn : Bool
  flip : Bool
  censusDa : Nat
  biasDa : Nat
  t : Axis
  h : Axis
  w : Axis
  padElem : Nat
  padScale : Nat
  wda : Nat
  wsda : Nat
  wstride : Nat
  inp : Tens
  outp : Tens
deriving DecidableEq, Repr

def Conv.of (p : Packet) : Conv :=
  let f (hi lo : Nat) : Nat := p.f hi lo
  { trans := p.opcode = 0x0301, tiles := maskList 144 (f 511 368), groups := f 367 352, cout := f 351 336,
    cin := f 335 320, n := f 319 304, stripW := f 303 288, lb := f 287 264, wb := f 263 240, ob := f 239 216,
    census := f 191 184, tscale := f 183 176, inSlot := f 175 171, wSlot := f 170 166, outSlot := f 165 161,
    block := f 160 158, rule := f 157 156, biasEn := bit p.pnum 155, flip := bit p.pnum 154, censusDa := f 153 102,
    biasDa := f 101 50, t := Axis.of (f 639 512), h := Axis.of (f 767 640), w := Axis.of (f 895 768),
    padElem := f 1023 1008, padScale := f 1007 1000, inp := Tens.of (f 1279 1024), wda := f 1535 1484,
    wsda := f 1483 1432, wstride := f 1431 1408, outp := Tens.of (f 1791 1536) }

/-- BW and BH of a BLOCK code (R190). -/
def Conv.bw (d : Conv) : Nat := [8, 12, 16, 24, 32, 48, 96].getD d.block 1
def Conv.bh (d : Conv) : Nat := 96 / d.bw
def Conv.cinG (d : Conv) : Nat := d.cin / d.groups
def Conv.coutG (d : Conv) : Nat := d.cout / d.groups
def Conv.kg (d : Conv) : Nat := d.t.k * d.h.k * d.w.k * d.cinG
/-- CB (R191). -/
def Block.convCb (b : Block) (d : Conv) : Nat := if b.isBlockSlot d.inSlot || b.isBlockSlot d.wSlot then 32 else 16
/-- Bytes of one position of a tensor of c channels (R192). -/
def Block.posBytes (b : Block) (slot c : Nat) : Nat := c * (b.fmt slot).width / 8

/-! ### Coordinates (R199 to R201) -/

/-- Input dilation and direct stride. -/
def Axis.inDil (a : Axis) (tr : Bool) : Nat := if tr then a.stride else 1
def Axis.dirStride (a : Axis) (tr : Bool) : Nat := if tr then 1 else a.stride
def Axis.span (a : Axis) : Nat := a.dil * (a.k - 1)
def Axis.pl (a : Axis) : Nat := if a.causal then a.span else a.padLo
def Axis.ph (a : Axis) : Nat := if a.causal then 0 else a.padHi
def Axis.dirLo (a : Axis) (tr : Bool) : Int := if tr then (a.span : Int) - a.pl else a.pl
def Axis.dirHi (a : Axis) (tr : Bool) : Int := if tr then (a.span : Int) - a.ph + a.outPad else a.ph
def Axis.virt (a : Axis) (tr : Bool) : Nat := (a.inn - 1) * a.inDil tr + 1

/-- The output extent (R200). -/
def Axis.extent (a : Axis) (tr : Bool) : Int :=
  ((a.virt tr : Int) + a.dirLo tr + a.dirHi tr - a.span - 1) / (a.dirStride tr : Int) + 1

/-- The weight tap an effective tap reads. -/
def Axis.tap (a : Axis) (rev : Bool) (e : Nat) : Nat := if rev then a.k - 1 - e else e

/-- What one axis reads for an output coordinate at an effective tap: a sample, a hole, or padding. -/
inductive AxRead where
  | sample (i : Nat) | hole | zero | const
deriving DecidableEq, Repr

def Axis.read (a : Axis) (tr : Bool) (o e : Nat) : AxRead :=
  let v : Int := (o : Int) * a.dirStride tr - a.dirLo tr + (e * a.dil : Nat)
  if 0 ≤ v ∧ v < a.virt tr then
    if v.toNat % a.inDil tr = 0 then .sample (v.toNat / a.inDil tr) else .hole
  else
    match a.mode with
    | 0 => .zero
    | 1 => .const
    | _ => .sample (if v < 0 then 0 else a.inn - 1)

/-- What a position reads at a tap, the axes resolved in the order T, H, W (R201). -/
inductive PosRead where
  | sample (t h w : Nat) | zero | const
deriving DecidableEq, Repr

def Conv.read (d : Conv) (ot oh ow et eh ew : Nat) : PosRead :=
  match d.t.read d.trans ot et with
  | .hole => .zero
  | .zero => .zero
  | .const => .const
  | .sample t =>
    match d.h.read d.trans oh eh with
    | .hole => .zero
    | .zero => .zero
    | .const => .const
    | .sample h =>
      match d.w.read d.trans ow ew with
      | .hole => .zero
      | .zero => .zero
      | .const => .const
      | .sample w => .sample t h w

/-! ### Addresses (R192, R193) -/

def Tens.pos (x : Tens) (pb n t h w : Nat) : Nat := x.eda + 64 * (n * x.sn + t * x.st + h * x.sh) + w * pb
def Tens.spos (x : Tens) (sb n t h w : Nat) : Nat := x.sda + 64 * (n * x.ssn + t * x.sst + h * x.ssh) + w * sb

/-- Bytes of populated local memory as a fetch delivers them, without effect. -/
def Block.daVal (b : Block) (da n : Nat) : List Byte :=
  match (b.daRead da n).1 with
  | .ok bs _ => bs
  | .fail _ _ _ => zeros n

/-- Element codes of n elements from element i of a packed run at a DA, and one byte. -/
def Block.codesAt (b : Block) (da w i n : Nat) : List Nat :=
  let x := leNat (b.daVal (da + i * w / 8) (ceilDiv (i * w % 8 + n * w) 8)) >>> (i * w % 8)
  (List.range n).map (fun j => unpackBit w j x)
def Block.byteAt (b : Block) (da : Nat) : Nat := leNat (b.daVal da 1)

/-! ### Position blocks (R190, R204, R208) -/

/-- A position block: sample, frame, and its positions by array row, none outside the output. -/
structure PosBlock where
  n : Nat
  t : Nat
  pos : List (Option (Nat × Nat))
deriving DecidableEq, Repr

/-- Strips of a run of `len` columns: (first, length). [log 67 DEDUCED] -/
def strips (len swn : Nat) : List (Nat × Nat) :=
  (List.range (ceilDiv len swn)).map (fun k => (k * swn, Nat.min swn (len - k * swn)))

/-- [log 67 DEDUCED] -/
def Conv.blocks (d : Conv) : List PosBlock :=
  let swn := if d.stripW = 0 then d.w.out else d.stripW
  let sh := if d.trans then d.h.stride else 1
  let sw := if d.trans then d.w.stride else 1
  let phases := (List.range sh).flatMap (fun p => (List.range sw).map (fun q => (p, q)))
  (List.range d.n).flatMap (fun n => (List.range d.t.out).flatMap (fun t => phases.flatMap (fun ph =>
    let rows := ceilDiv (d.h.out - ph.1) sh
    let cols := ceilDiv (d.w.out - ph.2) sw
    (strips cols swn).flatMap (fun s => (List.range (ceilDiv rows d.bh)).flatMap (fun hb =>
      (List.range (ceilDiv s.2 d.bw)).map (fun wb =>
        { n := n, t := t, pos := (List.range 96).map (fun m =>
            let r := hb * d.bh + m / d.bw
            let c := s.1 + wb * d.bw + m % d.bw
            if r < rows ∧ c < cols then some (ph.1 + sh * r, ph.2 + sw * c) else none) }))))))

/-! ### One array block (R202, R209) -/

/-- One line of CB operands: values, scale code, and values saturated when raised (R111). -/
def Block.opLine (b : Block) (slot raise : Nat) (codes : List Nat) (sc : Nat) : List FV × Nat × Nat :=
  let f := b.fmt slot
  if b.isBlockSlot slot then
    if raise = 0 then (codes.map f.decode, sc, 0)
    else
      let rs := codes.map (fun c => raiseTo (b.fmt raise) (decBlockElem f sc c))
      (rs.map (·.1), sc, (rs.filter (·.2)).length)
  else (codes.map f.decode, 127, 0)

/-- The input operands of one position at a tap: CB channels from channel c. -/
def Block.convA (b : Block) (d : Conv) (raise cb : Nat) (p : PosRead) (n c : Nat) : List FV × Nat × Nat :=
  let w := (b.fmt d.inSlot).width
  match p with
  | .zero => b.opLine d.inSlot raise (List.replicate cb 0) 0
  | .const => b.opLine d.inSlot raise (List.replicate cb (d.padElem % 2 ^ w)) d.padScale
  | .sample t h x =>
    b.opLine d.inSlot raise (b.codesAt (d.inp.pos (b.posBytes d.inSlot d.cin) n t h x) w c cb)
      (if b.isBlockSlot d.inSlot then b.byteAt (d.inp.spos (d.cin / 32) n t h x + c / 32) else 0)

/-- The weight operands of output channel co at a tap: CB channels from channel c of its group. -/
def Block.convB (b : Block) (d : Conv) (raise cb co tap c : Nat) : List FV × Nat × Nat :=
  let w := (b.fmt d.wSlot).width
  let k := tap * d.cinG + c
  b.opLine d.wSlot raise (b.codesAt (d.wda + 64 * d.wstride * co) w k cb)
    (if b.isBlockSlot d.wSlot then b.byteAt (d.wsda + co * (d.kg / 32) + k / 32) else 0)

/-- The weight tap number of an effective tap. -/
def Conv.tapNo (d : Conv) (et eh ew : Nat) : Nat :=
  let rev := d.trans || d.flip
  (d.t.tap rev et * d.h.k + d.h.tap rev eh) * d.w.k + d.w.tap rev ew

/-- Does a tap of an output-channel block hold a weight NaN or infinity, or a scale 0xFF (R202)? -/
def Block.tapSpecial (b : Block) (d : Conv) (cos : List Nat) (tap : Nat) : Bool :=
  let f := b.fmt d.wSlot
  cos.any (fun co =>
    (b.codesAt (d.wda + 64 * d.wstride * co) f.width (tap * d.cinG) d.cinG).any (fun c => !(f.decode c).isFin) ||
    (b.isBlockSlot d.wSlot && (List.range (d.cinG / 32)).any (fun i =>
      b.byteAt (d.wsda + co * (d.kg / 32) + (tap * d.cinG) / 32 + i) = 0xFF)))

/-- Effective taps in increasing lexicographic order. -/
def Conv.taps (d : Conv) : List (Nat × Nat × Nat) :=
  (List.range d.t.k).flatMap (fun a => (List.range d.h.k).flatMap (fun h => (List.range d.w.k).map (fun w => (a, h, w))))

/-- What an array block gives: its 96 × 64 cells, values saturated when raised, steps skipped. -/
structure ArrayOut where
  cells : List Cell
  sat : Nat
  skipped : Nat
deriving DecidableEq, Repr

/-- One array block: the output channels `cos` of group g at a position block. -/
def Block.convArray (b : Block) (d : Conv) (pb : PosBlock) (g : Nat) (cos : List Nat) : ArrayOut :=
  match b.pairClass d.inSlot d.wSlot with
  | none => { cells := [], sat := 0, skipped := 0 }
  | some (depth, raise) =>
    let cb := b.convCb d
    let fa := b.fmt d.inSlot
    let fb := b.fmt d.wSlot
    let r := d.taps.foldl (fun (acc : ArrayOut) e =>
      let reads := pb.pos.map (fun p => p.map (fun q => d.read pb.t q.1 q.2 e.1 e.2.1 e.2.2))
      let tap := d.tapNo e.1 e.2.1 e.2.2
      if reads.all (fun x => x.isNone || x = some .zero) && !b.tapSpecial d cos tap then
        { acc with skipped := acc.skipped + d.cinG / depth }
      else
        (List.range (d.cinG / cb)).foldl (fun (acc : ArrayOut) i =>
          let c := i * cb
          let as := reads.map (fun x => b.convA d raise cb (x.getD .zero) pb.n (g * d.cinG + c))
          let bs := (List.range 64).map (fun j =>
            match cos[j]? with
            | some co => b.convB d raise cb co tap c
            | none => b.opLine d.wSlot raise (List.replicate cb 0) 0)
          let new := (as.zipIdx).flatMap (fun a => bs.zipIdx.map (fun x =>
            let cell := acc.cells.getD (64 * a.2 + x.2) Cell.zero
            if raise = 0 then cell.narrow fa fb a.1.1 x.1.1 a.1.2.1 x.1.2.1 true else cell.wide a.1.1 x.1.1))
          { acc with cells := new, sat := acc.sat + (as ++ bs).foldl (fun s l => s + l.2.2) 0 }) acc)
      { cells := List.replicate 6144 Cell.zero, sat := 0, skipped := 0 }
    if !d.biasEn then r
    else
      { r with cells := r.cells.zipIdx.map (fun x =>
          match cos[x.2 % 64]? with
          | some co =>
            match dec32 (BitVec.ofNat 32 (leNat (b.daVal (d.biasDa + 4 * co) 4))) with
            | .nan => { Cell.zero with sp := 1 }
            | .inf neg => { Cell.zero with sp := spJoin x.1.sp (if neg then 3 else 2) }
            | v => x.1.addFin v.dy
          | none => x.1) }

/-- Output-channel blocks: group and channels, in order (R189). -/
def Conv.chanBlocks (d : Conv) : List (Nat × List Nat) :=
  (List.range d.groups).flatMap (fun g => (List.range (ceilDiv d.coutG 64)).map (fun j =>
    (g, (List.range (Nat.min 64 (d.coutG - 64 * j))).map (fun i => g * d.coutG + 64 * j + i))))

/-! ### Output (R192, R194, R208) -/

/-- Writes of an array block's row for one position: element bytes and scale bytes with their addresses, classes and
values of its cells. -/
def Block.convRow (b : Block) (d : Conv) (pb : PosBlock) (cos : List Nat) (q : Nat × Nat) (cells : List Cell) :
    List (Nat × List Byte) × List EncClass × List FV :=
  let f := b.fmt d.outSlot
  let c0 := cos.headD 0
  let vs := cells.map Cell.fv
  let ea := d.outp.pos (b.posBytes d.outSlot d.cout) pb.n pb.t q.1 q.2
  if b.isBlockSlot d.outSlot then
    let halves := (List.range (cos.length / 32)).map (fun i => encBlock f d.rule d.tscale ((vs.drop (32 * i)).take 32))
    let sa := d.outp.spos (d.cout / 32) pb.n pb.t q.1 q.2
    let codes := (halves.map (·.codes)).flatten
    let sbs := (halves.map (fun h => leBytes 1 h.scale)).flatten
    let fill := if q.2 + 1 = d.w.out ∧ c0 + cos.length = d.cout then
        let e := sa + d.cout / 32
        [(e, zeros ((64 - e % 64) % 64))] else []
    ([(ea + c0 * f.width / 8, leBytes (codes.length * f.width / 8) (packBits f.width codes)), (sa + c0 / 32, sbs)] ++ fill,
     (halves.map (·.classes)).flatten, vs)
  else
    let es := vs.map f.enc
    ([(ea + c0 * f.width / 8, (es.map (fun e => leBytes (f.width / 8) e.1)).flatten)], es.map (·.2), vs)

/-- What one position block gives: its writes, its census, its steps skipped. -/
structure BlockOut where
  writes : List (Nat × List Byte)
  census : Census
  skipped : Nat
deriving DecidableEq, Repr

def Block.convBlock (b : Block) (d : Conv) (pb : PosBlock) : BlockOut :=
  d.chanBlocks.foldl (fun (acc : BlockOut) g =>
    let a := b.convArray d pb g.1 g.2
    let rows := pb.pos.zipIdx.filterMap (fun x => x.1.map (fun q =>
      b.convRow d pb g.2 q (((a.cells.drop (64 * x.2)).take 64).take g.2.length)))
    let cs := censusOf (rows.map (·.2.1)).flatten (rows.map (·.2.2)).flatten
    { writes := acc.writes ++ (rows.map (·.1)).flatten, census := acc.census.add { cs with sat := cs.sat + a.sat },
      skipped := acc.skipped + a.skipped }) { writes := [], census := Census.empty, skipped := 0 }

/-- Granules that a position block fetches (R203), with those of the weights and the bias. -/
def Block.convFetch (b : Block) (d : Conv) (pb : PosBlock) : List (Nat × Nat) :=
  let gran (da n : Nat) : Nat × Nat := (da / 64 * 64, (da + n + 63) / 64 * 64 - da / 64 * 64)
  let inputs := d.taps.flatMap (fun e => pb.pos.flatMap (fun p =>
    match p.map (fun q => d.read pb.t q.1 q.2 e.1 e.2.1 e.2.2) with
    | some (.sample t h w) =>
      let pbn := b.posBytes d.inSlot d.cin
      [gran (d.inp.pos pbn pb.n t h w) pbn] ++
        (if b.isBlockSlot d.inSlot then [gran (d.inp.spos (d.cin / 32) pb.n t h w) (d.cin / 32)] else [])
    | _ => []))
  let weights := (List.range d.cout).map (fun co => gran (d.wda + 64 * d.wstride * co) (ceilDiv (d.kg * (b.fmt d.wSlot).width) 8))
  let scales := if b.isBlockSlot d.wSlot then [gran d.wsda (d.cout * (d.kg / 32))] else []
  let bias := if d.biasEn then [gran d.biasDa (4 * d.cout)] else []
  weights ++ scales ++ bias ++ inputs.eraseDups

/-! ### Validation (R211) -/

/-- The tile-store regions (R205): (address, bytes). -/
def Block.convRegions (b : Block) (d : Conv) : List (Nat × Nat) :=
  let swn := if d.stripW = 0 then d.w.out else d.stripW
  let wcols := if d.trans then
      Nat.min d.w.inn (ceilDiv swn d.w.stride + ceilDiv ((d.w.k - 1) * d.w.dil) d.w.stride)
    else Nat.min d.w.inn ((swn - 1) * d.w.stride + (d.w.k - 1) * d.w.dil + 1)
  let rh := if d.trans then d.bh + ceilDiv ((d.h.k - 1) * d.h.dil) d.h.stride
    else Nat.min (d.bh * d.h.k) ((d.bh - 1) * d.h.stride + (d.h.k - 1) * d.h.dil + 1)
  let line := 64 * (ceilDiv (wcols * b.posBytes d.inSlot d.cin) 64 + 1) +
    (if b.isBlockSlot d.inSlot then 64 * (ceilDiv (wcols * d.cin) 2048 + 1) else 0)
  let wbr := d.cout * 64 * ceilDiv (d.kg * (b.fmt d.wSlot).width) 512 +
    (if b.isBlockSlot d.wSlot then 64 * ceilDiv (d.cout * d.kg) 2048 else 0)
  let sout := if b.isBlockSlot d.outSlot then d.cout / 32 else 0
  [(d.lb, 2 * d.t.k * rh * line), (d.wb, wbr), (d.ob, 64 * ceilDiv (192 * (b.posBytes d.outSlot d.cout + sout)) 64)]

/-- The pitches of a tensor bound the extents they span (R192). -/
def Block.pitchOk (b : Block) (x : Tens) (slot c t h w : Nat) : Bool :=
  decide (w * b.posBytes slot c ≤ 64 * x.sh) && decide (h * x.sh ≤ x.st) && decide (t * x.st ≤ x.sn) &&
    (!b.isBlockSlot slot ||
      (decide (w * c / 32 ≤ 64 * x.ssh) && decide (h * x.ssh ≤ x.sst) && decide (t * x.sst ≤ x.ssn)))

/-- The largest sample index an axis reads. -/
def Axis.maxRead (a : Axis) (tr : Bool) : Option Nat :=
  ((List.range a.out).flatMap (fun o => (List.range a.k).filterMap (fun e =>
    match a.read tr o e with | .sample i => some i | _ => none))).foldl (fun m i => some (Nat.max (m.getD 0) i)) none

/-- The end of the last granule a plane's last position reaches. -/
def granEnd (da n : Nat) : Nat := (da + n + 63) / 64 * 64

/-- Ends of everything read or written. -/
def Block.convEnds (b : Block) (d : Conv) : List Nat :=
  let ipb := b.posBytes d.inSlot d.cin
  let opb := b.posBytes d.outSlot d.cout
  let inEnds := match d.t.maxRead d.trans, d.h.maxRead d.trans, d.w.maxRead d.trans with
    | some t, some h, some w => [granEnd (d.inp.pos ipb (d.n - 1) t h w) ipb] ++
        (if b.isBlockSlot d.inSlot then [granEnd (d.inp.spos (d.cin / 32) (d.n - 1) t h w) (d.cin / 32)] else [])
    | _, _, _ => []
  let lt := d.t.out - 1
  let lh := d.h.out - 1
  let lw := d.w.out - 1
  inEnds ++ [granEnd (d.outp.pos opb (d.n - 1) lt lh lw) opb] ++
    (if b.isBlockSlot d.outSlot then [granEnd (d.outp.spos (d.cout / 32) (d.n - 1) lt lh lw) (d.cout / 32)] else []) ++
    [granEnd (d.wda + 64 * d.wstride * (d.cout - 1)) (ceilDiv (d.kg * (b.fmt d.wSlot).width) 8), d.censusDa + 64] ++
    (if b.isBlockSlot d.wSlot then [granEnd d.wsda (d.cout * (d.kg / 32))] else []) ++
    (if d.biasEn then [granEnd d.biasDa (4 * d.cout)] else [])

/-- The first axis (0 T, 1 H, 2 W) for which a test fails. -/
def Conv.axisBad (d : Conv) (ok : Nat → Axis → Bool) : Option Nat :=
  [0, 1, 2].find? (fun i => !ok i ([d.t, d.h, d.w].getD i d.t))

def Axis.fieldsOk (a : Axis) (i : Nat) (tr : Bool) : Bool :=
  decide (1 ≤ a.k) && decide (1 ≤ a.stride) && decide (1 ≤ a.dil) && decide (1 ≤ a.inn) &&
    (!a.causal || (i = 0 && a.padLo = 0 && a.padHi = 0)) &&
    (if tr then decide (a.outPad < a.stride) && decide (a.pl ≤ a.span) && decide (a.ph ≤ a.span + a.outPad) && a.mode = 0
     else a.outPad = 0)

/-- The first failing check: number, axis, status. [log 67 DEDUCED] -/
def Block.convFault (b : Block) (d : Conv) : Option (Nat × Nat × Nat) :=
  let tr := d.trans
  let blkIn := b.isBlockSlot d.inSlot
  let blkW := b.isBlockSlot d.wSlot
  let blkOut := b.isBlockSlot d.outSlot
  let bad := Status.badParam
  let role (s : Nat) : Bool := decide (s ≤ 2) || b.isBlockSlot s
  let cb := b.convCb d
  let regs := b.convRegions d
  let planes := [d.inp.eda, d.outp.eda, d.wda, d.censusDa] ++ (if blkIn then [d.inp.sda] else []) ++
    (if blkOut then [d.outp.sda] else []) ++ (if blkW then [d.wsda] else []) ++ (if d.biasEn then [d.biasDa] else [])
  let swn := d.stripW
  if d.tiles.isEmpty || d.tiles.any (fun t => (b.tile t).st = 2) then some (1, 0, bad)
  else if d.block = 7 || d.rule = 3 || (d.axisBad (fun _ a => decide (a.mode ≠ 3))).isSome || (tr && d.flip) ||
      !role d.inSlot || !role d.wSlot || !b.isOutSlot d.outSlot || (d.rule = 2 && blkOut && d.tscale = 0xFF) ||
      (blkIn && d.padScale = 0xFF && (d.axisBad (fun _ a => decide (a.mode ≠ 1))).isSome) then
    some (2, (d.axisBad (fun _ a => decide (a.mode ≠ 3))).getD 0, bad)
  else if (b.pairClass d.inSlot d.wSlot).isNone then some (3, 0, Status.formatPair)
  else if d.n = 0 then some (4, 0, bad)
  else
    match d.axisBad (fun i a => a.fieldsOk i tr) with
    | some i => some (4, i, bad)
    | none =>
      match d.axisBad (fun _ a => decide (0 < a.extent tr)) with
      | some i => some (5, i, Status.emptyOutput)
      | none =>
        match d.axisBad (fun _ a => decide ((a.out : Int) = a.extent tr)) with
        | some i => some (6, i, bad)
        | none =>
          if d.groups = 0 || d.cin = 0 || d.cout = 0 || d.cin % d.groups ≠ 0 || d.cout % d.groups ≠ 0 ||
              d.cinG % cb ≠ 0 || (blkOut && d.coutG % 32 ≠ 0) || b.posBytes d.outSlot d.cout % 64 ≠ 0 ||
              (blkOut && (d.bw * d.cout / 32) % 64 ≠ 0) ||
              decide ((if blkIn || blkW then 16777184 else 16777212) < d.kg) then some (7, 0, bad)
          else if swn ≠ 0 && swn % (d.bw * (if tr then d.w.stride else 1)) ≠ 0 then some (8, 0, bad)
          else if regs.any (fun r => decide (r.1 % 64 ≠ 0) || decide (tileBytes < r.1 + r.2)) ||
              regs.zipIdx.any (fun x => regs.zipIdx.any (fun y =>
                decide (x.2 < y.2) && decide (x.1.1 < y.1.1 + y.1.2) && decide (y.1.1 < x.1.1 + x.1.2))) then some (9, 0, bad)
          else if planes.any (fun p => decide (0x20000000000 ≤ p) || decide (p % 64 ≠ 0)) ||
              !b.pitchOk d.inp d.inSlot d.cin d.t.inn d.h.inn d.w.inn ||
              !b.pitchOk d.outp d.outSlot d.cout d.t.out d.h.out d.w.out then some (10, 0, bad)
          else if (b.convEnds d).any (fun e => decide (hbmTop < e)) then some (11, 0, Status.addrUnmapped)
          else none

/-! ### Holding tiles (R188) -/

/-- CONV and ATTN commands that wait take their tiles once these are free (R157, R188). -/
def Block.takeTiles (b : Block) : Block :=
  b.mer.running.foldl (fun b c0 =>
    match b.cmd c0.id with
    | none => b
    | some c =>
      let go (ts : List Nat) (w : Work) : Block :=
        if b.tilesReady c then ts.foldl (fun b t => b.onTile t (fun x => { x with held := some c.id }))
          (b.setWork c.id (w)) else b
      match c.work with
      | .conv ts false => go ts (.conv ts true)
      | .attn w => if w.started then b else go w.tiles (.attn { w with started := true })
      | _ => b) b

/-- The tiles of a CONV or ATTN command are free again. -/
def Block.freeTiles (id : Nat) (ts : List Nat) (b : Block) : Block :=
  ts.foldl (fun b t => if (b.tile t).held = some id then b.onTile t (fun x =>
    { x with held := none, rerun := [], switching := false, faultAt := [] }) else b) b

def Block.startConv (c : Cmd) (b : Block) : Block :=
  let d := Conv.of c.pkt
  match b.convFault d with
  | some (n, ax, st) => b.refuse c st (fields [(0, n), (8, ax)])
  | none =>
    (b.setCmd { c with fmts := 2 ^ d.inSlot ||| 2 ^ d.wSlot ||| 2 ^ d.outSlot, work := .conv d.tiles false }).takeTiles

/-! ### The run and its end (R208, R212, R213) -/

/-- The position blocks of the i-th of NT tiles. -/
def shareOf (bs : List PosBlock) (i nt : Nat) : List PosBlock :=
  (bs.drop (i * bs.length / nt)).take ((i + 1) * bs.length / nt - i * bs.length / nt)

/-- Bytes that the engine leaves unspecified in the tile store (R188). [log 66 DEDUCED] -/
def Block.scramble (da n : Nat) (b : Block) : Block :=
  let f := b.free 32
  f.2.memWrite da ((List.range n).map (fun i => BitVec.ofNat 8 (Config.freeValue (f.1 + i))))

/-- Write the pieces of an output; a write that loses a page or is dropped shows in the command's status. -/
def Block.putPieces (id : Nat) (ws : List (Nat × List Byte)) (b : Block) : Block :=
  ws.foldl (fun b w =>
    if w.2.isEmpty then b else
    match b.daWrite w.1 w.2 with
    | (b, none) => b
    | (b, some st) => b.acquire id st) b

/-- Run some position blocks of a tile: effects of the fetches, writes, census. -/
def Block.convRun (c : Cmd) (d : Conv) (pbs : List PosBlock) (b : Block) : Block × Census × Nat :=
  pbs.foldl (fun (acc : Block × Census × Nat) pb =>
    let b := (acc.1.convFetch d pb).foldl (fun (b : Block) r =>
      match b.daRead r.1 r.2 with
      | (.ok _ true, b) => b.acquireLogged c.id Status.memCorrected
      | (_, b) => b) acc.1
    let o := b.convBlock d pb
    (b.putPieces c.id o.writes, acc.2.1.add o.census, acc.2.2 + o.skipped)) (b, Census.empty, 0)

/-- The first position block of a tile's share whose fetch meets an uncorrectable granule, with the granule's DA. -/
def Block.convBad (b : Block) (d : Conv) (pbs : List PosBlock) : Option (Nat × Nat) :=
  (pbs.zipIdx.filterMap (fun x => ((b.convFetch d x.1).find? (fun r => match (b.daRead r.1 r.2).1 with
    | .fail _ _ _ => true | _ => false)).map (fun r => (x.2, r.1)))).head?

/-- The convolution itself, on tiles that can fetch every operand. [log 66 DEDUCED] -/
def Block.convCompute (c : Cmd) (ts : List Nat) (d : Conv) (cycles : Nat) (b : Block) : Block :=
  let r := ts.zipIdx.foldl (fun (acc : Block × Census × Nat) x =>
    let o := acc.1.convRun c d (shareOf d.blocks x.2 ts.length)
    let b := o.1.onTile x.1 (fun y => { y with census := y.census.set Census.empty d.census o.2.1 })
    let b := (b.convRegions d).foldl (fun b g => b.scramble (tileDa x.1 + g.1) g.2) b
    (b, acc.2.1.add o.2.1, acc.2.2 + o.2.2)) (b, Census.empty, 0)
  let b := r.1.putPieces c.id [(d.censusDa, leBytes 64 r.2.1.toNat)]
  let b := if r.2.1.sat = 0 then b else b.acquire c.id Status.saturated
  let b := if r.2.1.wrote then b.acquire c.id Status.nonfinite else b
  let b := b.freeTiles c.id ts
  (b.completeId c.id Status.ok 0
    (fields [(32, Nat.min cycles (2 ^ 32 - 1)), (0, Nat.min r.2.2 (2 ^ 32 - 1))])).takeTiles

/-- CONV_FINISH: every tile has finished. `cycles` is the largest cycle count measured. -/
def Block.convFinish (id cycles : Nat) (b : Block) : Block :=
  let b := b.takeTiles
  match b.cmd id with
  | none => b
  | some c =>
    match c.work with
    | .conv ts true =>
      let d := Conv.of c.pkt
      let pbs := d.blocks
      let share (i : Nat) : List PosBlock := shareOf pbs i ts.length
      let outs := pbs.flatMap (fun pb => (b.convBlock d pb).writes)
      if ts.any (fun t => !(b.tile t).rerun.isEmpty || (b.tile t).switching) ||
          outs.any (fun w => b.writeWaits w.1 w.2.length) || b.writeWaits d.censusDa 64 then b
      else
        let bads := ts.zipIdx.filterMap (fun x => (b.convBad d (share x.2)).map (fun r => (x.2, r)))
        match bads with
        | [] => b.convCompute c ts d cycles
        | _ =>
          -- which tile faults first, and how far each has come by then, is left to the run
          let f := b.free 32
          let k := f.1 % bads.length
          let bad := bads.getD k (0, 0, 0)
          let b := ts.zipIdx.foldl (fun (b : Block) x =>
            let f := b.free 32
            let lim := match b.convBad d (share x.2) with | some r => r.1 | none => (share x.2).length
            let n := if x.2 = bad.1 then bad.2.1 else f.1 % (lim + 1)
            let b := (f.2.convRun c d ((share x.2).take n)).1
            (b.convRegions d).foldl (fun b g => b.scramble (tileDa x.1 + g.1) g.2) b) f.2
          let b := (b.daRead bad.2.2 64).2
          let b := b.freeTiles id ts
          (b.completeId id Status.programFault (fields [(0, 0x06), (10, Nat.min bad.2.1 (2 ^ 22 - 1))])
            (fields [(56, ts.getD bad.1 0), (0, bad.2.2)])).takeTiles
    | _ => b

def execConvFinish (id cycles : Nat) (s : State) : Host.Outcome State Fault Refusal := s.run (Block.convFinish id cycles)

end Sys2Proof.Machine
end

