-- ==== Sys2Proof/Machine/Kv.lean ====
section
/-!
DEFINITION. The commands of the KV page store (spec/09, R234 to R247): KV_ALLOC, KV_SHARE, KV_FREE, KV_REGEN_SET, and the
admission and the copy of a paged ATTN_FWD.
-/

namespace Sys2Proof.Machine

/-! ### Waiting in dispatch order on a sequence (R241) -/

/-- The sequence whose table a command writes. -/
def Cmd.kvTable (c : Cmd) : Option Nat :=
  if c.pkt.opcode = 0x0402 then (if c.pkt.f 511 508 = 0 then none else some (c.pkt.f 507 492))
  else if c.pkt.opcode = 0x0403 then some (c.pkt.f 239 224)
  else if c.pkt.opcode = 0x0404 then some (c.pkt.f 255 240)
  else if c.pkt.opcode = 0x0400 ∧ bit c.pkt.pnum 204 ∧ c.kvAppend then some c.kvSeq
  else none

/-- Does a command still wait to write a table? -/
def Cmd.kvWaits (c : Cmd) : Bool :=
  match c.work with
  | .kvWait => true
  | .attn w => !w.admitted && c.kvTable.isSome
  | _ => false

/-- Must a command that writes a table wait: BUSY is set, or an earlier command on the sequence waits (R241)? -/
def Block.kvBlocked (b : Block) (pl : Pool) (c : Cmd) : Bool :=
  match c.kvTable with
  | none => false
  | some q => (b.seqE pl q).busy ||
      (b.mer.running.takeWhile (fun x => x.id ≠ c.id)).any (fun x => x.kvWaits && x.kvTable = some q)

def Block.kvFreeCount (b : Block) : Nat := (b.pool.map (fun pl => pl.free.length)).getD 0

/-- A refusal under a numbered condition of a command's rule; RESULT holds the free-page count (R240). [log 69 DEDUCED] -/
def Block.kvRefuse (c : Cmd) (st n : Nat) (b : Block) : Block := b.completeId c.id st n b.kvFreeCount
def Block.kvDone (c : Cmd) (b : Block) : Block := b.done c b.kvFreeCount

/-- Bytes of one page of a pool (R235). -/
def Block.kvPart (b : Block) (hd slot : Nat) : Nat := hd * 8 * (b.fmt slot).width
def Block.kvScales (b : Block) (hd slot : Nat) : Nat := if b.isBlockSlot slot then 2 * hd else 0
def Block.headBytes (b : Block) (pl : Pool) : Nat :=
  b.kvPart pl.headDim pl.kSlot + b.kvScales pl.headDim pl.kSlot + b.kvPart pl.headDim pl.vSlot + b.kvScales pl.headDim pl.vSlot
def Block.pageBytes (b : Block) (pl : Pool) : Nat := pl.kvHeads * b.headBytes pl

/-! ### KV_ALLOC (R234) -/

def kvSlotOk (b : Block) (s : Nat) : Bool := decide (s = 1) || decide (s = 2) || b.isBlockSlot s

/-- [log 69, 70 DEDUCED] -/
def Block.poolInit (c : Cmd) (b : Block) : Block :=
  let p := c.pkt
  let pl : Pool := {
    pageDa := p.f 491 440, entryDa := p.f 439 388, seqDa := p.f 387 336, pages := p.f 335 312, maxSeqs := p.f 311 288,
    kSlot := p.f 287 283, vSlot := p.f 282 278, kvHeads := p.f 277 262, headDim := p.f 261 254,
    free := List.range (p.f 335 312) }
  if b.pool.isSome then b.kvRefuse c Status.badParam 1
  else if pl.pages = 0 || pl.maxSeqs = 0 || decide (65536 < pl.maxSeqs) || !kvSlotOk b pl.kSlot || !kvSlotOk b pl.vSlot ||
      pl.kvHeads = 0 || (pl.headDim ≠ 64 && pl.headDim ≠ 128) then b.kvRefuse c Status.badParam 0
  else
    match (hbmStatus pl.pageDa (pl.pages * b.pageBytes pl)).or
        ((hbmStatus pl.entryDa (32 * pl.pages)).or (hbmStatus pl.seqDa (32 * pl.maxSeqs))) with
    | some st => b.kvRefuse c st 0
    | none =>
      let f := b.free 24
      let b := (List.range pl.pages).foldl (fun b i => b.setPageE pl i {
        lastUse := 0, gen := 0, ref := 0, pin := 0, next := if i + 1 < pl.pages then i + 1 else f.1, st := 0,
        droppable := false, filling := false, writer := 0 }) f.2
      let b := (List.range pl.maxSeqs).foldl (fun b i => b.setSeqE pl i {
        ptDa := 0, ptCap := 0, length := 0, handle := 15, arg := 0, isOpen := false, drop := false, busy := false }) b
      (b.setPool pl).kvDone c

/-- [log 69 DEDUCED] -/
def Block.seqOpen (c : Cmd) (pl : Pool) (q : Nat) (b : Block) : Block :=
  let p := c.pkt
  let da := p.f 491 440
  let cap := p.f 335 312
  if (b.seqE pl q).isOpen then b.kvRefuse c Status.badParam 1
  else if da % 64 ≠ 0 then b.kvRefuse c Status.badParam 0
  else
    match hbmStatus da (8 * cap) with
    | some st => b.kvRefuse c st 0
    | none =>
      let s : SeqE := {
        ptDa := da, ptCap := cap, length := 0, handle := 15, arg := 0, isOpen := true, drop := bit p.pnum 253, busy := false }
      let b := (List.range cap).foldl (fun b i => b.setPtE s i { phys := 0, gen := 0, valid := false }) b
      (b.setSeqE pl q s).kvDone c

def Block.setDrop (c : Cmd) (pl : Pool) (q : Nat) (b : Block) : Block :=
  let p := c.pkt
  let first := p.f 335 312
  let count := p.f 311 288
  let s := b.seqE pl q
  if !s.isOpen then b.kvRefuse c Status.badParam 1
  else
    let n := ceilDiv s.length 64
    let b := (List.range n).foldl (fun b i =>
      let e := b.ptE s i
      if decide (64 * i < first + count) && decide (first < Nat.min (64 * i + 64) s.length) && decide (count ≠ 0) &&
          b.current pl e then
        b.onPageE pl e.phys (fun x => { x with droppable := bit p.pnum 253 })
      else b) b
    b.kvDone c

/-! ### KV_SHARE and KV_FREE (R239, R240) -/

/-- [log 69 DEDUCED] -/
def Block.kvShare (c : Cmd) (pl : Pool) (b : Block) : Block :=
  let src := c.pkt.f 255 240
  let dst := c.pkt.f 239 224
  let n := c.pkt.f 223 200
  let s := b.seqE pl src
  let d := b.seqE pl dst
  let k := ceilDiv n 64
  let es := (List.range k).map (fun i => b.ptE s i)
  if pl.maxSeqs ≤ src || !d.isOpen || d.length ≠ 0 then b.kvRefuse c Status.badParam 1
  else if !s.isOpen || n = 0 || decide (s.length < n) then b.kvRefuse c Status.badParam 2
  else if d.ptCap < k then b.kvRefuse c Status.badParam 3
  else if b.isBlockSlot pl.vSlot && n % 32 ≠ 0 then b.kvRefuse c Status.badParam 4
  else if es.any (fun e => b.current pl e && decide (65535 ≤ (b.pageE pl e.phys).ref)) then b.kvRefuse c Status.badParam 5
  else
    let b := es.zipIdx.foldl (fun b x =>
      let b := if b.current pl x.1 then b.onPageE pl x.1.phys (fun e => { e with ref := e.ref + 1 }) else b
      b.setPtE d x.2 x.1) b
    (b.setSeqE pl dst { d with length := n }).kvDone c

/-- [log 69 DEDUCED] -/
def Block.kvFree (c : Cmd) (pl : Pool) (q : Nat) (b : Block) : Block :=
  let f := c.pkt.f 239 216
  let close := bit c.pkt.pnum 215
  let s := b.seqE pl q
  if close && f ≠ 0 then b.kvRefuse c Status.badParam 1
  else if !s.isOpen then b.kvRefuse c Status.badParam 0
  else
    let b := (List.range s.ptCap).foldl (fun b i =>
      if 64 * i < f then b else
      let e := b.ptE s i
      if !e.valid then b else
      let cur := b.current pl e
      let b := b.setPtE s i { e with valid := false }
      if cur then b.unref e.phys else b) b
    (b.setSeqE pl q { s with length := Nat.min s.length f, isOpen := !close }).kvDone c

/-! ### Starting and retrying -/

/-- The commands on an existing pool, once they need not wait. -/
def Block.kvRun (c : Cmd) (pl : Pool) (b : Block) : Block :=
  let op := c.pkt.opcode
  let q := (c.kvTable).getD 0
  if pl.maxSeqs ≤ q then b.kvRefuse c Status.badParam 0
  else if b.kvBad pl q (ceilDiv (b.seqE pl q).length 64) ||
      (op = 0x0403 && decide (c.pkt.f 255 240 < pl.maxSeqs) && b.kvBad pl (c.pkt.f 255 240) (ceilDiv (c.pkt.f 223 200) 64)) then
    b.completeId c.id Status.memUncorrectable 0 0
  else if op = 0x0403 then b.kvShare c pl
  else if op = 0x0404 then b.kvFree c pl q
  else if c.pkt.f 511 508 = 1 then b.seqOpen c pl q
  else b.setDrop c pl q

/-- Run a command on a table, or let it wait (R241). -/
def Block.kvTry (c : Cmd) (b : Block) : Block :=
  match b.pool with
  | none => b.kvRefuse c Status.badParam 0
  | some pl => if b.kvBlocked pl c then b.setWork c.id (.kvWait) else b.kvRun c pl

/-- KV_ALLOC, KV_SHARE and KV_FREE. -/
def Block.startKv (c : Cmd) (b : Block) : Block :=
  if c.pkt.opcode = 0x0402 ∧ c.pkt.f 511 508 = 0 then b.poolInit c
  else if c.pkt.opcode = 0x0402 ∧ 3 ≤ c.pkt.f 511 508 then b.kvRefuse c Status.badParam 0
  else b.kvTry c

/-- Commands that waited for BUSY go on, in dispatch order (R241). -/
def Block.kvRetry (b : Block) : Block :=
  b.mer.running.foldl (fun b c => if c.work = .kvWait then b.kvTry c else b) b

def Block.startKvRegenSet (c : Cmd) (b : Block) : Block :=
  let q := c.pkt.f 255 240
  let h := c.pkt.f 239 236
  match b.pool with
  | none => b.refuse c Status.badParam 0
  | some pl =>
    if pl.maxSeqs ≤ q ∨ (8 ≤ h ∧ h ≠ 15) then b.refuse c Status.badParam 0
    else if (b.badWord (pl.seqDa + 32 * q) 32).isSome then b.completeId c.id Status.memUncorrectable 0 0
    else
      let s := b.seqE pl q
      if !s.isOpen then b.refuse c Status.badParam 0
      else (b.setSeqE pl q { s with handle := h, arg := c.pkt.f 235 204 }).done c 0

/-! ### Admission (R242 to R247) -/

/-- Maximal runs of consecutive entries, as (first, count) in entries. -/
def runsOf : List Nat → List (Nat × Nat)
  | [] => []
  | i :: is =>
    match runsOf is with
    | (j, n) :: rs => if j = i + 1 then (i, n + 1) :: rs else (i, 1) :: (j, n) :: rs
    | [] => [(i, 1)]

/-- An attention command ends: its tiles are free, its pages released, and commands that waited for it go on. -/
def Block.attnEnd (c : Cmd) (w : AttnWork) (status detail result : Nat) (b : Block) : Block :=
  ((((b.freeTiles c.id w.tiles).kvRelease c w).completeId c.id status detail result).kvRetry).takeTiles

/-- PAGE_DROPPED with its report (R247). -/
def Block.pageDropped (c : Cmd) (w : AttnWork) (s : SeqE) (drops : List Nat) (b : Block) : Block :=
  let toks (r : Nat × Nat) : Nat × Nat := (64 * r.1, Nat.min (64 * (r.1 + r.2)) s.length - 64 * r.1)
  let rs := (runsOf drops).map toks
  let dropDa := c.pkt.f 1739 1688
  let recs := (rs.map (fun r => leBytes 8 (fields [(32, r.1), (0, r.2)]))).flatten
  let b := if dropDa = 0 then b else (b.daWrite dropDa recs).1
  let r := rs.headD (0, 0)
  b.attnEnd c w Status.pageDropped rs.length (fields [(32, r.1), (0, r.2)])

/-- Take pages for an admission, in order; each is FILLING with one pin and one reference. -/
def Block.takePages (pl : Pool) (q : Nat) (drop : Bool) (pinned : List Nat) : Nat → Block → List Nat × Block
  | 0, b => ([], b)
  | n + 1, b =>
    match b.takePage pinned with
    | (none, b) => ([], b)
    | (some p, b) =>
      let b := b.onPageE pl p (fun e => { e with
        ref := 1, pin := 1, st := 1, droppable := drop, filling := true, writer := q })
      let r := b.takePages pl q drop (p :: pinned) n
      (p :: r.1, r.2)

/-- Admission of a paged ATTN_FWD under the pool lock (R242). [log 71 DEDUCED] -/
def Block.kvAdmit (c : Cmd) (w : AttnWork) (pl : Pool) (b : Block) : Block :=
  let q := c.kvSeq
  let lq := c.pkt.f 327 304
  let s := b.seqE pl q
  let app := c.kvAppend
  let r := ceilDiv s.length 64
  let len := if app then s.length + lq else s.length
  if !s.isOpen || (app && decide (s.ptCap < ceilDiv len 64)) ||
      (app && b.isBlockSlot pl.vSlot && decide (s.length % 32 ≠ 0)) then b.attnEnd c w Status.badParam 5 0
  else if b.kvBad pl q r then b.attnEnd c w Status.memUncorrectable 0 0
  else
    let es := (List.range r).map (fun i => b.ptE s i)
    let cur := es.filter (b.current pl)
    let drops := (List.range r).filter (fun i => !b.current pl (b.ptE s i))
    if cur.any (fun e => (b.pageE pl e.phys).filling) then b
    else if !drops.isEmpty && s.handle = 15 then
      if c.pkt.f 1739 1688 ≠ 0 && b.writeWaits (c.pkt.f 1739 1688) (8 * (runsOf drops).length) then b
      else b.pageDropped c w s drops
    else
      let tail := b.pageE pl (b.ptE s (r - 1)).phys
      let cow := app && s.length % 64 ≠ 0 && !drops.contains (r - 1) && (decide (1 < tail.ref) || decide (0 < tail.pin))
      let new := if app then ceilDiv len 64 - r else 0
      let need := drops.length + b2n cow + new
      let pinned := cur.map (·.phys)
      if pl.free.length + (b.candidates pl pinned).length < need then b.attnEnd c w Status.kvNoPages 0 0
      else
        let b := cur.foldl (fun b e => b.onPageE pl e.phys (fun x => { x with pin := x.pin + 1 })) b
        let t := b.takePages pl q s.drop pinned need
        let pages := t.1
        let at' (i : Nat) : Nat := pages.getD i 0
        let idxs := drops ++ (if cow then [r - 1] else []) ++ (List.range new).map (· + r)
        let b := idxs.zipIdx.foldl (fun b x =>
          b.setPtE s x.1 { phys := at' x.2, gen := (b.pageE pl (at' x.2)).gen, valid := true }) t.2
        let old := (es.getD (r - 1) { phys := 0, gen := 0, valid := false }).phys
        let b := if cow then b.unref old else b
        let b := b.setSeqE pl q { s with length := len, busy := s.busy || app }
        let table := (List.range (ceilDiv len 64)).map (fun i => (b.ptE s i).phys)
        b.setWork c.id (.attn { w with
          admitted := true, pins := table, cow := if cow then some (old, at' drops.length) else none,
          toRegen := drops.zipIdx.map (fun x => (x.1, at' x.2)), fresh := pages, lenBefore := s.length, lenAfter := len })

/-- KV_ADMISSION: the admission of a waiting command, once nothing holds it back (R241, R242). -/
def Block.kvAdmission (id : Nat) (b : Block) : Block :=
  match b.cmd id, b.pool with
  | some c, some pl =>
    match c.work with
    | .attn w => if w.admitted || !bit c.pkt.pnum 204 || b.kvBlocked pl c then b else (b.kvAdmit c w pl).kvRetry
    | _ => b
  | _, _ => b

/-- KV_COPY_DONE: the private copy of the shared tail page is made; the old page is unpinned (R242). -/
def Block.kvCopyDone (id : Nat) (b : Block) : Block :=
  match b.cmd id, b.pool with
  | some c, some pl =>
    match c.work with
    | .attn w =>
      match w.cow with
      | some (old, new) =>
        let n := b.pageBytes pl
        let da (p : Nat) : Nat := pl.pageDa + p * n
        if b.writeWaits (da new) n then b else
        match b.daRead (da old) n with
        | (.fail st d _, b) => b.attnEnd c w st d 0
        | (.ok bs corrected, b) =>
          let b := if corrected then b.acquireLogged id Status.memCorrected else b
          match b.daWrite (da new) bs with
          | (b, some st) => if statusClass st ≤ 1 then ((b.acquire id st).setWork id (.attn { w with cow := none })).unpin old
              else b.attnEnd c w st 0 0
          | (b, none) => (b.setWork id (.attn { w with cow := none })).unpin old
      | none => b
    | _ => b
  | _, _ => b

def execKvAdmission (id : Nat) (s : State) : Host.Outcome State Fault Refusal := s.run (Block.kvAdmission id)
def execKvCopyDone (id : Nat) (s : State) : Host.Outcome State Fault Refusal := s.run (Block.kvCopyDone id)

end Sys2Proof.Machine
end

