-- ==== Sys2Proof/Machine/Vector.lean ====
section
/-!
DEFINITION. The vector pipelines (spec/07, R165 to R179): lanes, masks, element-wise arithmetic, special functions,
reductions, conversions, loads, stores and the census records.
-/

namespace Sys2Proof.Machine

/-- The 512 lanes of a register. -/
def lanesOf (v : Nat) : List Word := (List.range 512).map (fun i => BitVec.ofNat 32 (v >>> (32 * i)))
def ofLanes (l : List Word) : Nat := l.foldr (fun w a => w.toNat + 2 ^ 32 * a) 0
/-- The 1,024 BF16 elements of a register in packed mode (R165). -/
def halvesOf (v : Nat) : List Nat := (List.range 1024).map (fun i => bits v (16 * i + 15) (16 * i))
def ofHalves (l : List Nat) : Nat := l.foldr (fun w a => w + 2 ^ 16 * a) 0

def allLanes : Nat := 2 ^ 512 - 1
def Tile.pmask (x : Tile) (pm : Nat) : Nat := if pm = 0 then allLanes else x.mask pm

/-- Three sources lane by lane. -/
def zip3 {α β : Type} (f : α → α → α → β) (a b c : List α) : List β := (a.zip (b.zip c)).map (fun t => f t.1 t.2.1 t.2.2)

/-- A lane function of three words as a register function. -/
def laneOp (f : Word → Word → Word → Word) (x : Tile) (a : VecA) : Nat :=
  ofLanes (zip3 f (lanesOf (x.vreg a.va)) (lanesOf (x.vreg a.vb)) (lanesOf (x.vreg a.vc)))

/-- An exact operation rounded once to FP32, or to BF16 in packed mode (R170). -/
def fpOp (f : FV → FV → FV → FV) (x : Tile) (a : VecA) : Nat :=
  if a.pk then
    ofHalves (zip3 (fun p q r => (bf16.enc (f (bf16.decode p) (bf16.decode q) (bf16.decode r))).1)
      (halvesOf (x.vreg a.va)) (halvesOf (x.vreg a.vb)) (halvesOf (x.vreg a.vc)))
  else laneOp (fun p q r => enc32 (f (dec32 p) (dec32 q) (dec32 r))) x a

/-- A form-A operation: its result lands under its mask L cycles later (R166, R170). -/
def Block.vecA (t : Nat) (a : VecA) (l : Nat) (f : Tile → VecA → Nat) : Block → Block :=
  Block.slot t (fun b => b.onTile t (fun x => x.later l (.vreg a.vd (x.pmask a.pm)) (f x a) []))

/-- The same, every lane written (SEL and the reductions). -/
def Block.vecAll (t : Nat) (a : VecA) (l : Nat) (f : Tile → VecA → Nat) : Block → Block :=
  Block.slot t (fun b => b.onTile t (fun x => x.later l (.vreg a.vd allLanes) (f x a) []))

/-- A special function of one FP32 lane (R171). [log 150 DEDUCED] -/
def sfOp (f : FV → FV → FV) (x : Tile) (a : VecA) : Nat := laneOp (fun p q _ => enc32 (f (dec32 p) (dec32 q))) x a

/-- [log 150 DEDUCED] -/
def fExp2 : FV → FV
  | .nan => .nan
  | .inf true => .fin false 0 0
  | .inf false => .inf false
  | .fin s m e => fvExp2 (FV.fin s m e).dy

/-- [log 150 DEDUCED] -/
def fExp : FV → FV
  | .nan => .nan
  | .inf true => .fin false 0 0
  | .inf false => .inf false
  | .fin s m e => fvExp (FV.fin s m e).dy

/-- e^(a − b), the difference formed exactly; equal infinities give NaN (R171). -/
def fExpd (a b : FV) : FV := fExp (a.sub b)

/-- [log 150 DEDUCED] -/
def fLog2 : FV → FV
  | .nan => .nan
  | .inf true => .nan
  | .inf false => .inf false
  | .fin s m e => if m = 0 then .inf true else if s then .nan else FV.ofDy false (dyLog2 ⟨m, e⟩)

/-- [log 150 DEDUCED] -/
def fRcp : FV → FV
  | .nan => .nan
  | .inf s => .fin s 0 0
  | .fin s m e =>
    if m = 0 then .inf s else
    let q := (⟨1, 0⟩ : Dy).div ⟨m, e⟩
    FV.ofDy s (if s then q.neg else q)

/-- [log 150 DEDUCED] -/
def fSqrt : FV → FV
  | .nan => .nan
  | .inf true => .nan
  | .inf false => .inf false
  | .fin s m e => if m = 0 then .fin s 0 0 else if s then .nan else FV.ofDy false (Dy.sqrt ⟨m, e⟩)

/-- [log 150 DEDUCED] -/
def fRsqrt : FV → FV
  | .nan => .nan
  | .inf true => .nan
  | .inf false => .fin false 0 0
  | .fin s m e =>
    if m = 0 then .inf s else if s then .nan else FV.ofDy false ((⟨1, 0⟩ : Dy).div (Dy.sqrt ⟨m, e⟩))

/-- [log 150 DEDUCED] -/
def fSigm : FV → FV
  | .nan => .nan
  | .inf true => .fin false 0 0
  | .inf false => .fin false 1 0
  | .fin s m e => fvSigm (FV.fin s m e).dy

/-- [log 150 DEDUCED] -/
def fTanh : FV → FV
  | .nan => .nan
  | .inf s => .fin s 1 0
  | .fin s m e => fvTanh s (FV.fin s m e).dy

/-- sin 2πx: an exact zero is +0, except that SINT(−0) is −0. [log 150 DEDUCED] -/
def fSint : FV → FV
  | .fin s m e => if m = 0 then .fin s 0 0 else FV.ofDy false (dyTrig false (FV.fin s m e).dy)
  | _ => .nan

/-- [log 150 DEDUCED] -/
def fCost : FV → FV
  | .fin s m e => FV.ofDy false (dyTrig true (FV.fin s m e).dy)
  | _ => .nan

/-! ### Reductions (R172) -/

/-- One level of the fixed tree: adjacent results are combined in lane order. -/
def treeLevel (f : FV → FV → FV) : List FV → List FV
  | a :: b :: rest => f a b :: treeLevel f rest
  | l => l

def treeGo (f : FV → FV → FV) : Nat → List FV → List FV
  | 0, l => l
  | n + 1, l => treeGo f n (treeLevel f l)

/-- Reduce segments of 2^seg lanes and spread each result over its segment. -/
def reduceOp (f : FV → FV → FV) (lane : Bool → FV → FV) (x : Tile) (a : VecA) : Nat :=
  let seg := a.mod % 16
  let m := x.pmask a.pm
  let vs := (lanesOf (x.vreg a.va)).zipIdx.map (fun w => lane (bit m w.2) (dec32 w.1))
  let rs := treeGo f seg vs
  ofLanes ((List.range 512).map (fun i => enc32 (rs.getD (i / 2 ^ seg) .nan)))

def rsumOp : Tile → VecA → Nat :=
  reduceOp (fun p q => fp32.round (p.add q)) (fun on v => if on then v else .fin false 0 0)
def rmaxOp : Tile → VecA → Nat := reduceOp FV.max (fun on v => if on then v else .inf true)
def ramaxOp : Tile → VecA → Nat :=
  reduceOp FV.max (fun on v => match on, v with | true, .fin _ m e => .fin false m e | _, _ => .fin false 0 0)

/-! ### Conversions (R173, R174) -/

def rotOp (x : Tile) (a : VecA) : Nat :=
  let xs := lanesOf (x.vreg a.va)
  let cs := lanesOf (x.vreg a.vb)
  let ss := lanesOf (x.vreg a.vc)
  let g (l : List Word) (i : Nat) : FV := dec32 (l.getD i 0)
  ofLanes ((List.range 512).map (fun i =>
    let j := i / 2 * 2
    let c := g cs j
    let s := g ss j
    if i % 2 = 0 then enc32 (((g xs j).mul c).add (((g xs (j + 1)).mul s).neg))
    else enc32 (((g xs j).mul s).add ((g xs (j + 1)).mul c))))

/-- FTOI: nearest int32, ties to even, saturating; NaN gives 0. -/
def ftoi : FV → Word
  | .nan => 0
  | .inf s => if s then 0x80000000 else 0x7FFFFFFF
  | .fin s m e =>
    let r := if 0 ≤ e then m * 2 ^ (Nat.min e.toNat 64) else rne m (-e).toNat
    if s then (if 2 ^ 31 ≤ r then 0x80000000 else BitVec.ofNat 32 (2 ^ 32 - r))
    else (if 2 ^ 31 ≤ r then 0x7FFFFFFF else BitVec.ofNat 32 r)

def itof (w : Word) : Word := enc32 (FV.ofDy false ⟨w.toInt, 0⟩)

/-- SCALEST: the block scale of each 32 lanes, as FP32 in all of them (R174, R91). -/
def Block.scalestOp (b : Block) (x : Tile) (a : VecA) : Nat :=
  let f := b.fmt (bits a.mod 11 7)
  let vs := (lanesOf (x.vreg a.va)).map dec32
  ofLanes (((List.range 16).map (fun k =>
    let code := scaleCode f (bits a.mod 6 5) (amaxOf ((vs.drop (32 * k)).take 32))
    List.replicate 32 (enc32 (.fin false 1 ((code : Int) - 127))))).flatten)

/-! ### Memory operations (R168, R175 to R179) -/

end Sys2Proof.Machine

namespace Sys2Proof
open Sys2Proof.Machine

/-- Effective address (R168). -/
def VecM.ea (a : VecM) (x : Tile) : Nat := x.sreg a.acore a.areg + 64 * a.ofs
/-- The scale-plane address and the tensor scale code of register AREG + 1. -/
def VecM.scaleAddr (a : VecM) (x : Tile) : Nat := bits (x.sreg a.acore (a.areg + 1)) 23 0
def VecM.tensorCode (a : VecM) (x : Tile) : Nat := bits (x.sreg a.acore (a.areg + 1)) 31 24

end Sys2Proof

namespace Sys2Proof.Machine

/-- The address check of a form-M operation of n bytes (R175). -/
def vecAddrOk (ea n : Nat) : Bool := decide (ea % 64 = 0) && decide (ea + n ≤ tileBytes)

/-- A load of n bytes: VEC_ADDR, TS_UNCORRECTABLE, or its bytes to `f` (R175, R147). -/
def Block.vecLoad (t : Nat) (a : VecM) (n : Nat) (f : List Byte → Block → Block) : Block → Block :=
  Block.slot t (fun b =>
    let ea := a.ea (b.tile t)
    if !vecAddrOk ea n then b.progFault t 0x20 0 none
    else
      match b.portRead t (3 + a.pipe) ea n with
      | (some bs, b) => f bs b
      | (none, b) => b.progFault t 0x08 0 none)

/-- A store of bytes at EA, written L cycles later (R169). -/
def Block.vecStore (t : Nat) (a : VecM) (l n : Nat) (f : Tile → List Byte) : Block → Block :=
  Block.slot t (fun b =>
    let x := b.tile t
    if !vecAddrOk (a.ea x) n then b.progFault t 0x20 0 none
    else b.setTile t (x.later l (.store (a.ea x) (3 + a.pipe)) 0 (f x)))

/-- Lane mask of the low or the high half of a register. -/
def halfMask (high : Bool) : Nat := if high then (2 ^ 256 - 1) * 2 ^ 256 else 2 ^ 256 - 1

def Block.vecLdr (t : Nat) (a : VecM) (high : Bool) : Block → Block :=
  Block.vecLoad t a 1024 (fun bs b =>
    let v := leNat bs
    b.onTile t (fun x => x.later 6 (.vreg a.vr (halfMask high)) (if high then v <<< 8192 else v) []))

/-- LDC: 512 elements of SLOT decoded to FP32 (R175, R90, R95). -/
def Block.vecLdc (t : Nat) (a : VecM) (b : Block) : Block :=
  let f := b.fmt a.slot
  if b.isBlockSlot a.slot then
    let sa := a.scaleAddr (b.tile t)
    Block.slot t (fun b =>
      if decide (sa % 16 ≠ 0) || decide (tileBytes < sa + 16) then b.progFault t 0x20 0 none
      else b.vecLoad t a (64 * f.width) (fun bs b =>
        match b.portRead t (3 + a.pipe) sa 16 with
        | (none, b) => b.progFault t 0x08 0 none
        | (some sc, b) =>
          let v := leNat bs
          let lanes := (List.range 512).map (fun i =>
            enc32 (decBlockElem f (sc.getD (i / 32) 0).toNat (unpackBit f.width i v)))
          b.onTile t (fun x => x.later 8 (.vreg a.vr allLanes) (ofLanes lanes) []))) b
  else
    b.vecLoad t a 1024 (fun bs b =>
      let v := leNat bs
      let lanes := (List.range 512).map (fun i => enc32 (f.decode (bits v (16 * i + 15) (16 * i))))
      b.onTile t (fun x => x.later 8 (.vreg a.vr allLanes) (ofLanes lanes) []))

/-- STC: 512 lanes encoded to SLOT, the scales, and the census record (R175, R177). -/
def Block.vecStc (t : Nat) (a : VecM) : Block → Block :=
  Block.slot t (fun b =>
    let x := b.tile t
    let f := b.fmt a.slot
    let ea := a.ea x
    let vs := (lanesOf (x.vreg a.vr)).map dec32
    if b.isBlockSlot a.slot then
      let sa := a.scaleAddr x
      if a.sr = 2 ∧ a.tensorCode x = 0xFF then b.progFault t 0x26 0 none
      else if !vecAddrOk ea (64 * f.width) || decide (sa % 16 ≠ 0) || decide (tileBytes < sa + 16) then
        b.progFault t 0x20 0 none
      else
        let es := (List.range 16).map (fun k => encBlock f a.sr (a.tensorCode x) ((vs.drop (32 * k)).take 32))
        let c := censusOf (es.map (·.classes)).flatten vs
        let x := x.later 6 (.store ea (3 + a.pipe)) 0 (leBytes (64 * f.width) (packBits f.width (es.map (·.codes)).flatten))
        let x := x.later 6 (.store sa (3 + a.pipe)) 0 (es.map (fun e => BitVec.ofNat 8 e.scale))
        (b.setTile t (x.later 6 (.census a.cid c) 0 [])).censusStatus t c
    else if !vecAddrOk ea 1024 then b.progFault t 0x20 0 none
    else
      let es := vs.map f.enc
      let c := censusOf (es.map (·.2)) vs
      let x := x.later 6 (.store ea (3 + a.pipe)) 0 ((es.map (fun e => leBytes 2 e.1)).flatten)
      (b.setTile t (x.later 6 (.census a.cid c) 0 [])).censusStatus t c)

/-! ### Meanings of the vector rows -/

/-- OP_RESULT_READY: every result whose ready cycle has come lands (R166). -/
def execOpResultReady (t : Nat) (s : State) : Host.Outcome State Fault Refusal := s.run (Block.landResults t)

/-- VEC_ADD: VA + VB (R170). -/
def execVecAdd (t : Nat) (a : VecA) (s : State) : Host.Outcome State Fault Refusal :=
  s.run (Block.vecA t a 4 (fpOp (fun p q _ => p.add q)))
/-- VEC_SUB: VA − VB. -/
def execVecSub (t : Nat) (a : VecA) (s : State) : Host.Outcome State Fault Refusal :=
  s.run (Block.vecA t a 4 (fpOp (fun p q _ => p.sub q)))
/-- VEC_MUL: VA × VB. -/
def execVecMul (t : Nat) (a : VecA) (s : State) : Host.Outcome State Fault Refusal :=
  s.run (Block.vecA t a 4 (fpOp (fun p q _ => p.mul q)))
/-- VEC_FMA: VA × VB + VC with one rounding. -/
def execVecFma (t : Nat) (a : VecA) (s : State) : Host.Outcome State Fault Refusal :=
  s.run (Block.vecA t a 4 (fpOp (fun p q r => (p.mul q).add r)))
/-- VEC_MIN: minimum, NaN if either is NaN, −0 below +0. -/
def execVecMin (t : Nat) (a : VecA) (s : State) : Host.Outcome State Fault Refusal :=
  s.run (Block.vecA t a 4 (fpOp (fun p q _ => p.min q)))
/-- VEC_MAX: maximum. -/
def execVecMax (t : Nat) (a : VecA) (s : State) : Host.Outcome State Fault Refusal :=
  s.run (Block.vecA t a 4 (fpOp (fun p q _ => p.max q)))
/-- VEC_ABS: clears the sign; a NaN gives the written NaN (R170). -/
def execVecAbs (t : Nat) (a : VecA) (s : State) : Host.Outcome State Fault Refusal :=
  s.run (Block.vecA t a 4 (laneOp (fun p _ _ => if (dec32 p).isNan then 0x7FC00000 else p &&& 0x7FFFFFFF)))
/-- VEC_NEG: flips the sign; a NaN gives the written NaN. -/
def execVecNeg (t : Nat) (a : VecA) (s : State) : Host.Outcome State Fault Refusal :=
  s.run (Block.vecA t a 4 (laneOp (fun p _ _ => if (dec32 p).isNan then 0x7FC00000 else p ^^^ 0x80000000)))
/-- VEC_SEL: lane i: VA if Pm bit i, else VB; every lane is written. -/
def execVecSel (t : Nat) (a : VecA) (s : State) : Host.Outcome State Fault Refusal :=
  s.run (Block.vecAll t a 3 (fun x a => mergeLanes (x.mask a.pm) (x.vreg a.va) (x.vreg a.vb)))
/-- VEC_CMP: mask bit i ← VA cond VB; masked-off bits are 0. -/
def execVecCmp (t : Nat) (a : VecA) (s : State) : Host.Outcome State Fault Refusal :=
  s.run (Block.slot t (fun b => b.onTile t (fun x =>
    let ps := (lanesOf (x.vreg a.va)).zip (lanesOf (x.vreg a.vb))
    let m := ps.zipIdx.foldl (fun acc w =>
      acc ||| (b2n (FV.cmp (a.mod % 8) (dec32 w.1.1) (dec32 w.1.2) && bit (x.pmask a.pm) w.2) <<< w.2)) 0
    x.later 4 (.mask (a.vd % 8)) m [])))
/-- VEC_AND: bitwise AND. -/
def execVecAnd (t : Nat) (a : VecA) (s : State) : Host.Outcome State Fault Refusal :=
  s.run (Block.vecA t a 3 (laneOp (fun p q _ => p &&& q)))
/-- VEC_OR: bitwise OR. -/
def execVecOr (t : Nat) (a : VecA) (s : State) : Host.Outcome State Fault Refusal :=
  s.run (Block.vecA t a 3 (laneOp (fun p q _ => p ||| q)))
/-- VEC_XOR: bitwise XOR. -/
def execVecXor (t : Nat) (a : VecA) (s : State) : Host.Outcome State Fault Refusal :=
  s.run (Block.vecA t a 3 (laneOp (fun p q _ => p ^^^ q)))
/-- VEC_IADD: 32-bit integer add. -/
def execVecIadd (t : Nat) (a : VecA) (s : State) : Host.Outcome State Fault Refusal :=
  s.run (Block.vecA t a 3 (laneOp (fun p q _ => p + q)))
/-- VEC_CVT: rounds to SLOT 1 or 2 and widens exactly (R95). -/
def execVecCvt (t : Nat) (a : VecA) (s : State) : Host.Outcome State Fault Refusal :=
  s.run (Block.vecA t a 4 (laneOp (fun p _ _ =>
    enc32 ((if bits a.mod 11 7 = 1 then bf16 else fp16).round (dec32 p)))))
/-- VEC_SCALEST: block scales (R174). -/
def execVecScalest (t : Nat) (a : VecA) (s : State) : Host.Outcome State Fault Refusal :=
  s.run (Block.slot t (fun b => b.onTile t (fun x => x.later 8 (.vreg a.vd allLanes) (b.scalestOp x a) [])))
/-- VEC_BCAST: every lane ← a scalar register. -/
def execVecBcast (t : Nat) (a : VecA) (s : State) : Host.Outcome State Fault Refusal :=
  s.run (Block.vecA t a 3 (fun x a =>
    ofLanes (List.replicate 512 (BitVec.ofNat 32 (x.sreg (bits a.mod 6 5) (bits a.mod 4 0))))))
/-- VEC_ROT: rotary rotation of lane pairs (R173). -/
def execVecRot (t : Nat) (a : VecA) (s : State) : Host.Outcome State Fault Refusal :=
  s.run (Block.vecA t a 6 rotOp)
/-- VEC_FTOI: FP32 to int32 (R174). -/
def execVecFtoi (t : Nat) (a : VecA) (s : State) : Host.Outcome State Fault Refusal :=
  s.run (Block.vecA t a 4 (laneOp (fun p _ _ => ftoi (dec32 p))))
/-- VEC_ITOF: int32 to FP32 (R174). -/
def execVecItof (t : Nat) (a : VecA) (s : State) : Host.Outcome State Fault Refusal :=
  s.run (Block.vecA t a 4 (laneOp (fun p _ _ => itof p)))
/-- VEC_EXP2: special function (R171). -/
def execVecExp2 (t : Nat) (a : VecA) (s : State) : Host.Outcome State Fault Refusal :=
  s.run (Block.vecA t a 12 (sfOp (fun p _ => fExp2 p)))
/-- VEC_EXP: special function (R171). -/
def execVecExp (t : Nat) (a : VecA) (s : State) : Host.Outcome State Fault Refusal :=
  s.run (Block.vecA t a 12 (sfOp (fun p _ => fExp p)))
/-- VEC_EXPD: e^(VA − VB) (R171). -/
def execVecExpd (t : Nat) (a : VecA) (s : State) : Host.Outcome State Fault Refusal :=
  s.run (Block.vecA t a 12 (sfOp fExpd))
/-- VEC_LOG2: special function (R171). -/
def execVecLog2 (t : Nat) (a : VecA) (s : State) : Host.Outcome State Fault Refusal :=
  s.run (Block.vecA t a 12 (sfOp (fun p _ => fLog2 p)))
/-- VEC_RCP: special function (R171). -/
def execVecRcp (t : Nat) (a : VecA) (s : State) : Host.Outcome State Fault Refusal :=
  s.run (Block.vecA t a 12 (sfOp (fun p _ => fRcp p)))
/-- VEC_RSQRT: special function (R171). -/
def execVecRsqrt (t : Nat) (a : VecA) (s : State) : Host.Outcome State Fault Refusal :=
  s.run (Block.vecA t a 12 (sfOp (fun p _ => fRsqrt p)))
/-- VEC_SQRT: special function (R171). -/
def execVecSqrt (t : Nat) (a : VecA) (s : State) : Host.Outcome State Fault Refusal :=
  s.run (Block.vecA t a 12 (sfOp (fun p _ => fSqrt p)))
/-- VEC_SIGM: special function (R171). -/
def execVecSigm (t : Nat) (a : VecA) (s : State) : Host.Outcome State Fault Refusal :=
  s.run (Block.vecA t a 12 (sfOp (fun p _ => fSigm p)))
/-- VEC_TANH: special function (R171). -/
def execVecTanh (t : Nat) (a : VecA) (s : State) : Host.Outcome State Fault Refusal :=
  s.run (Block.vecA t a 12 (sfOp (fun p _ => fTanh p)))
/-- VEC_SINT: special function (R171). -/
def execVecSint (t : Nat) (a : VecA) (s : State) : Host.Outcome State Fault Refusal :=
  s.run (Block.vecA t a 12 (sfOp (fun p _ => fSint p)))
/-- VEC_COST: special function (R171). -/
def execVecCost (t : Nat) (a : VecA) (s : State) : Host.Outcome State Fault Refusal :=
  s.run (Block.vecA t a 12 (sfOp (fun p _ => fCost p)))
/-- VEC_RSUM: segmented sum over a fixed binary tree (R172). -/
def execVecRsum (t : Nat) (a : VecA) (s : State) : Host.Outcome State Fault Refusal :=
  s.run (Block.vecAll t a 14 rsumOp)
/-- VEC_RMAX: segmented maximum. -/
def execVecRmax (t : Nat) (a : VecA) (s : State) : Host.Outcome State Fault Refusal :=
  s.run (Block.vecAll t a 14 rmaxOp)
/-- VEC_RAMAX: segmented largest finite magnitude. -/
def execVecRamax (t : Nat) (a : VecA) (s : State) : Host.Outcome State Fault Refusal :=
  s.run (Block.vecAll t a 14 ramaxOp)
/-- VEC_LDR_L: low half ← 1 KiB at EA. -/
def execVecLdrL (t : Nat) (a : VecM) (s : State) : Host.Outcome State Fault Refusal :=
  s.run (Block.vecLdr t a false)
/-- VEC_LDR_H: high half ← 1 KiB at EA. -/
def execVecLdrH (t : Nat) (a : VecM) (s : State) : Host.Outcome State Fault Refusal :=
  s.run (Block.vecLdr t a true)
/-- VEC_LDC: 512 elements of SLOT decoded (R175). -/
def execVecLdc (t : Nat) (a : VecM) (s : State) : Host.Outcome State Fault Refusal :=
  s.run (Block.slot t (Block.vecLdc t a))
/-- VEC_MLD: mask ← 64 bytes at EA. -/
def execVecMld (t : Nat) (a : VecM) (s : State) : Host.Outcome State Fault Refusal :=
  s.run (Block.vecLoad t a 64 (fun bs b => b.onTile t (fun x => x.later 4 (.mask (a.vr % 8)) (leNat bs) [])))
/-- VEC_STR_L: 1 KiB at EA ← low half. -/
def execVecStrL (t : Nat) (a : VecM) (s : State) : Host.Outcome State Fault Refusal :=
  s.run (Block.vecStore t a 4 1024 (fun x => leBytes 1024 (x.vreg a.vr)))
/-- VEC_STR_H: 1 KiB at EA ← high half. -/
def execVecStrH (t : Nat) (a : VecM) (s : State) : Host.Outcome State Fault Refusal :=
  s.run (Block.vecStore t a 4 1024 (fun x => leBytes 1024 (x.vreg a.vr >>> 8192)))
/-- VEC_STC: 512 lanes encoded to SLOT (R175, R177). -/
def execVecStc (t : Nat) (a : VecM) (s : State) : Host.Outcome State Fault Refusal :=
  s.run (Block.vecStc t a)
/-- VEC_MST: 64 bytes at EA ← mask. -/
def execVecMst (t : Nat) (a : VecM) (s : State) : Host.Outcome State Fault Refusal :=
  s.run (Block.vecStore t a 4 64 (fun x => leBytes 64 (x.mask (a.vr % 8))))
/-- VEC_CSTORE: 64 bytes at EA ← census record (R179). -/
def execVecCstore (t : Nat) (a : VecM) (s : State) : Host.Outcome State Fault Refusal :=
  s.run (Block.vecStore t a 4 64 (fun x => leBytes 64 (x.seenCensus.census.get Census.empty a.cid).toNat))
/-- VEC_CCLR: census record ← 0, two cycles later (R179). -/
def execVecCclr (t : Nat) (a : VecM) (s : State) : Host.Outcome State Fault Refusal :=
  s.run (Block.slot t (fun b => b.onTile t (fun x => x.later 2 (.cclr a.cid) 0 [])))

end Sys2Proof.Machine
end

