-- ==== Sys2Proof/Machine/Attn.lean ====
section
/-!
DEFINITION. The attention engine (spec/09, R215 to R233, R246): the descriptors of ATTN_FWD and ATTN_BWD, format pairing,
masks, online softmax, the backward pass, the append of tokens, regeneration runs, and the completion.
-/

namespace Sys2Proof.Machine

/-! ### Descriptors (R218, R219, R229) -/

/-- A tensor record. -/
structure TRec where
  eda : Nat
  sda : Nat
  pitch : Nat
  spitch : Nat
deriving DecidableEq, Repr

def TRec.of (x : Nat) : TRec :=
  { eda := bits x 255 204, sda := bits x 203 152, pitch := bits x 151 128, spitch := bits x 127 104 }

structure Attn where
  bwd : Bool
  tiles : List Nat
  heads : Nat
  kvHeads : Nat
  hd : Nat
  lq : Nat
  lk : Nat
  scale : Nat
  census : Nat
  tscale : Nat
  qSlot : Nat
  kSlot : Nat
  vSlot : Nat
  pSlot : Nat
  outSlot : Nat
  rule : Nat
  kvMode : Bool
  append : Bool
  maskEn : Bool
  statEn : Bool
  seq : Nat
  censusDa : Nat
  maskDa : Nat
  bitmapDa : Nat
  gradSlot : Nat
  q : TRec
  k : TRec
  v : TRec
  o : TRec
  statDa : Nat
  dqpDa : Nat
  dO : TRec
  dQ : TRec
  dK : TRec
  dV : TRec
  /-- key tokens, and for a paged command the table of pages it attends over -/
  keys : Nat
  table : List Nat
deriving DecidableEq, Repr

def Attn.of (p : Packet) : Attn :=
  let f (hi lo : Nat) : Nat := p.f hi lo
  let r (byte : Nat) : TRec := TRec.of (f (8 * byte + 255) (8 * byte))
  { bwd := p.opcode = 0x0401, tiles := maskList 144 (f 511 368), heads := f 367 352, kvHeads := f 351 336, hd := f 335 328,
    lq := f 327 304, lk := f 303 280, scale := f 279 248, census := f 247 240, tscale := f 239 232, qSlot := f 231 227,
    kSlot := f 226 222, vSlot := f 221 217, pSlot := f 216 212, outSlot := f 211 207, rule := f 206 205,
    kvMode := bit p.pnum 204, append := bit p.pnum 203, maskEn := bit p.pnum 202, statEn := bit p.pnum 201,
    seq := f 200 185, censusDa := f 184 133, maskDa := f 132 81, bitmapDa := f 80 29, gradSlot := f 28 24,
    q := r 0x40, k := r 0x60, v := r 0x80, o := r 0xA0, statDa := f 1791 1740, dqpDa := f 1687 1636,
    dO := r 0x100, dQ := r 0x120, dK := r 0x140, dV := r 0x160, keys := f 303 280, table := [] }

def Attn.nqb (d : Attn) : Nat := ceilDiv d.lq 96
def Attn.nkb (d : Attn) : Nat := ceilDiv d.keys 64
/-- The key/value head that a query head reads (R216). -/
def Attn.group (d : Attn) (h : Nat) : Nat := h * d.kvHeads / d.heads
def Attn.sigma (d : Attn) : FV := dec32 (BitVec.ofNat 32 d.scale)

/-! ### Pairs (R220) -/

def attnPair (b : Block) (x y : Nat) : Bool :=
  let narrow (s : Nat) : Bool := decide (3 ≤ s) && decide (s ≤ 7)
  let narrowU (s : Nat) : Bool := narrow s || (decide (10 ≤ s) && b.isBlockSlot s)
  let wide (s : Nat) : Bool := decide (s = 1) || decide (s = 2)
  if wide x && wide y then decide (x = y)
  else if wide x then narrowU y
  else narrow x && (narrowU y || wide y)

/-! ### Operand lines (R216, R217, R221, R235) -/

/-- A line of operands: values, scale code, values saturated when raised. -/
abbrev Line := List FV × Nat × Nat

/-- Lines of 32 dimensions of a token-major tensor's row t, head h; a row at or past the count is zero. -/
def Block.rowLines (b : Block) (d : Attn) (r : TRec) (slot raise h t count : Nat) : List Line :=
  (List.range (d.hd / 32)).map (fun j =>
    if count ≤ t then b.opLine slot raise (List.replicate 32 0) 0
    else b.opLine slot raise (b.codesAt (r.eda + 64 * r.pitch * t) (b.fmt slot).width (h * d.hd + 32 * j) 32)
      (if b.isBlockSlot slot then b.byteAt (r.sda + r.spitch * t + h * d.hd / 32 + j) else 0))

/-- DA of the head's part of the page that holds a token. -/
def Block.kvHeadDa (b : Block) (d : Attn) (g t : Nat) : Nat :=
  match b.pool with
  | some pl => pl.pageDa + d.table.getD (t / 64) 0 * b.pageBytes pl + g * b.headBytes pl
  | none => 0

/-- Key lines of token t, key/value head g. -/
def Block.keyLines (b : Block) (d : Attn) (raise g t : Nat) : List Line :=
  if !d.kvMode then b.rowLines d d.k d.kSlot raise g t d.keys
  else
    let base := b.kvHeadDa d g t
    (List.range (d.hd / 32)).map (fun j =>
      if d.keys ≤ t then b.opLine d.kSlot raise (List.replicate 32 0) 0
      else b.opLine d.kSlot raise (b.codesAt base (b.fmt d.kSlot).width ((t % 64) * d.hd + 32 * j) 32)
        (if b.isBlockSlot d.kSlot then b.byteAt (base + b.kvPart d.hd d.kSlot + (t % 64) * d.hd / 32 + j) else 0))

/-- Value lines of dimension e over the 64 keys of block kb: two lines of 32 keys. -/
def Block.valLines (b : Block) (d : Attn) (raise g e kb : Nat) : List Line :=
  (List.range 2).map (fun j =>
    let t := 64 * kb + 32 * j
    let n := Nat.min 32 (d.keys - t)
    let w := (b.fmt d.vSlot).width
    if n = 0 then b.opLine d.vSlot raise (List.replicate 32 0) 0
    else if !d.kvMode then
      let row := g * d.hd + e
      b.opLine d.vSlot raise (b.codesAt (d.v.eda + 64 * d.v.pitch * row) w t n ++ List.replicate (32 - n) 0)
        (if b.isBlockSlot d.vSlot then b.byteAt (d.v.sda + d.v.spitch * row + t / 32) else 0)
    else
      let base := b.kvHeadDa d g t + b.kvPart d.hd d.kSlot + b.kvScales d.hd d.kSlot
      b.opLine d.vSlot raise (b.codesAt (base + e * 8 * w) w (t % 64) n ++ List.replicate (32 - n) 0)
        (if b.isBlockSlot d.vSlot then b.byteAt (base + b.kvPart d.hd d.vSlot + 2 * e + j) else 0))

/-- One cell: lines contracted in order (R115, R117), and the values of a cell. [log 74 DEDUCED] -/
def dotLines (raise : Nat) (fa fb : Fmt) (as bs : List Line) : Cell :=
  (as.zip bs).foldl (fun c x =>
    if raise = 0 then c.narrow fa fb x.1.1 x.2.1 x.1.2.1 x.2.2.1 true else c.wide x.1.1 x.2.1) Cell.zero

def satOf (ls : List (List Line)) : Nat := ls.foldl (fun a l => l.foldl (fun a x => a + x.2.2) a) 0

def Block.raiseOf (b : Block) (x y : Nat) : Nat := ((b.pairClass x y).map (·.2)).getD 1

/-- A round to FP32 (R170). -/
def r32 (v : FV) : FV := fp32.round v

/-! ### Masks (R222, R223) -/

def Block.maskEntry (b : Block) (d : Attn) (qb kb : Nat) : Nat :=
  if d.maskEn then leNat (b.daVal (d.maskDa + 4 * (qb * d.nkb + kb)) 4) else 0x40000000
def Block.maskCode (b : Block) (d : Attn) (qb kb : Nat) : Nat := bits (b.maskEntry d qb kb) 31 30

/-- The allowed keys of each row of a block pair, as 64-bit words by row. -/
def Block.allowed (b : Block) (d : Attn) (qb kb : Nat) : List Nat :=
  let n := Nat.min 64 (d.keys - 64 * kb)
  let e := b.maskEntry d qb kb
  (List.range 96).map (fun r =>
    (if bits e 31 30 = 1 then 2 ^ 64 - 1
     else if bits e 31 30 = 2 then leNat (b.daVal (d.bitmapDa + 768 * bits e 29 0 + 8 * r) 8) else 0) % 2 ^ n)

/-! ### Scores and probabilities (R224) -/

/-- Scaled, masked scores of a block pair by row and key, and the values saturated when raised. -/
def Block.scores (b : Block) (d : Attn) (h qb kb : Nat) : List (List FV) × Nat :=
  let raise := b.raiseOf d.qSlot d.kSlot
  let qs := (List.range 96).map (fun r => b.rowLines d d.q d.qSlot raise h (96 * qb + r) d.lq)
  let ks := (List.range 64).map (fun c => b.keyLines d raise (d.group h) (64 * kb + c))
  let al := b.allowed d qb kb
  (qs.zip al |>.map (fun x => ks.zipIdx.map (fun k =>
      if bit x.2 k.2 then r32 ((r32 (dotLines raise (b.fmt d.qSlot) (b.fmt d.kSlot) x.1 k.1).fv).mul d.sigma)
      else .inf true)),
   satOf qs + satOf ks)

/-- Encode a row of 64 probabilities to P_SLOT: operand lines and the values decoded to FP32. -/
def Block.encProbs (b : Block) (d : Attn) (raise : Nat) (ps : List FV) : List Line × List FV :=
  let f := b.fmt d.pSlot
  let halves := [ps.take 32, ps.drop 32]
  let ls := halves.map (fun half =>
    if b.isBlockSlot d.pSlot then
      let e := encBlock f 1 0 half
      (b.opLine d.pSlot raise e.codes e.scale, e.codes.map (fun c => r32 (decBlockElem f e.scale c)))
    else
      let cs := half.map (fun v => (f.enc v).1)
      (b.opLine d.pSlot raise cs 0, cs.map (fun c => r32 (f.decode c))))
  (ls.map (·.1), (ls.map (·.2)).flatten)

def rsum (seg : Nat) (vs : List FV) : FV := ((treeGo (fun p q => r32 (p.add q)) seg vs).head?).getD .nan
def rmax (seg : Nat) (vs : List FV) : FV := ((treeGo FV.max seg vs).head?).getD .nan

/-- A query row in progress: m, l and O. -/
structure QRow where
  m : FV
  l : FV
  o : List FV
deriving DecidableEq, Repr

/-- One key block of `attend` (R224). -/
def Block.attendBlock (b : Block) (d : Attn) (h qb kb : Nat) (rows : List QRow) : List QRow × Nat :=
  let zero : FV := .fin false 0 0
  let raise := b.raiseOf d.pSlot d.vSlot
  let sc := b.scores d h qb kb
  let vs := (List.range d.hd).map (fun e => b.valLines d raise (d.group h) e kb)
  let done := (rows.zip sc.1).map (fun x =>
    let mn := x.1.m.max (rmax 6 x.2)
    let a : FV := if mn = .inf true then .fin false 1 0 else r32 (fExpd x.1.m mn)
    let p := x.2.map (fun s => if mn = .inf true then zero else r32 (fExpd s mn))
    let e := b.encProbs d raise p
    let pv := vs.map (fun v => r32 (dotLines raise (b.fmt d.pSlot) (b.fmt d.vSlot) e.1 v).fv)
    let row : QRow := {
      m := mn, l := r32 ((x.1.l.mul a).add (rsum 6 e.2)),
      o := (x.1.o.zip pv).map (fun y => r32 ((y.1.mul a).add y.2)) }
    (row, e.1))
  (done.map (·.1), sc.2 + (d.hd / 64) * satOf (done.map (·.2)) + satOf vs)

/-- A work unit of ATTN_FWD: its rows, saturations and EMPTY blocks skipped. -/
def Block.attend (b : Block) (d : Attn) (h qb : Nat) : List QRow × Nat × Nat :=
  let row : QRow := { m := .inf true, l := .fin false 0 0, o := List.replicate d.hd (.fin false 0 0) }
  (List.range d.nkb).foldl (fun (acc : List QRow × Nat × Nat) kb =>
    if b.maskCode d qb kb = 0 then (acc.1, acc.2.1, acc.2.2 + 1)
    else
      let r := b.attendBlock d h qb kb acc.1
      (r.1, acc.2.1 + r.2, acc.2.2)) (List.replicate 96 row, 0, 0)

/-- An output row (R225): its elements, and the m and l saved. -/
def QRow.finish (r : QRow) : List FV × FV × FV :=
  if r.l.isZero then (r.o.map (fun _ => .fin false 0 0), .inf true, .fin false 0 0)
  else
    let rc := r32 (fRcp r.l)
    (r.o.map (fun x => r32 (x.mul rc)), r.m, r.l)

/-! ### Outputs -/

/-- Writes of a row of one head in a slot, with classes (R94, R217). -/
def Block.outRow (b : Block) (d : Attn) (t : TRec) (slot h q : Nat) (vs : List FV) :
    List (Nat × List Byte) × List EncClass :=
  let f := b.fmt slot
  let ea := t.eda + 64 * t.pitch * q + h * d.hd * f.width / 8
  if b.isBlockSlot slot then
    let es := (List.range (d.hd / 32)).map (fun j => encBlock f d.rule d.tscale ((vs.drop (32 * j)).take 32))
    let codes := (es.map (·.codes)).flatten
    ([(ea, leBytes (d.hd * f.width / 8) (packBits f.width codes)),
      (t.sda + t.spitch * q + h * d.hd / 32, (es.map (fun e => leBytes 1 e.scale)).flatten)], (es.map (·.classes)).flatten)
  else
    let es := vs.map f.enc
    ([(ea, (es.map (fun e => leBytes (f.width / 8) e.1)).flatten)], es.map (·.2))

/-- What one unit gives: writes, census, EMPTY blocks skipped. -/
def Block.fwdUnit (b : Block) (d : Attn) (u : Nat) : BlockOut :=
  let h := u / d.nqb
  let qb := u % d.nqb
  let r := b.attend d h qb
  let rows := (r.1.zipIdx.filter (fun x => decide (96 * qb + x.2 < d.lq))).map (fun x =>
    let f := x.1.finish
    let q := 96 * qb + x.2
    let o := b.outRow d d.o d.outSlot h q f.1
    let st := if d.statEn then
        [(d.statDa + 8 * (h * d.lq + q), leBytes 8 (fields [(32, (enc32 f.2.2).toNat), (0, (enc32 f.2.1).toNat)]))] else []
    (o.1 ++ st, o.2, f.1))
  let c := censusOf (rows.map (·.2.1)).flatten (rows.map (·.2.2)).flatten
  { writes := (rows.map (·.1)).flatten, census := { c with sat := c.sat + r.2.1 }, skipped := r.2.2 }

/-! ### The backward pass (R230, R231) -/

/-- A row of a token-major tensor decoded to FP32 values. -/
def Block.rowVals (b : Block) (d : Attn) (t : TRec) (slot h q : Nat) : List FV :=
  ((b.rowLines d t slot 0 h q d.lq).map (fun l => l.1.map (fun v =>
    if b.isBlockSlot slot then (match e8m0 l.2.1 with | some x => v.scale x | none => .nan) else v))).flatten

/-- D[h][q] (R230). -/
def Block.dRow (b : Block) (d : Attn) (h q : Nat) : FV :=
  let x := b.rowVals d d.dO 1 h q
  let y := (b.rowVals d d.o d.outSlot h q).map r32
  rsum (if d.hd = 128 then 7 else 6) ((x.zip y).map (fun p => r32 ((r32 p.1).mul p.2)))

/-- Values of a line list raised to BF16 where narrow, in order, and how many saturated. -/
def Block.raised (b : Block) (slot : Nat) (ls : List Line) : List FV × Nat :=
  ((ls.map (·.1)).flatten, if b.isBlockSlot slot then ls.foldl (fun a l => a + l.2.2) 0 else 0)

/-- The probabilities P and the score gradients dS of a block pair, by row and key (R230), and values saturated. [log 74 DEDUCED] -/
def Block.gradScores (b : Block) (d : Attn) (h qb kb : Nat) : List (List (FV × FV)) × Nat :=
  let sc := b.scores d h qb kb
  let vs := (List.range d.hd).map (fun e => b.raised d.vSlot (b.valLines d 1 (d.group h) e kb))
  let rows := sc.1.zipIdx.map (fun x =>
    let q := 96 * qb + x.2
    let st := if q < d.lq then leNat (b.daVal (d.statDa + 8 * (h * d.lq + q)) 8) else 0
    let m := dec32 (BitVec.ofNat 32 (bits st 31 0))
    let l := dec32 (BitVec.ofNat 32 (bits st 63 32))
    let dO := b.rowVals d d.dO 1 h q
    let dd : FV := if q < d.lq then b.dRow d h q else .fin false 0 0
    let rc := r32 (fRcp l)
    x.1.zipIdx.map (fun s =>
      let p : FV := if l = .fin false 0 0 || l.isZero then .fin false 0 0 else r32 ((r32 (fExpd s.1 m)).mul rc)
      let dp := r32 (Cell.zero.wide dO (vs.map (fun v => v.1.getD s.2 (.fin false 0 0)))).fv
      (p, r32 ((r32 ((r32 (dp.sub dd)).mul p)).mul d.sigma))))
  (rows, sc.2 + vs.foldl (fun a v => a + v.2) 0)

/-- Block pairs of a key/value head's key block, in order: (h, qb), EMPTY ones apart. -/
def Block.pairsOf (b : Block) (d : Attn) (g kb : Nat) : List (Nat × Nat) × Nat :=
  let all := ((List.range d.heads).filter (fun h => d.group h = g)).flatMap (fun h => (List.range d.nqb).map (fun qb => (h, qb)))
  let on := all.filter (fun x => b.maskCode d x.2 kb ≠ 0)
  (on, all.length - on.length)

def bf16r (v : FV) : FV := bf16.round v

/-- What one unit (g, kb) adds: writes of dK and dV, census, skipped. -/
def Block.bwdUnit (b : Block) (d : Attn) (u : Nat) : BlockOut :=
  let g := u / d.nkb
  let kb := u % d.nkb
  let ps := b.pairsOf d g kb
  let zero := List.replicate 64 (List.replicate d.hd Cell.zero)
  let add (cs : List (List Cell)) (ws : List FV) (xs : List FV) : List (List Cell) :=
    (cs.zip ws).map (fun c => (c.1.zip xs).map (fun y => y.1.wide [c.2] [y.2]))
  let acc := ps.1.foldl (fun (acc : List (List Cell) × List (List Cell) × Nat) hq =>
    let gs := b.gradScores d hq.1 hq.2 kb
    let sat := gs.2
    gs.1.zipIdx.foldl (fun (a : List (List Cell) × List (List Cell) × Nat) r =>
      let q := 96 * hq.2 + r.2
      if d.lq ≤ q then a else
      let qs := b.raised d.qSlot (b.rowLines d d.q d.qSlot 1 hq.1 q d.lq)
      (add a.1 (r.1.map (fun x => bf16r x.2)) qs.1, add a.2.1 (r.1.map (fun x => bf16r x.1)) (b.rowVals d d.dO 1 hq.1 q),
       a.2.2 + qs.2)) (acc.1, acc.2.1, acc.2.2 + sat)) (zero, zero, 0)
  let rows (t : TRec) (cs : List (List Cell)) : List (List (Nat × List Byte) × List EncClass × List FV) :=
    (cs.zipIdx.filter (fun x => decide (64 * kb + x.2 < d.keys))).map (fun x =>
      let vs := x.1.map Cell.fv
      let o := b.outRow d t d.gradSlot g (64 * kb + x.2) vs
      (o.1, o.2, vs))
  let rk := rows d.dK acc.1
  let rv := rows d.dV acc.2.1
  let cs (r : List (List (Nat × List Byte) × List EncClass × List FV)) : Census :=
    censusOf (r.map (·.2.1)).flatten (r.map (·.2.2)).flatten
  let c := (cs rk).add (cs rv)
  { writes := (rk ++ rv).flatMap (·.1), census := { c with sat := c.sat + acc.2.2 }, skipped := ps.2 }

/-- The dQ part of (h, qb) over some key blocks in increasing order: 96 rows of HEAD_DIM cells. -/
def Block.dqPart (b : Block) (d : Attn) (h qb : Nat) (kbs : List Nat) : List (List Cell) × Nat :=
  kbs.foldl (fun (acc : List (List Cell) × Nat) kb =>
    if b.maskCode d qb kb = 0 then acc else
    let gs := (b.gradScores d h qb kb).1
    let ks := (List.range 64).map (fun c => b.raised d.kSlot (b.keyLines d 1 (d.group h) (64 * kb + c)))
    ((acc.1.zip gs).map (fun r =>
      r.1.zipIdx.map (fun c => c.1.wide (r.2.map (fun x => bf16r x.2)) (ks.map (fun k => k.1.getD c.2 (.fin false 0 0))))),
     acc.2 + ks.foldl (fun a k => a + k.2) 0)) (List.replicate 96 (List.replicate d.hd Cell.zero), 0)

/-- One level of split_tree, and the tree (R127). -/
def mergeLevel : List (List Cell) → List (List Cell)
  | a :: c :: rest => (a.zip c).map (fun x => x.1.merge (acc48Read x.2.acc48)) :: mergeLevel rest
  | l => l

def splitTree : Nat → List (List Cell) → List Cell
  | 0, l => l.headD []
  | n + 1, l => if l.length ≤ 1 then l.headD [] else splitTree n (mergeLevel l)

/-- Units that the i-th of NT tiles takes (R227). -/
def unitsOf (nu nt i : Nat) : List Nat := (List.range ((i + 1) * nu / nt - i * nu / nt)).map (· + i * nu / nt)

/-- dQ of one (h, qb): its parts, in increasing key order, the combined rows, writes of both (R231). -/
def Block.dqOut (b : Block) (d : Attn) (h qb : Nat) : BlockOut :=
  let g := d.group h
  let nt := d.tiles.length
  let smax := ceilDiv nt d.kvHeads + 1
  let mine := (List.range nt).filterMap (fun i =>
    let kbs := (unitsOf (d.kvHeads * d.nkb) nt i).filterMap (fun u => if u / d.nkb = g then some (u % d.nkb) else none)
    if kbs.isEmpty then none else some kbs)
  let parts := mine.map (fun kbs => b.dqPart d h qb kbs)
  let flat := parts.map (fun p => p.1.flatten)
  let ws := flat.zipIdx.map (fun p =>
    (d.dqpDa + 8 * 96 * d.hd * ((h * d.nqb + qb) * smax + p.2), (p.1.map (fun c => leBytes 8 c.acc48)).flatten))
  let root := splitTree (flat.length + 1) (flat.map (fun p => p.map (fun c => acc48Read c.acc48)))
  let rows := ((List.range 96).filter (fun r => decide (96 * qb + r < d.lq))).map (fun r =>
    let vs := ((root.drop (d.hd * r)).take d.hd).map Cell.fv
    let o := b.outRow d d.dQ d.gradSlot h (96 * qb + r) vs
    (o.1, o.2, vs))
  let c := censusOf (rows.map (·.2.1)).flatten (rows.map (·.2.2)).flatten
  { writes := ws ++ rows.flatMap (·.1), census := { c with sat := c.sat + parts.foldl (fun a p => a + p.2) 0 }, skipped := 0 }

/-! ### What is fetched -/

def gran64 (da n : Nat) : Nat × Nat := (da / 64 * 64, (da + n + 63) / 64 * 64 - da / 64 * 64)

def Block.rowFetch (b : Block) (d : Attn) (t : TRec) (slot h q : Nat) : List (Nat × Nat) :=
  let w := (b.fmt slot).width
  [gran64 (t.eda + 64 * t.pitch * q + h * d.hd * w / 8) (d.hd * w / 8)] ++
    (if b.isBlockSlot slot then [gran64 (t.sda + t.spitch * q + h * d.hd / 32) (d.hd / 32)] else [])

/-- Keys and values of block kb of head g. -/
def Block.kvFetch (b : Block) (d : Attn) (g kb : Nat) : List (Nat × Nat) :=
  if d.kvMode then [gran64 (b.kvHeadDa d g (64 * kb)) (match b.pool with | some pl => b.headBytes pl | none => 0)]
  else
    let n := Nat.min 64 (d.keys - 64 * kb)
    (List.range n).flatMap (fun c => b.rowFetch d d.k d.kSlot g (64 * kb + c)) ++
    (List.range d.hd).flatMap (fun e =>
      let row := g * d.hd + e
      let w := (b.fmt d.vSlot).width
      [gran64 (d.v.eda + 64 * d.v.pitch * row + 64 * kb * w / 8) (ceilDiv (n * w) 8)] ++
        (if b.isBlockSlot d.vSlot then [gran64 (d.v.sda + d.v.spitch * row + 2 * kb) (ceilDiv n 32)] else []))

/-- Rows, statistics and mask of a block pair. -/
def Block.pairFetch (b : Block) (d : Attn) (h qb kb : Nat) : List (Nat × Nat) :=
  (if d.maskEn && b.maskCode d qb kb = 2 then [gran64 (d.bitmapDa + 768 * bits (b.maskEntry d qb kb) 29 0) 768] else []) ++
  ((List.range 96).filter (fun r => decide (96 * qb + r < d.lq))).flatMap (fun r =>
    let q := 96 * qb + r
    b.rowFetch d d.q d.qSlot h q ++
      (if d.bwd then b.rowFetch d d.dO 1 h q ++ b.rowFetch d d.o d.outSlot h q ++ [gran64 (d.statDa + 8 * (h * d.lq + q)) 8]
       else []))

def Block.maskFetch (d : Attn) : List (Nat × Nat) :=
  if d.maskEn then [gran64 d.maskDa (4 * d.nqb * d.nkb)] else []

def Attn.units (d : Attn) : Nat := if d.bwd then d.kvHeads * d.nkb else d.heads * d.nqb

/-- Granules that a work unit fetches. -/
def Block.unitFetch (b : Block) (d : Attn) (u : Nat) : List (Nat × Nat) :=
  if d.bwd then
    let g := u / d.nkb
    let kb := u % d.nkb
    let ps := (b.pairsOf d g kb).1
    Block.maskFetch d ++ ps.flatMap (fun x => b.pairFetch d x.1 x.2 kb) ++ (if ps.isEmpty then [] else b.kvFetch d g kb)
  else
    let h := u / d.nqb
    let qb := u % d.nqb
    let kbs := (List.range d.nkb).filter (fun kb => b.maskCode d qb kb ≠ 0)
    Block.maskFetch d ++ kbs.flatMap (fun kb => b.pairFetch d h qb kb ++ b.kvFetch d (d.group h) kb)

def Block.attnUnit (b : Block) (d : Attn) (u : Nat) : BlockOut := if d.bwd then b.bwdUnit d u else b.fwdUnit d u

/-- Every dQ output of a backward command. [log 73 DEDUCED] -/
def Block.dqAll (b : Block) (d : Attn) : List BlockOut :=
  if d.bwd then (List.range d.heads).flatMap (fun h => (List.range d.nqb).map (fun qb => b.dqOut d h qb)) else []

/-! ### Checks (R232) -/

/-- [log 75 DEDUCED] -/
def Block.attnFault (b : Block) (d : Attn) : Option (Nat × Nat) :=
  let bad := Status.badParam
  let blk (s : Nat) : Bool := b.isBlockSlot s
  let inSlot (s : Nat) : Bool := decide (s ≤ 2) || blk s
  let kvRec := !d.kvMode || d.append
  let rowOk (t : TRec) (slot n : Nat) : Bool :=
    decide (t.eda % 64 = 0) && decide (ceilDiv (n * (b.fmt slot).width) 8 ≤ 64 * t.pitch) &&
      (!blk slot || decide (ceilDiv n 32 ≤ t.spitch))
  let vn := if d.kvMode then d.lq else d.lk
  let recs := rowOk d.q d.qSlot (d.heads * d.hd) && rowOk d.o d.outSlot (d.heads * d.hd) &&
    (!kvRec || (rowOk d.k d.kSlot (d.kvHeads * d.hd) && rowOk d.v d.vSlot vn)) &&
    (!d.bwd || (rowOk d.dO 1 (d.heads * d.hd) && rowOk d.dQ d.gradSlot (d.heads * d.hd) &&
      rowOk d.dK d.gradSlot (d.kvHeads * d.hd) && rowOk d.dV d.gradSlot (d.kvHeads * d.hd)))
  let maskBytes := 4 * d.nqb * d.nkb
  let maskIn := d.maskEn && inHbm d.maskDa maskBytes
  let ents := if maskIn then (List.range d.nqb).flatMap (fun qb => (List.range d.nkb).map (fun kb => b.maskEntry d qb kb)) else []
  let ends (t : TRec) (slot n rows : Nat) : List (Nat × Nat) :=
    [(t.eda, 64 * t.pitch * (rows - 1) + ceilDiv (n * (b.fmt slot).width) 8)] ++
      (if blk slot then [(t.sda, t.spitch * (rows - 1) + ceilDiv n 32)] else [])
  let outs := [(d.censusDa, 64)] ++
    (if d.statEn then [(d.statDa, 8 * d.heads * d.lq)] else []) ++
    ends d.o d.outSlot (d.heads * d.hd) d.lq ++
    (if d.bwd then ends d.dQ d.gradSlot (d.heads * d.hd) d.lq ++ ends d.dK d.gradSlot (d.kvHeads * d.hd) d.keys ++
      ends d.dV d.gradSlot (d.kvHeads * d.hd) d.keys ++
      [(d.dqpDa, 8 * 96 * d.hd * d.heads * d.nqb * (ceilDiv d.tiles.length d.kvHeads + 1))] else []) ++
    (if d.maskEn then [(d.maskDa, maskBytes)] else []) ++
    (if d.kvMode && d.append then ends d.k d.kSlot (d.kvHeads * d.hd) d.lq ++ ends d.v d.vSlot d.lq (d.kvHeads * d.hd) else [])
  let sg := d.sigma
  if d.tiles.isEmpty || d.tiles.any (fun t => (b.tile t).st = 2) then some (1, bad)
  else if d.heads = 0 || d.kvHeads = 0 || d.heads % d.kvHeads ≠ 0 || (d.hd ≠ 64 && d.hd ≠ 128) || d.lq = 0 ||
      (if d.kvMode then d.lk ≠ 0 else d.lk = 0) || !sg.isFin || sg.isZero || sg.isNeg ||
      (if d.bwd then decide (1 < d.gradSlot) || !d.statEn || d.append else d.gradSlot ≠ 0 || (d.append && !d.kvMode)) then
    some (2, bad)
  else if d.pSlot = 0 || decide (3 < d.pSlot) || !b.isOutSlot d.outSlot || d.rule = 3 || !inSlot d.qSlot ||
      !inSlot d.kSlot || !inSlot d.vSlot || (d.rule = 2 && blk d.outSlot && d.tscale = 0xFF) then some (3, bad)
  else if !attnPair b d.qSlot d.kSlot || !attnPair b d.pSlot d.vSlot then some (4, Status.formatPair)
  else
    let paged : Bool :=
      match b.pool with
      | none => false
      | some pl =>
        let s := b.seqE pl d.seq
        decide (d.seq < pl.maxSeqs) && s.isOpen && d.kSlot = pl.kSlot && d.vSlot = pl.vSlot && d.kvHeads = pl.kvHeads &&
          d.hd = pl.headDim &&
          (!d.append || (decide (ceilDiv (s.length + d.lq) 64 ≤ s.ptCap) &&
            (!blk d.vSlot || (decide (s.length % 32 = 0) && decide (d.lq % 32 = 0)))))
    if (d.kvMode && !paged) || (d.bwd && d.kvMode) then some (5, bad)
    else if !recs || d.censusDa % 64 ≠ 0 || (d.statEn && d.statDa % 64 ≠ 0) ||
        ents.any (fun e => bits e 31 30 = 3 ||
          (if bits e 31 30 = 2 then decide (hbmTop < d.bitmapDa + 768 * (bits e 29 0 + 1)) else bits e 29 0 ≠ 0)) then some (6, bad)
    else if outs.any (fun r => !inHbm r.1 r.2) ||
        (!d.kvMode && (List.range d.units).any (fun u => (b.unitFetch d u).any (fun r => !inHbm r.1 r.2))) ||
        (d.kvMode && (ends d.q d.qSlot (d.heads * d.hd) d.lq).any (fun r => !inHbm r.1 r.2)) then some (7, Status.addrUnmapped)
    else none

/-! ### Start -/

def AttnWork.fresh0 (tiles : List Nat) : AttnWork :=
  { tiles := tiles, started := false, admitted := false, pins := [], cow := none, toRegen := [], fresh := [], lenBefore := 0,
    lenAfter := 0, appended := false, regenerated := false, regen := none, failed := none }

/-- ATTN_FWD and ATTN_BWD at their engine. With KV_MODE = 1 and a paged sequence the key count is known at admission. -/
def Block.startAttn (c : Cmd) (b : Block) : Block :=
  let d0 := Attn.of c.pkt
  let d := if d0.kvMode then
      { d0 with keys := (match b.pool with
          | some pl => (b.seqE pl d0.seq).length + (if d0.append then d0.lq else 0)
          | none => 0) } else d0
  match b.attnFault d with
  | some (n, st) => b.refuse c st n
  | none =>
    (b.setCmd { c with
      fmts := [d.qSlot, d.kSlot, d.vSlot, d.pSlot, d.outSlot, 1].foldl (fun a s => a ||| 2 ^ s) 0,
      work := .attn (AttnWork.fresh0 d.tiles) }).takeTiles

/-- The descriptor of an admitted or unpaged command. -/
def Attn.at (p : Packet) (w : AttnWork) : Attn :=
  let d := Attn.of p
  if d.kvMode then { d with keys := w.lenAfter, table := w.pins } else d

/-! ### The append (R242, R243) -/

/-- Writes that append tokens: every head's key row and value column of a new token, from the K and V records. -/
def Block.appendWrites (b : Block) (d : Attn) (w : AttnWork) : List (Nat × List Byte) :=
  let wk := (b.fmt d.kSlot).width
  let wv := (b.fmt d.vSlot).width
  let spans := (List.range w.pins.length).filterMap (fun i =>
    let lo := Nat.max w.lenBefore (64 * i)
    let hi := Nat.min w.lenAfter (64 * i + 64)
    if lo < hi then some (lo, hi - lo) else none)
  (List.range d.kvHeads).flatMap (fun g => spans.flatMap (fun s =>
    let base := b.kvHeadDa d g s.1
    let slot := s.1 % 64
    let src := s.1 - w.lenBefore
    let vb := base + b.kvPart d.hd d.kSlot + b.kvScales d.hd d.kSlot
    let keys := (List.range s.2).flatMap (fun i =>
      let row := src + i
      [(base + (slot + i) * d.hd * wk / 8, b.daVal (d.k.eda + 64 * d.k.pitch * row + g * d.hd * wk / 8) (d.hd * wk / 8))] ++
        (if b.isBlockSlot d.kSlot then
          [(base + b.kvPart d.hd d.kSlot + (slot + i) * d.hd / 32,
            b.daVal (d.k.sda + d.k.spitch * row + g * d.hd / 32) (d.hd / 32))] else []))
    let vals := (List.range d.hd).flatMap (fun e =>
      let row := g * d.hd + e
      [(vb + e * 8 * wv + slot * wv / 8, leBytes (s.2 * wv / 8)
          (packBits wv (b.codesAt (d.v.eda + 64 * d.v.pitch * row) wv src s.2)))] ++
        (if b.isBlockSlot d.vSlot then
          [(vb + b.kvPart d.hd d.vSlot + 2 * e + slot / 32, b.daVal (d.v.sda + d.v.spitch * row + src / 32) (s.2 / 32))] else []))
    keys ++ vals))

/-- Granules of the K and V records that an append fetches. -/
def Block.appendFetch (b : Block) (d : Attn) : List (Nat × Nat) :=
  (List.range d.lq).flatMap (fun t => (List.range d.kvHeads).flatMap (fun g => b.rowFetch d d.k d.kSlot g t)) ++
  (List.range (d.kvHeads * d.hd)).flatMap (fun row =>
    [gran64 (d.v.eda + 64 * d.v.pitch * row) (ceilDiv (d.lq * (b.fmt d.vSlot).width) 8)] ++
      (if b.isBlockSlot d.vSlot then [gran64 (d.v.sda + d.v.spitch * row) (d.lq / 32)] else []))

/-- The first range of a list that cannot be read. -/
def Block.badFetch (b : Block) (rs : List (Nat × Nat)) : Option Nat :=
  (rs.find? (fun r => match (b.daRead r.1 r.2).1 with | .fail _ _ _ => true | _ => false)).map (·.1)

/-- Effects of fetching ranges: demand scrubs and their warning. -/
def Block.fetchAll (id : Nat) (rs : List (Nat × Nat)) (b : Block) : Block :=
  rs.foldl (fun (b : Block) r =>
    match b.daRead r.1 r.2 with
    | (.ok _ true, b) => b.acquireLogged id Status.memCorrected
    | (_, b) => b) b

/-- An attention command ends on a fetch that failed (R213, R233). -/
def Block.attnFetchFault (c : Cmd) (w : AttnWork) (tile unit da : Nat) (b : Block) : Block :=
  let b := (b.daRead da 64).2
  b.attnEnd c w Status.programFault (fields [(0, 0x06), (10, Nat.min unit (2 ^ 22 - 1))]) (fields [(56, tile), (0, da)])

/-- Is a command ready for its append: admitted, its tiles held, the copy made? -/
def AttnWork.ready (w : AttnWork) (d : Attn) : Bool := w.started && (!d.kvMode || (w.admitted && w.cow.isNone))

/-- A page that an append writes in place takes the sequence's DROP flag and names it as its writer (R234, R236). -/
def Block.tailWritten (q : Nat) (w : AttnWork) (pl : Pool) (b : Block) : Block :=
  if w.lenBefore % 64 = 0 then b
  else b.onPageE pl (w.pins.getD (w.lenBefore / 64) 0) (fun e =>
    { e with writer := q, droppable := (b.seqE pl q).drop, lastUse := b.now })

/-- Append the tokens, once; pages that hold nothing to regenerate are then whole. None where an output page still waits.
[log 72 DEDUCED] -/
def Block.attnAppend (c : Cmd) (w : AttnWork) (d : Attn) (b : Block) : Block × AttnWork :=
  if !d.kvMode || w.appended then (b, w)
  else
    let b := if d.append then (b.fetchAll c.id (b.appendFetch d)).putPieces c.id (b.appendWrites d w) else b
    let b := match d.append, b.pool with | true, some pl => b.tailWritten c.kvSeq w pl | _, _ => b
    let whole := w.fresh.filter (fun p => !(w.toRegen.map (·.2)).contains p)
    let b := match b.pool with
      | some pl => whole.foldl (fun (b : Block) p => b.onPageE pl p (fun e => { e with filling := false, lastUse := b.now })) b
      | none => b
    let w := { w with
      appended := true, fresh := w.fresh.filter (fun p => !whole.contains p), regenerated := !w.toRegen.isEmpty }
    (b.setWork c.id (.attn w), w)

/-! ### Regeneration (R246) -/

/-- The parameters of a regeneration run as a RUN packet. -/
def Block.regenPacket (b : Block) (c : Cmd) (w : AttnWork) (pl : Pool) (i page : Nat) : Packet :=
  let s := b.seqE pl c.kvSeq
  let da := pl.pageDa + page * b.pageBytes pl
  let args := [c.kvSeq, 64 * i, Nat.min 64 (w.lenAfter - 64 * i), bits da 31 0, bits da 51 32, s.arg]
  let mask := w.tiles.foldl (fun a t => a ||| 2 ^ t) 0
  { c.pkt with params := leBytes 96 (fields ([(112, mask), (108, s.handle)] ++ args.zipIdx.map (fun x => (256 + 32 * x.2, x.1)))) }

/-- The next dropped page of a command is regenerated: the image's checks, then the run on the command's tiles. [log 72 DEDUCED] -/
def Block.regenStart (c : Cmd) (w : AttnWork) (pl : Pool) (b : Block) : Block :=
  match w.toRegen with
  | [] => b
  | (i, page) :: _ =>
    let p := b.regenPacket c w pl i page
    let fail (st det : Nat) : Block := b.setWork c.id (.attn { w with failed := some (st, det, 0) })
    match b.runFault p with
    | some r => fail Status.imageRefused r
    | none =>
      if (maskList 32 (b.runFormats p)).any (fun n => (b.fmt n).kind = 0) then fail Status.badParam 0
      else
        let id := b.mer.nextId
        let rw : RunWork := {
          tiles := w.tiles, handle := runHandle p, level := 0, resume := false, ovfEn := false, ovfCensus := 0, waitLimit := 0,
          saveDa := 0, args := (List.range 16).map (fun k => p.f (32 * k + 287) (32 * k + 256)), started := true,
          finished := [], maxCycles := 0, frozen := 0, preempt := [], saved := [], regen := some c.id }
        let x : Cmd := { c with
          id := id, pkt := p, acq := [], detail := 0, result := 0, rsp := [], fmts := b.runFormats p, work := .run rw }
        let b := { b with mer.nextId := id + 1, mer.running := b.mer.running ++ [x] }
        let b := (b.setWork c.id (.attn { w with regen := some id })).startTiles id rw.handle rw
        w.tiles.foldl (fun b t => b.onTile t (fun y => { y with held := none })) b

/-- A command whose next regeneration run can start. -/
def Block.regenReady (b : Block) (c : Cmd) : Bool :=
  match c.work with
  | .attn w =>
    let d := Attn.at c.pkt w
    w.ready d && w.regen.isNone && w.failed.isNone && !w.toRegen.isEmpty &&
      (w.appended || !d.append || ((b.badFetch (b.appendFetch d)).isNone &&
        (b.appendWrites d w).all (fun x => !b.writeWaits x.1 x.2.length)))
  | _ => false

/-- RUN_START: the first regeneration run that is due, or else the first RUN that can start (R157, R246). [log 1 DESIGN CHOICE] -/
def Block.runStartAny (b : Block) : Block :=
  let b := b.takeTiles
  match b.mer.running.find? b.regenReady, b.pool with
  | some c, some pl =>
    match c.work with
    | .attn w =>
      let r := b.attnAppend c w (Attn.at c.pkt w)
      match r.1.cmd c.id with
      | some c => r.1.regenStart c r.2 pl
      | none => r.1
    | _ => b
  | _, _ => b.runStart

/-! ### The end (R233) -/

/-- Run some units of a tile: effects of the fetches, writes, census. -/
def Block.attnRun (id : Nat) (d : Attn) (us : List Nat) (b : Block) : Block × Census × Nat :=
  us.foldl (fun (acc : Block × Census × Nat) u =>
    let o := acc.1.attnUnit d u
    ((acc.1.fetchAll id (acc.1.unitFetch d u)).putPieces id o.writes, acc.2.1.add o.census, acc.2.2 + o.skipped))
    (b, Census.empty, 0)

/-- The first unit of a list whose fetch fails, by place, with the DA. -/
def Block.attnBad (b : Block) (d : Attn) (us : List Nat) : Option (Nat × Nat) :=
  (us.zipIdx.filterMap (fun x => (b.badFetch (b.unitFetch d x.1)).map (fun da => (x.2, da)))).head?

/-- Working space of the sequencer (R215). [log 66 DEDUCED] -/
def Block.scrambleWork (ts : List Nat) (b : Block) : Block := ts.foldl (fun b t => b.scramble (tileDa t) 0x800000) b

/-- Attention itself, on tiles that hold every operand whole. [log 66, 73 DEDUCED] -/
def Block.attnCompute (c : Cmd) (w : AttnWork) (d : Attn) (cycles : Nat) (b : Block) : Block :=
  let nt := w.tiles.length
  let share (i : Nat) : List Nat := unitsOf d.units nt i
  let bads := w.tiles.zipIdx.filterMap (fun x => (b.attnBad d (share x.2)).map (fun r => (x.2, r)))
  match bads with
  | [] =>
    let dq := b.dqAll d
    let r := w.tiles.zipIdx.foldl (fun (acc : Block × Census × Nat) x =>
      let o := acc.1.attnRun c.id d (share x.2)
      let b := o.1.onTile x.1 (fun y => { y with census := y.census.set Census.empty d.census o.2.1 })
      (b, acc.2.1.add o.2.1, acc.2.2 + o.2.2)) (b, Census.empty, 0)
    let b := r.1.putPieces c.id (dq.flatMap (·.writes))
    let cs := dq.foldl (fun (a : Census) o => a.add o.census) r.2.1
    let b := (b.putPieces c.id [(d.censusDa, leBytes 64 cs.toNat)]).scrambleWork w.tiles
    let b := if cs.sat = 0 then b else b.acquire c.id Status.saturated
    let b := if cs.wrote then b.acquire c.id Status.nonfinite else b
    let b := if w.regenerated then b.acquire c.id Status.pageRegenerated else b
    b.attnEnd c w Status.ok 0 (fields [(32, Nat.min cycles (2 ^ 32 - 1)), (0, Nat.min r.2.2 (2 ^ 32 - 1))])
  | _ =>
    let f := b.free 32
    let bad := bads.getD (f.1 % bads.length) (0, 0, 0)
    let b := w.tiles.zipIdx.foldl (fun (b : Block) x =>
      let f := b.free 32
      let lim := match b.attnBad d (share x.2) with | some r => r.1 | none => (share x.2).length
      let n := if x.2 = bad.1 then bad.2.1 else f.1 % (lim + 1)
      (f.2.attnRun c.id d ((share x.2).take n)).1) f.2
    (b.scrambleWork w.tiles).attnFetchFault c w (w.tiles.getD bad.1 0) bad.2.1 bad.2.2

/-- Every DA range an attention command writes at its end. -/
def Block.attnWrites (b : Block) (d : Attn) : List (Nat × List Byte) :=
  (List.range d.units).flatMap (fun u => (b.attnUnit d u).writes) ++ (b.dqAll d).flatMap (·.writes) ++
    [(d.censusDa, zeros 64)]

/-- ATTN_FINISH: every tile has finished. `cycles` is the largest cycle count measured. -/
def Block.attnFinish (id cycles : Nat) (b : Block) : Block :=
  let b := b.takeTiles
  match b.cmd id with
  | none => b
  | some c =>
    match c.work with
    | .attn w =>
      let d := Attn.at c.pkt w
      match w.failed with
      | some (st, det, res) => b.attnEnd c w st det res
      | none =>
        if !w.ready d || w.regen.isSome || (w.appended && !w.toRegen.isEmpty) ||
            w.tiles.any (fun t => !(b.tile t).rerun.isEmpty || (b.tile t).switching) then b
        else
          let needAppend := d.kvMode && d.append && !w.appended
          match (if needAppend then b.badFetch (b.appendFetch d) else none) with
          | some da =>
            let f := b.free 32
            f.2.attnFetchFault c w (w.tiles.getD (f.1 % w.tiles.length) 0) 0 da
          | none =>
            if needAppend && (b.appendWrites d w).any (fun x => b.writeWaits x.1 x.2.length) then b
            else
              let r := b.attnAppend c w d
              if !r.2.toRegen.isEmpty || (r.1.attnWrites d).any (fun x => r.1.writeWaits x.1 x.2.length) then r.1
              else
                match r.1.cmd id with
                | some c => r.1.attnCompute c r.2 d cycles
                | none => r.1
    | _ => b

def execAttnFinish (id cycles : Nat) (s : State) : Host.Outcome State Fault Refusal := s.run (Block.attnFinish id cycles)
def execRunStart (s : State) : Host.Outcome State Fault Refusal := s.run Block.runStartAny

end Sys2Proof.Machine
end

