-- ==== Sys2Proof/Machine/CsuCmd.lean ====
section
/-!
DEFINITION. The commands of the Tally units (R456, R457).
-/

namespace Sys2Proof.Machine

/-- CSU_CFG (R456). Transfers already pending keep their unit's stream. [log 123 DEDUCED] -/
def Block.startCsuCfg (c : Cmd) (b : Block) : Block :=
  let f := c.pkt.f
  let i := f 511 507
  let u := b.csu.get Csu.zero i
  let enable := bit c.pkt.pnum 506
  if enable && u.enable then b.refuse c Status.badParam 0
  else if 8 ≤ f 505 502 ∨ f 493 492 = 3 then b.refuse c Status.badParam 0
  else
    let u1 : Csu := { u with
      enable := enable, kind := f 505 502, index := f 501 494, poly := f 493 492, lo := f 491 440, hi := f 439 388,
      limit := f 387 348, expect := f 347 284, matchCtr := f 283 271, missCtr := f 270 258, sigEn := bit c.pkt.pnum 257 }
    let u2 : Csu := if bit c.pkt.pnum 256 then
        { u1 with state := polyInit u1.poly, bytes := 0, done := false, latched := 0, discarded := 0 }
      else u1
    let u3 : Csu := if enable || u.pend.isEmpty then u2
      else { u with enable := false, state := u2.state, bytes := u2.bytes, done := u2.done, latched := u2.latched,
                    discarded := u2.discarded }
    ({ b with csu := b.csu.set Csu.zero i u3 } : Block).done c 0

/-- The record of a unit (R457). [log 123 DEDUCED] -/
def Csu.image (c : Csu) (i : Nat) : List Byte :=
  leBytes 32 (fields [(192, c.state), (128, c.bytes % 2 ^ 64), (64, c.latched), (48, c.pend.length % 2 ^ 16), (32, c.discarded),
    (7, b2n c.done), (6, b2n (c.latched = c.expect)), (5, b2n c.enable), (0, i)])

/-- CSU_READ (R457). -/
def Block.startCsuRead (c : Cmd) (b : Block) : Block :=
  let da := c.pkt.f 127 76
  let bs := ((maskList 32 (c.pkt.f 75 44)).map (fun i => (b.csu.get Csu.zero i).image i)).flatten
  match rspStatus da bs.length with
  | some st => b.refuse c st 0
  | none => b.respond c da bs 0 0

/-- CSU_WRITE (R457). -/
def Block.startCsuWrite (c : Cmd) (b : Block) : Block :=
  let i := c.pkt.f 127 123
  let u := b.csu.get Csu.zero i
  if u.enable then b.refuse c Status.badParam 1
  else if !u.pend.isEmpty then b.refuse c Status.badParam 2
  else
    let u1 : Csu := { u with state := c.pkt.f 255 192, bytes := c.pkt.f 191 128, done := false, latched := 0 }
    ({ b with csu := b.csu.set Csu.zero i u1 } : Block).done c 0

end Sys2Proof.Machine
end

