-- ==== Sys2Proof/Machine/CodecCmd.lean ====
section
/-!
DEFINITION. The commands of Coelostat (spec/11): CODEC_TABLE, CODEC_MAP, CODEC_FLUSH; and record sets (R288, R289): building
them, reading them, and restoring their records.
-/

namespace Sys2Proof.Machine

/-! ### CODEC_TABLE (R273) -/

def Block.startCodecTable (c : Cmd) (b : Block) : Block :=
  let slots := maskList 16 (c.pkt.f 15 0)
  let tab (i : Nat) : Nat := c.pkt.f (64 + 1152 * i + 1151) (64 + 1152 * i)
  match slots.zipIdx.find? (fun x => !tableOk (tab x.2)) with
  | some x => b.refuse c Status.badParam x.1
  | none =>
    ({ b with codec.tables := slots.zipIdx.foldl (fun (m : Sparse (List Nat)) (x : Nat × Nat) => m.set [] x.1 (tableLens (tab x.2))) b.codec.tables }).done c 0

/-! ### CODEC_MAP (R275, R276) -/

def mapOfPacket (p : Packet) (tables : List (Nat × List Nat)) : CMap :=
  { num := p.f 507 502, da := p.f 501 450, count := p.f 449 418, entryDa := p.f 417 366, mode := p.f 365 364,
    elem := p.f 363 362, fs := p.f 361 338, key := p.f 337 332, m := p.f 331 327, floor := sx 8 (p.f 326 319),
    tableMask := p.f 318 303, tables := tables }

/-- Check 2 of CREATE: the parameters of the mode. [log 58 DEDUCED] -/
def CMap.modeOk (m : CMap) : Bool :=
  match m.mode with
  | 0 => m.fs = 0 && m.key = 1 && m.m = 0 && m.floor = 0
  | 1 => decide (1 ≤ m.fs) && m.m = 0 && m.floor = 0 && decide (1 ≤ m.key)
  | 2 =>
    decide (1 ≤ m.elem) && decide (1 ≤ m.key) && decide (1 ≤ m.m) &&
      decide (m.m ≤ (if m.elem = 1 then 22 else if m.elem = 2 then 6 else 9)) &&
      (if m.elem = 3 then decide (-14 ≤ m.floor) && decide (m.floor ≤ 15)
       else decide (-126 ≤ m.floor) && decide (m.floor ≤ 127))
  | _ => false

/-- The first failing check of CREATE, with its status. [log 58 DEDUCED] -/
def Block.createFault (m : CMap) (b : Block) : Option (Nat × Nat) :=
  let bad := Status.badParam
  let n := 0x10000 * m.count
  let en := 1024 * m.count
  let doms := ((pagesOf m.da n).map (fun g => attrDomain (b.attr g))).eraseDups
  if (b.mapNum m.num).isSome then some (1, bad)
  else if !m.modeOk then some (2, bad)
  else if m.tableMask = 0 ∨ (maskList 16 m.tableMask).any (fun t => (b.codec.tables.get [] t).isEmpty) then some (3, bad)
  else if m.da % 0x10000 ≠ 0 ∨ m.count = 0 then some (4, bad)
  else if !inHbm m.da n then some (4, Status.addrUnmapped)
  else if doms.length ≠ 1 || doms.contains 15 || (pagesOf m.da n).any (fun g =>
      let a := b.attr g
      attrClass a ≠ 1 || attrWp a || attrCodec a) then some (4, bad)
  else if m.entryDa % 64 ≠ 0 then some (5, bad)
  else if !inHbm m.entryDa en then some (5, Status.addrUnmapped)
  else if (decide (m.entryDa < m.da + n) && decide (m.da < m.entryDa + en)) || (pagesOf m.entryDa en).any (fun g =>
      let a := b.attr g
      decide (1 < attrClass a) || attrWp a || attrCodec a) then some (5, bad)
  else none

def Block.mapCreate (c : Cmd) (b : Block) : Block :=
  let m0 := mapOfPacket c.pkt []
  match b.createFault m0 with
  | some (n, st) => b.refuse c st n
  | none =>
    let m := { m0 with tables := (maskList 16 m0.tableMask).map (fun t => (t, b.codec.tables.get [] t)) }
    b.cmdWrite c.id m.entryDa (zeros (1024 * m.count)) (fun b =>
      let b := (pagesOf m.da (0x10000 * m.count)).foldl (fun b g => b.setAttr g (b.attr g ||| 0x40)) b
      ({ b with codec.maps := b.codec.maps ++ [m] }).done c (128 * m.count))

/-- DESTROY: open pages are dropped, CODEC clears, the pages become ZEROED. -/
def Block.mapDrop (m : CMap) (b : Block) : Block :=
  let b := { b with codec.slots := b.codec.slots.filter (fun s => s.map ≠ m.num),
                    codec.maps := b.codec.maps.filter (fun x => x.num ≠ m.num) }
  (pagesOf m.da (0x10000 * m.count)).foldl (fun b g =>
    let a := b.attr g
    b.zeroPage g (mkAttr (attrDomain a) (attrClass a) true (attrWp a) false)) b

/-- DISCARD of a range of codec pages, the last page first, so that dependents outside the range are re-encoded while their
references still stand (R276, R285). -/
def Block.discardRange (m : CMap) (first count : Nat) (b : Block) : Block × Option Nat :=
  (List.range count).reverse.foldl (fun (acc : Block × Option Nat) i =>
    let v := first + i
    if m.fs ≠ 0 ∧ v + m.fs < first + count then
      (({ acc.1 with codec.slots := acc.1.codec.slots.filter (fun s => !(s.map = m.num && s.page = v)) }).setEntry m v
        CEntry.zeroE, acc.2)
    else
      let r := acc.1.clearPage m v CEntry.zeroE
      (r.1, acc.2.or r.2)) (b, none)

/-- May every page of a range change now (R290)? -/
def Block.rangeClosable (b : Block) (m : CMap) (first count : Nat) : Bool :=
  (List.range count).all (fun i => b.closable m (first + i))

/-- Does a tier command that has begun work on pages of a map, within a range (R276, R298)? -/
def Block.tierOn (b : Block) (m : CMap) (first count : Nat) : Bool :=
  b.mer.running.any (fun c =>
    match c.work with
    | .tier w => w.phase ≠ .queued && (c.pkt.opcode = 0x0601 || c.pkt.opcode = 0x0602) && c.pkt.f 175 170 = m.num &&
        decide (c.pkt.f 239 208 < first + count) && decide (first < c.pkt.f 239 208 + c.pkt.f 207 176)
    | _ => false)

/-- CODEC_MAP. An action that a write-protected page holds back waits (R290), and a DESTROY or DISCARD waits for the tier
commands at work on its pages (R276). [log 58 DEDUCED] -/
def Block.startCodecMap (c : Cmd) (b : Block) : Block :=
  let p := c.pkt
  if p.f 511 508 = 0 then b.mapCreate c
  else if 3 ≤ p.f 511 508 then b.refuse c Status.badParam 0
  else
    match b.mapNum (p.f 507 502) with
    | none => b.refuse c Status.badParam 0
    | some m =>
      if p.f 511 508 = 1 then
        if (pagesOf m.da (0x10000 * m.count)).any (fun g => attrWp (b.attr g)) || b.tierOn m 0 m.pages then
          b.setWork c.id .scaleWait
        else (b.mapDrop m).done c 0
      else
        let da := p.f 501 450
        let n := p.f 449 418
        if da % 4096 ≠ 0 ∨ n = 0 ∨ da < m.da ∨ m.da + 0x10000 * m.count < da + 4096 * n then b.refuse c Status.badParam 0
        else
          let v := (da - m.da) / 4096
          if !b.rangeClosable m v n || b.tierOn m v n then b.setWork c.id .scaleWait
          else
            match b.discardRange m v n with
            | (b, some st) => (b.acquire c.id st).done c 0
            | (b, none) => b.done c 0

/-! ### CODEC_FLUSH (R292) -/

/-- Close open pages of a list that may close; the block, and the statuses of the closes. -/
def Block.closePages (m : CMap) (vs : List Nat) (b : Block) : Block × List Nat :=
  vs.foldl (fun (acc : Block × List Nat) v =>
    match acc.1.openSlot m v with
    | some s =>
      if acc.1.closable m v then
        let r := acc.1.closePage m s
        (r.1, acc.2 ++ r.2.toList)
      else acc
    | none => acc) (b, [])

/-- Close what may close; the command ends when no page of its list is open. -/
def Block.flushGo (c : Cmd) (m : CMap) (vs : List Nat) (b : Block) : Block :=
  let r := b.closePages m vs
  let b := r.2.foldl (fun b st => b.acquire c.id st) r.1
  let left := vs.filter (fun v => (b.openSlot m v).isSome)
  if left.isEmpty then
    b.done c (fields [(32, (b.usedSectors m).length % 2 ^ 32),
      (0, ((List.range m.pages).filter (fun v => (b.entry m v).kind ≠ 0)).length % 2 ^ 32)])
  else b.setWork c.id (.list 1 left)

def Block.startCodecFlush (c : Cmd) (b : Block) : Block :=
  let p := c.pkt
  match b.mapNum (p.f 127 122) with
  | none => b.refuse c Status.badParam 0
  | some m =>
    let all := bit p.pnum 121
    let first := if all then 0 else p.f 120 89
    let n := if all then m.pages else p.f 88 57
    if m.pages < first + n then b.refuse c Status.badParam 0
    else b.flushGo c m (((List.range n).map (· + first)).filter (fun v => (b.openSlot m v).isSome))

/-- Flushes that wait go on (R290). -/
def Block.flushRetry (b : Block) : Block :=
  b.mer.running.foldl (fun b c =>
    match c.work with
    | .list 1 vs =>
      match b.mapNum (c.pkt.f 127 122) with
      | some m => b.flushGo c m vs
      | none => b.done c 0
    | _ => b) b

/-! ### Record sets (R288, R289) -/

/-- A page record: its entry's CRC, page, length, kind, transform, and stream. -/
structure Rec where
  page : Nat
  crc : Nat
  kind : Nat
  xform : Nat
  stream : List Byte
deriving DecidableEq, Repr

def pad16 (n : Nat) : Nat := (n + 15) / 16 * 16

def Rec.bytes (r : Rec) : List Byte :=
  leBytes 16 (fields [(96, r.crc), (64, r.page), (51, r.stream.length), (49, r.kind), (48, r.xform)]) ++ r.stream ++
    zeros (pad16 r.stream.length - r.stream.length)

/-- The set header without its CRC, as a number. -/
def CMap.setHead (m : CMap) (first count : Nat) : Nat :=
  fields [(343, wrap 8 m.floor), (338, m.m), (332, m.key), (308, m.fs), (306, m.elem), (304, m.mode), (288, m.tableMask),
    (256, count), (224, first), (32, 1), (0, 0x53544F43)]

/-- The 144-byte image of a table: lengths and CRC (R273). -/
def tableBytes (lens : List Nat) : List Byte :=
  let l := leBytes 136 (fields (lens.zipIdx.map (fun x => (4 * x.2, x.1))))
  l ++ leBytes 4 (crc32c l) ++ zeros 4

def CMap.setStart (m : CMap) (first count : Nat) : List Byte :=
  let tabs := (m.tables.map (fun t => tableBytes t.2)).flatten
  let h := leBytes 60 (m.setHead first count)
  h ++ leBytes 4 (crc32c (h ++ tabs)) ++ tabs

/-- The record of a closed page in a set that begins at `first`: intra where its reference lies before the set. -/
def Block.recordOf (b : Block) (m : CMap) (first v : Nat) : Except (Nat × Nat × Nat) Rec :=
  match b.entryBad m v with
  | some da => .error (Status.memUncorrectable, 0, da)
  | none =>
    let e := b.entry m v
    if e.kind = 1 ∧ e.xform = 1 ∧ v < first + m.fs then
      match b.storedPage m v with
      | .fail st d da => .error (st, d, da)
      | .ok page _ =>
        let s := encodeStream m 0 page
        .ok (if 3584 < s.length then { page := v, crc := e.crc, kind := 2, xform := 0, stream := page }
          else { page := v, crc := e.crc, kind := 1, xform := 0, stream := s })
    else .ok { page := v, crc := e.crc, kind := e.kind, xform := e.xform, stream := b.sectors e }

/-- The whole set of a range whose pages are closed. -/
def Block.recordSet (b : Block) (m : CMap) (first count : Nat) : Except (Nat × Nat × Nat) (List Byte) :=
  (List.range count).foldl (fun (acc : Except (Nat × Nat × Nat) (List Byte)) i =>
    match acc with
    | .error e => .error e
    | .ok bs =>
      match b.recordOf m first (first + i) with
      | .error e => .error e
      | .ok r => .ok (bs ++ r.bytes)) (.ok (m.setStart first count))

/-- Read one record; the rest follows. None when more bytes are needed. -/
def readRec (bs : List Byte) : Option (Rec × List Byte) :=
  if bs.length < 16 then none else
  let h := leNat (bs.take 16)
  let n := bits h 63 51
  if bs.length < 16 + pad16 n then none else
  some ({ page := bits h 95 64, crc := bits h 127 96, kind := bits h 50 49, xform := bits h 48 48,
          stream := (bs.drop 16).take n }, bs.drop (16 + pad16 n))

def readRecs : Nat → List Byte → Option (List Rec × List Byte)
  | 0, bs => some ([], bs)
  | n + 1, bs =>
    match readRec bs with
    | none => none
    | some (r, rest) =>
      match readRecs n rest with
      | some (rs, rest) => some (r :: rs, rest)
      | none => none

/-- Bytes before the records of a map's set. -/
def CMap.setStartLen (m : CMap) : Nat := 64 + 144 * m.tables.length

/-- The records of a set of a map, if all of it has come. -/
def CMap.parseSet (m : CMap) (count : Nat) (bs : List Byte) : Option (List Rec × List Byte) :=
  if bs.length < m.setStartLen then none else readRecs count (bs.drop m.setStartLen)

/-- Does a set begin as one of this map's with a range does (R289, R300)? -/
def CMap.setOk (m : CMap) (first count : Nat) (bs : List Byte) : Bool :=
  bs.take m.setStartLen = m.setStart first count

/-- Sectors that the records of a set need. -/
def recSectors (rs : List Rec) : Nat := rs.foldl (fun a r => a + ceilDiv r.stream.length 512) 0

/-- Put a record into a page's entry, its sectors from a given pool: the block and the rest of the pool. -/
def Block.putRec (m : CMap) (r : Rec) (pool : List Nat) (b : Block) : Block × List Nat :=
  let n := ceilDiv r.stream.length 512
  let ss := pool.take n
  let b := ss.zipIdx.foldl (fun b x =>
    let part := (r.stream.drop (512 * x.2)).take 512
    b.memWrite (512 * x.1) (part ++ zeros (512 - part.length))) b
  (b.setEntry m r.page { sect := ss, crc := r.crc, len := r.stream.length, kind := r.kind, xform := r.xform }, pool.drop n)

/-- Switch a whole range to the records of a set: dependents outside it are decoded against the old contents first, then
encoded against the new ones (R285, R289, R300). -/
def Block.commitSet (m : CMap) (first count : Nat) (rs : List Rec) (b : Block) : Block × Option Nat :=
  let deps := ((List.range count).map (fun i => first + i + m.fs)).filter (fun d =>
    m.fs ≠ 0 && decide (first + count ≤ d) && decide (d < m.pages) && (b.entry m d).kind = 1 && (b.entry m d).xform = 1)
  let kept := deps.map (fun d => (d, b.storedPage m d))
  let pool := b.freeSectors m
  let b := { b with codec.slots := b.codec.slots.filter (fun s =>
    !(s.map = m.num && decide (first ≤ s.page) && decide (s.page < first + count))) }
  let r := rs.foldl (fun (acc : Block × List Nat) r => acc.1.putRec m r acc.2) (b, pool)
  kept.foldl (fun (acc : Block × Option Nat) k =>
    match k.2 with
    | .ok bs _ =>
      let ref := match acc.1.storedPage m (k.1 - m.fs) with | .ok x _ => some x | .fail _ _ _ => none
      let x := acc.1.putPage m k.1 bs ref
      (x.1, acc.2.or x.2)
    | .fail st _ _ => (acc.1.losePage m k.1, acc.2.or (some st))) (r.1, none)

end Sys2Proof.Machine
end

