-- ==== Sys2Proof/Machine/Keys.lean ====
section
/-!
DEFINITION. Keys derived from the job secret (R415), and the envelope form that tier transfers and streams use.
-/

namespace Sys2Proof.Machine

def ascii (s : String) : List Byte := s.toList.map (fun c => BitVec.ofNat 8 c.toNat)

/-- PRK of a job secret (R415). -/
def jobPrk (job gen : Nat) (secret : List Byte) : Nat := Config.hkdfExtract (leBytes 4 job ++ leBytes 4 gen) secret

/-- A 36-byte derivation as key and salt. -/
def keySalt (x : Nat) : Nat × Nat := (leNat ((leBytes 36 x).take 32), leNat ((leBytes 36 x).drop 32))

def ckptKey (prk : Nat) : Nat := Config.hkdfExpand prk (ascii "A9 ckpt") 32
def dataKey (prk : Nat) : Nat × Nat := keySalt (Config.hkdfExpand prk (ascii "A9 data") 36)
/-- [log 116 DEDUCED] -/
def portKey (prk sender receiver : Nat) (nonce : List Byte) : Nat × Nat :=
  keySalt (Config.hkdfExpand prk (ascii "A9 port" ++ leBytes 8 sender ++ leBytes 8 receiver ++ nonce) 36)

/-! ### The host envelope (R302) -/

/-- The 32-byte head of an envelope. -/
def envHead (setId ctr len kind : Nat) : List Byte :=
  leBytes 32 (fields [(224, 0x45504954), (208, 1), (192, setId), (128, ctr), (88, len), (86, kind)])

/-- Ciphertext of a plaintext, or back. -/
def gcmCrypt (key salt ctr : Nat) (bs : List Byte) : List Byte := xorBytes bs (Config.gcmStream key (gcmIv salt ctr) bs.length)

/-- The 16 tag bytes over a head and a ciphertext. -/
def gcmTagBytes (key salt ctr : Nat) (aad ct : List Byte) : List Byte := leBytes 16 (Config.gcmTag key (gcmIv salt ctr) aad ct)

end Sys2Proof.Machine
end

