-- ==== Sys2Proof/Machine/Sidereal.lean ====
section
/-!
DEFINITION. Sidereal time (R68 to R76, R506): the tick, the marks and the time-base states; and what of the Ephemeris
needs no other engine (R77 to R80, R82, R83).

A SID_MARK command stands before the SID_CLK_TICK of the clock edge it rises on.
-/

namespace Sys2Proof.Machine

def epochTicks : Nat := 2 ^ 24
/-- T_hold (R73). -/
def holdLimit : Nat := 2 ^ 25

/-- Does SC count in this state (R68)? -/
def Sid.counts (s : Sid) : Bool :=
  match s.state with
  | .unset => false
  | .acquire => s.checking
  | _ => true

/-- The value SC takes on the next clock edge. -/
def Sid.would (s : Sid) : Nat := if s.counts && s.holdFor = 0 then u64 (s.sc.toNat + 1) else s.sc.toNat
where
  u64 (x : Nat) : Nat := x % 2 ^ 64

def Sid.setSc (v : Nat) (s : Sid) : Sid := { s with sc := BitVec.ofNat 64 v }

/-! ### Lateness of Ephemeris entries (R82) -/

def Block.guardHolds (b : Block) (e : EphEntry) : Bool :=
  !e.guardEn || condHolds e.guardCond (b.syncVal e.guardCtr) e.guardVal

/-- SC leaves the ticks from `old` up to `now`: an armed entry due at `old` that has not fired is late by its guard, or by
its engine; one due in a skipped tick is late by the step. [log 97 DEDUCED] -/
def Block.markLate (old now : Nat) (b : Block) : Block :=
  { b with eph.entries := b.eph.entries.map (fun e =>
      if e.lateBy ≠ 0 then e
      else if e.fire.toNat = old then { e with lateBy := if b.guardHolds e then 15 else 1 }
      else if decide (old < e.fire.toNat) && decide (e.fire.toNat < now) then { e with lateBy := 15 }
      else e) }

/-- SC takes a value. -/
def Block.stepSc (v : Nat) (b : Block) : Block :=
  let old := b.sid.sc.toNat
  if v = old then b else { (b.markLate old v) with sid := b.sid.setSc v }

/-! ### Time lost (R76) -/

def Block.timeLost (b : Block) : Block :=
  let b := { b with sid := { b.sid with state := .lost, checking := false }, pow.sidClk := false }
  if b.eph.entries.isEmpty then b.logError Status.timeLost 10 0 0 0
  else ({ b with eph := { b.eph with entries := [] } }).latchCause 5 Status.timeLost

/-! ### Ticks (R68, R70) -/

/-- A new epoch: correction counts of pins and lanes start over (R260, R355). -/
def Block.newEpoch (b : Block) : Block :=
  { b with
    mem.pcs := b.mem.pcs.map (fun e => (e.1, { e.2 with counts := [] })),
    fab.ports := b.fab.ports.map (fun e => (e.1, { e.2 with laneUnc := [], laneCorr := [] })) }

/-- A clock edge, or the end of an interval with no valid edge. [log 93 DEDUCED] -/
def Block.sidTick (valid : Bool) (b : Block) : Block :=
  let s := b.sid
  let v := s.would
  let s1 : Sid := { s with
    missing := if valid then 0 else Nat.min (s.missing + 1) 8,
    validRun := if valid then Nat.min (s.validRun + 1) 64 else 0,
    sinceMark := Nat.min (s.sinceMark + 1) 32,
    holdFor := s.holdFor - 1,
    holdTicks := if s.state = .holdover then Nat.min (s.holdTicks + 1) (2 ^ 26 - 1) else s.holdTicks }
  let b := ({ b with sid := s1 }).stepSc v
  if v ≠ s.sc.toNat && v % epochTicks = 0 then b.newEpoch else b

/-- SID_CLK is absent (R70, R73): the PLLs hold, CLK_STATUS.SOURCE returns to 0 (R467). -/
def Block.clkAbsent (b : Block) : Block :=
  let s := b.sid
  if !s.clkValid || decide (s.missing < 8) then b
  else
    let b := { b with sid := { s with clkValid := false } }
    match s.state with
    | .acquire => { b with sid := { b.sid with state := .unset, checking := false } }
    | .locked =>
      ({ b with sid := { b.sid with state := .holdover, holdTicks := 0 }, pow.sidClk := false }).logError Status.holdover 10 0 0 0
    | _ => b

/-- [log 93 DEDUCED] -/
def Block.clkValid (b : Block) : Block :=
  if b.sid.validRun < 64 then b else { b with sid.clkValid := true }

/-! ### Marks (R70, R73, R75, R506) -/

def Sid.spur (s : Sid) : Sid := { s with spurious := Nat.min (s.spurious + 1) 0xFFFF }
def Sid.slip (s : Sid) : Sid := { s with slips := Nat.min (s.slips + 1) 0xFFFF }

/-- Align SC to a mark that the count meets `k` ticks early (forward) or late (hold) (R75, R506). -/
def Block.align (early late : Nat) (b : Block) : Block :=
  if early = 0 ∧ late = 0 then b
  else
    let b := { b with sid := b.sid.slip }
    if 0 < early then b.stepSc (b.sid.sc.toNat + early) else { b with sid.holdFor := late }

/-- The first mark: SC takes its epoch on this edge, never below its value (R73). [log 94 DEDUCED] -/
def Block.firstMark (b : Block) : Block :=
  let sc := b.sid.sc.toNat
  let v := Nat.max (b.sid.loadEpoch * epochTicks) (ceilDiv sc epochTicks * epochTicks)
  { (b.stepSc v) with sid := { (b.sid.setSc v) with checking := true, holdFor := 1, codes := [] } }

/-- The ports on which a TIME flit is due after a mark: every UP port, while a job is bound (R360). -/
def Block.timeDue (b : Block) : List Nat :=
  if b.trust.job = 0 then [] else (List.range 8).filter (fun m => (b.fab.ports.get Port.zero m).st = .up8 ||
    (b.fab.ports.get Port.zero m).st = .up4)

/-- LOCKED: Shutter cause 5 clears (R452). [log 115 DEDUCED] -/
def Block.lock (b : Block) : Block :=
  { b with sid := { b.sid with state := .locked, checking := false }, shut.active := setBit b.shut.active 5 false }

/-- The epoch that a majority of the time codes of LOCKED senders names. [log 94 DEDUCED] -/
def Sid.majority (s : Sid) : Option Nat :=
  let es := s.codes.filterMap (fun c => c.2.map (·.epoch))
  es.find? (fun e => decide (es.length < 2 * (es.filter (· = e)).length))

/-- The checking mark, already aligned: LOCKED, a higher epoch, or time lost (R73). The codes name the epoch of the mark before
this one; what they said is settled with LOCKED. [log 94 DEDUCED] -/
def Block.checkMark (b : Block) : Block :=
  let v := b.sid.would
  let locked (b : Block) : Block := { b.lock with sid.codes := [] }
  match b.sid.majority with
  | none => locked b
  | some e =>
    if e + 1 = v / epochTicks then locked b
    else if v / epochTicks ≤ e then locked (b.stepSc (e * epochTicks + v % epochTicks - (v - b.sid.sc.toNat)))
    else b.timeLost

/-- A SID_MARK rising edge; `long` tells that the level stays high for more than 16 ticks (R70). [log 93 DEDUCED] -/
def Block.sidMark (long : Bool) (b : Block) : Block :=
  let s := b.sid
  let low := s.would % epochTicks
  let b := { b with sid := { s with sinceMark := 0 } }
  let spur := { b with sid := b.sid.spur }
  let early (k : Nat) : Nat := if epochTicks - k ≤ low then epochTicks - low else 0
  let late (k : Nat) : Nat := if low ≤ k then low else 0
  let near (k : Nat) : Bool := decide (low ≤ k) || decide (epochTicks - k ≤ low)
  let due (b : Block) : Block := { b with sid := { b.sid with timeDue := b.timeDue } }
  match s.state with
  | .unset => b
  | .lost => b
  | .acquire =>
    if long || decide (s.sinceMark < 32) then spur
    else if !s.checking then (if s.clkValid then b.firstMark else spur)
    else if near 1 then due (b.align (early 1) (late 1)).checkMark
    else spur.firstMark
  | .locked =>
    if long || decide (s.sinceMark < 32) then spur
    else if near 1 then due (b.align (early 1) (late 1))
    else spur
  | .holdover =>
    if long || decide (s.sinceMark < 32) then spur
    else if near 64 && s.clkValid then due (b.align (early 64) (late 64)).lock
    else spur

/-- SID_HOLD.TICKS reaches T_hold (R73). -/
def Block.holdoverLimit (b : Block) : Block :=
  if b.sid.state = .holdover && decide (holdLimit ≤ b.sid.holdTicks) then b.timeLost else b

/-! ### SID_LOAD and SC_NOW (R71, R72) -/

/-- A write of SID_LOAD: EPOCH, and ARM. [log 131 DEDUCED] -/
def Block.sidLoad (v : Nat) (b : Block) : Block :=
  if b.trust.job ≠ 0 then b
  else
    let b := { b with sid.loadEpoch := bits v 63 24 }
    if bit v 0 && (b.sid.state = .unset || b.sid.state = .lost) then
      { b with sid := { b.sid with state := .acquire, checking := false, holdFor := 0, codes := [] } }
    else b

/-- What a read of SC_NOW at an offset with a size returns, and the latch after it. [log 131 DEDUCED] -/
def Sid.read (off size : Nat) (s : Sid) : Nat × Sid :=
  let v := s.sc.toNat
  if off = 0 ∧ size = 4 then (v % 2 ^ 32, { s with latchHi := some (v / 2 ^ 32) })
  else if off = 4 then (s.latchHi.getD (v / 2 ^ 32), { s with latchHi := none })
  else (v, s)

/-! ### EPH_WRITE and EPH_CANCEL (R77 to R80, R83) -/

def Block.ephFree (b : Block) : Nat := 4096 - b.eph.entries.length

/-- Entry i of an EPH_WRITE. -/
def ephWord (p : Packet) (i : Nat) : Nat := p.f (256 * i + 383) (256 * i + 128)
def ephFire (p : Packet) (i : Nat) : Nat := (p.f 127 64 + bits (ephWord p i) 255 192) % 2 ^ 64
def ephKind (w : Nat) : Nat := bits w 35 32

/-- The refusal of one entry's fields, if any (R79, R80). [log 95 DEDUCED] -/
def ephEntryBad (w : Nat) : Option Nat :=
  let k := ephKind w
  let a0 := bits w 159 128
  let a1 := bits w 191 160
  if k = 4 ∧ 8 ≤ a0 then some Status.reservedSet
  else if k = 0 ∨ 7 ≤ k ∨ 4 ≤ bits w 50 48 ∨ (k ≤ 4 ∧ a1 ≠ 0) ∨ (5 ≤ k ∧ 8192 ≤ a0) then some Status.badParam
  else none

/-- [log 95 DEDUCED] -/
def Block.startEphWrite (c : Cmd) (b : Block) : Block :=
  let p := c.pkt
  let n := p.f 15 0
  match (List.range n).filterMap (fun i => ephEntryBad (ephWord p i)) with
  | st :: _ => b.refuse c st 0
  | [] =>
    match (List.range n).find? (fun i => decide (ephFire p i ≤ b.now)) with
    | some i => b.refuse c Status.badParam i
    | none =>
      if b.sid.state ≠ .locked then b.refuse c Status.badParam b.sid.state.code
      else if b.ephFree < n then b.refuse c Status.ephemerisFull 0
      else
        let new := (List.range n).map (fun i =>
          let w := ephWord p i
          ({ serial := b.eph.nextSerial + i, fire := BitVec.ofNat 64 (ephFire p i), arg0 := bits w 159 128,
             arg1 := bits w 191 160, guardEn := bit w 47, guardCtr := bits w 63 51, guardCond := bits w 50 48,
             guardVal := bits w 127 96, tag := bits w 95 64, kind := ephKind w, lateBy := 0 } : EphEntry))
        let b := { b with eph := { entries := b.eph.entries ++ new, nextSerial := b.eph.nextSerial + n } }
        b.done c b.ephFree

/-- EPH_CANCEL waits for the first tick edge after its validation (R83). -/
def Block.startEphCancel (c : Cmd) (b : Block) : Block := b.setWork c.id (.await 2 b.now 0 0)

/-- An entry that has come due, its guard true: it fires on this tick and is no longer cancelled. In Shutter the events of the
collective and snapshot engines are cancelled when due, whatever their guard (R84). [log 96 DEDUCED] -/
def Block.ephReady (b : Block) (e : EphEntry) : Bool :=
  decide (e.fire.toNat ≤ b.now) && (b.guardHolds e || (b.shut.shut && decide (e.kind ≤ 3)))

/-- EPH_CANCEL_APPLY. [log 96 DEDUCED] -/
def Block.ephCancelApply (b : Block) : Block :=
  match b.mer.running.find? (fun c => match c.work with | .await 2 sc _ _ => decide (sc < b.now) | _ => false) with
  | none => b
  | some c =>
    let mask := c.pkt.f 95 64
    let hit (e : EphEntry) : Bool := decide ((e.tag ^^^ c.pkt.f 127 96) &&& mask = 0) && !b.ephReady e
    let b1 := { b with eph.entries := b.eph.entries.filter (fun e => !hit e) }
    b1.done c (b.eph.entries.filter hit).length

/-! ### Meanings -/

def execSidClkTick (valid : Bool) (s : State) : Host.Outcome State Fault Refusal := s.run (Block.sidTick valid)
def execSidClkAbsent (s : State) : Host.Outcome State Fault Refusal := s.run Block.clkAbsent
def execSidClkValid (s : State) : Host.Outcome State Fault Refusal := s.run Block.clkValid
def execSidMark (long : Bool) (s : State) : Host.Outcome State Fault Refusal := s.run (Block.sidMark long)
def execHoldoverLimit (s : State) : Host.Outcome State Fault Refusal := s.run Block.holdoverLimit
def execSidLoadArm (v : Nat) (s : State) : Host.Outcome State Fault Refusal :=
  s.run (Block.onTlp (fun b => if b.boot.ready then b.sidLoad v else b))
/-- A read of SC_NOW; before READY the offset is not served and reads as zero (R481). -/
def execScNowRead (off size : Nat) (s : State) : Host.Outcome State Fault Refusal :=
  s.run (Block.onTlp (fun b =>
    if b.boot.ready then
      let r := b.sid.read off size
      ({ b with sid := r.2 }).emit (.readData (leBytes size r.1))
    else b.emit (.readData (zeros size))))
def execEphCancelApply (s : State) : Host.Outcome State Fault Refusal := s.run Block.ephCancelApply

end Sys2Proof.Machine
end

