-- ==== Sys2Proof/Machine/Link.lean ====
section
/-!
DEFINITION. The Meridian link (R347 to R362): flits sent and received, replay and credits, virtual lanes, the port states, time
codes, Shutter notices.
-/

namespace Sys2Proof.Machine

def Block.onPort (m : Nat) (f : Port → Port) (b : Block) : Block := b.setPort m (f (b.port m))

/-- A KIND 3 entry about a peer's Shutter (R361, R445). -/
def Block.logPeerShutter (m rank : Nat) (b : Block) : Block :=
  b.logEntry {
    sc := 0, seq := 0, status := Status.peerShutter, kind := 3, almanac := false, unit := 7, index := m, detail := 0,
    info := rank, body := fields [(250, b.shut.active), (234, rank)] }

end Sys2Proof.Machine

namespace Sys2Proof
open Sys2Proof.Machine

/-! ### Fields of a flit header (R351) -/

def Flit.h (f : Flit) (hi lo : Nat) : Nat := bits f.hdr.toNat hi lo
def Flit.dest (f : Flit) : Nat := f.h 127 112
def Flit.src (f : Flit) : Nat := f.h 111 96
def Flit.seq (f : Flit) : Nat := f.h 95 84
def Flit.ack (f : Flit) : Nat := f.h 83 72
def Flit.nak (f : Flit) : Bool := bit f.hdr.toNat 71
def Flit.typ (f : Flit) : Nat := f.h 56 52
def Flit.vl (f : Flit) : Nat := f.h 59 57

end Sys2Proof

namespace Sys2Proof.Machine

/-- The lane that word w travels on (R350). -/
def Port.laneOf (p : Port) (w : Nat) : Nat :=
  if p.st = .up4 then ((maskList8 p.lanes).getD (w % 4) 0) else w % 8
where
  maskList8 (m : Nat) : List Nat := (List.range 8).filter (fun i => bit m i)

/-- Receive slots of a VL (R356). -/
def vlSlots (vl : Nat) : Nat := if vl = 0 then 16 else 96

/-! ### Routing (R357) -/

/-- A flit leaves by its route; with the route down it is dropped and its source told. -/
def Block.routeFlit (own : Bool) (q : QFlit) (b : Block) : Block :=
  match b.routePort q.dest with
  | some k => b.queueFlit k own q
  | none =>
    b.post { Msg.zero with kind := Kind.unreach, src := b.primaryRank, dest := q.src, vl := 4, rval := q.msg } none

/-- A port has sent its KEYCHG or can no longer send it: its KEY_ROTATE completes once every named port has (R419).
[log 116 DEDUCED] -/
def Block.keychgOver (m : Nat) (sent : Bool) (b : Block) : Block :=
  match (b.port m).keyCmd with
  | none => b
  | some id =>
    let b := b.onPort m (fun p => { p with keyCmd := none })
    let mask (c : Cmd) : Nat := match c.work with | .await 8 x _ _ => x | _ => 0
    match b.cmd id with
    | none => b
    | some c =>
      let x := if sent then setBit (mask c) m true else mask c
      if (List.range 8).any (fun k => (b.port k).keyCmd = some id) then b.setWork id (.await 8 x 0 0)
      else b.completeId id Status.ok 0 x

/-- A port stops: its replay buffer and its waiting flits are resent by route, link-local ones dropped. -/
def Block.reroute (m : Nat) (b : Block) : Block :=
  let p := b.port m
  let waiting := (p.queues.map (fun e => e.2.map (fun q => (decide (e.1 % 2 = 1), q)))).flatten
  let b := (b.setPort m { p with replay := [], resend := none, queues := [] }).keychgOver m false
  let again := p.replay.map (fun t => (b.hosts t.q.src, t.q)) ++ waiting
  (again.filter (fun x => x.2.typ = 1)).foldl (fun b x => b.routeFlit x.1 x.2) b

/-- Commands with flits outstanding on a port acquire LINK_DEGRADED (R358). -/
def Block.degradeCmds (m : Nat) (b : Block) : Block :=
  let p := b.port m
  let cs := (p.replay.filterMap (fun t => t.q.cmd) ++ ((p.queues.map (·.2)).flatten).filterMap (fun q => q.cmd)).eraseDups
  cs.foldl (fun b id => b.acquireLogged id Status.linkDegraded) b

/-- A port enters UP4, RETIRED or NC (R358). -/
def Block.enterDegraded (m : Nat) (st : PortState) (b : Block) : Block :=
  let b := (b.degradeCmds m).onPort m (fun p => { p with st := st })
  b.almanacChange Status.linkDegraded 7 m 0 0

/-- Lanes are retired (R355, R358). -/
def Block.retireLanes (m mask : Nat) (b : Block) : Block :=
  let p := b.port m
  if mask = 0 || !p.st.isUp then b
  else
    let up4 := decide (p.st = .up4)
    let b := b.setPort m { p with retiredLanes := p.retiredLanes ||| mask }
    if up4 then (b.enterDegraded m .retired).reroute m
    else (b.onPort m (fun p => { p with st := .train })).almanacChange Status.linkDegraded 7 m 0 0

/-- LINK_FAILED (R359). [log 83 DEDUCED] -/
def Block.linkFailed (m : Nat) (b : Block) : Block :=
  ((b.onPort m (fun p => { p with failed := true })).logError Status.linkFailed 7 m 0 0).latchCause 3 Status.linkFailed

/-! ### Receiving (R353 to R355) -/

/-- Credits, ACK and NAK of an accepted flit. -/
def Port.credit (f : Flit) (p : Port) : Port :=
  let cvl := f.h 70 68
  let old := p.peerFreed.get 0 cvl
  let p := { p with peerFreed := p.peerFreed.set 0 cvl (old + (f.h 67 60 + 256 - old % 256) % 256) }
  let i := p.replay.findIdx (fun (t : TxFlit) => t.seq = f.ack)
  let n := if i < p.replay.length then i + 1 else 0
  let p := { p with replay := p.replay.drop n, resend := p.resend.map (· - n) }
  if f.nak && !p.replay.isEmpty then { p with resend := some 0 }
  else if p.replay.isEmpty then { p with resend := none } else p

/-- Header bits that the tag covers: all but ACK, NAK, CVL and CRED (R354). -/
def aadOf (hdr : Nat) : List Byte := leBytes 16 (hdr / 2 ^ 84 * 2 ^ 84 + hdr % 2 ^ 60)

def flitTag (key salt ctr hdr : Nat) (ct : List Byte) : Nat := Config.gcmTag key (gcmIv salt ctr) (aadOf hdr) ct % 2 ^ 128

/-- Does a flit's tag verify under a counter of this direction's key? -/
def Port.tagOk (p : Port) (f : Flit) (ctr : Nat) : Bool :=
  match p.rxKey with
  | some k => flitTag k p.rxSalt ctr f.hdr.toNat (leBytes 224 f.payload.toNat) = f.tag.toNat
  | none => false

/-- A flit is not accepted: it is discarded, and NAK is sent once. `lanes` carried uncorrectable words; `tagBad` tells of a
failed tag on the expected flit. Nine failed receptions of one flit exhaust its replays. [log 83 DEDUCED] -/
def Block.rxReject (m lanes : Nat) (tagBad : Bool) (b : Block) : Block :=
  let p := b.port m
  let counts := lanes ≠ 0 || tagBad
  let p1 := { p with nakDue := p.nakDue || !p.nakSent, nakSent := true, fails := if counts then p.fails + 1 else p.fails }
  let b := b.setPort m p1
  if counts && decide (9 ≤ p1.fails) then
    let b := b.onPort m (fun p => { p with fails := 0 })
    if lanes ≠ 0 then b.retireLanes m lanes else b.linkFailed m
  else b

/-- Count the words of a received flit on its port and lanes; lanes past their limits are retired (R355). -/
def Block.rxWords (m : Nat) (f : Flit) (b : Block) : Block :=
  if f.bad.isEmpty && f.fixed.isEmpty then b
  else
    let p := b.port m
    let cnt (s : Sparse Nat) (ws : List Nat) : Sparse Nat := ws.foldl (fun s w => s.upd 0 (p.laneOf w) (· + 1)) s
    let p1 := { p with
      corr := Nat.min (p.corr + f.fixed.length) (2 ^ 32 - 1), unc := Nat.min (p.unc + f.bad.length) (2 ^ 32 - 1),
      laneUnc := cnt p.laneUnc f.bad, laneCorr := cnt p.laneCorr f.fixed }
    let mask := (List.range 8).foldl (fun a l =>
      if 16 ≤ p1.laneUnc.get 0 l ∨ 1024 ≤ p1.laneCorr.get 0 l then a + 2 ^ l else a) 0
    (b.setPort m p1).retireLanes m (mask &&& (255 ^^^ p.retiredLanes))

/-- Decrypt a sequenced flit, accept it, and hand its plaintext on; otherwise it is rejected (R355, R359). -/
def Block.rxSequenced (m : Nat) (f : Flit) (go : Nat → Block → Block) (b : Block) : Block :=
  let p := b.port m
  if p.rxKey.isNone || p.failed then b
  else
    let d := (p.rxSeq + 4096 - f.seq) % 4096
    if d = 0 then
      if p.tagOk f p.rxCtr then
        let pl := leNat (xorBytes (leBytes 224 f.payload.toNat) (Config.gcmStream (p.rxKey.getD 0) (gcmIv p.rxSalt p.rxCtr) 224))
        let p1 := { p.credit f with
          rxSeq := (p.rxSeq + 1) % 4096, rxCtr := p.rxCtr + 1, nakSent := false, fails := 0,
          freed := p.freed.upd 0 f.vl (· + 1) }
        go pl (b.setPort m p1)
      else b.rxReject m 0 true
    else if d ≤ 2048 ∧ d < p.rxCtr ∧ p.tagOk f (p.rxCtr - d) then b.linkFailed m
    else b.rxReject m 0 false

/-- Receive a flit of a type: words are counted; uncorrectable words and reserved types are not accepted. -/
def Block.rxFlit (m typ : Nat) (f : Flit) (go : Block → Block) (b : Block) : Block :=
  if !(b.port m).st.isUp then b
  else
    let p := b.port m
    let lanes := (f.bad.map (fun w => 2 ^ p.laneOf w)).foldl (· ||| ·) 0
    let b := b.rxWords m f
    if !f.bad.isEmpty then (if (b.port m).st.isUp then b.rxReject m lanes false else b)
    else if f.typ ≠ typ then (if 5 < f.typ then b.rxReject m 0 false else b)
    else if (b.port m).st.isUp then go b else b

/-! ### Messages from flits (R353) -/

def Partial.start (m : Msg) : Partial := { msg := m, head := false, got := [], total := none, parts := [] }

/-- A flit joins its message. -/
def Partial.add (no : Nat) (first last : Bool) (bs : List Byte) (x : Partial) : Partial :=
  if x.got.contains no then x
  else
    let x := { x with got := no :: x.got, total := if last then some (no + 1) else x.total }
    if first then { x with msg := x.msg.withHead (leNat (bs.take 32)), head := true, parts := (0, bs.drop 32) :: x.parts }
    else { x with parts := (192 + 224 * (no - 1), bs) :: x.parts }

/-- The whole message, once every flit has come. -/
def Partial.whole (x : Partial) : Option Msg :=
  if x.head && x.total = some x.got.length then
    let n := if x.msg.hasData then x.msg.length else 0
    some { x.msg with data := ((x.parts.foldl (fun (s : Sparse (Option Byte)) p =>
      p.2.zipIdx.foldl (fun s y => s.set none (p.1 + y.2) (some y.1)) s) []).getL none 0 n).map (·.getD 0) }
  else none

/-- Message numbers that the receiver still keeps, with a new one. [log 84 DESIGN CHOICE] -/
def keepDone (src no : Nat) (l : List (Nat × Nat)) : List (Nat × Nat) :=
  (src, no) :: l.filter (fun e => e.1 ≠ src || decide ((no + 2 ^ 16 - e.2) % 2 ^ 16 < 2 ^ 15))

/-- A DATA flit for a rank this module hosts. [log 84 DESIGN CHOICE] -/
def Block.consume (f : Flit) (pl : Nat) (b : Block) : Block :=
  let src := f.src
  let no := f.h 47 32
  if b.fab.doneMsgs.contains (src, no) then b
  else
    let old := b.fab.partials.find? (fun x => x.msg.src = src && x.msg.no = no)
    let x := (old.getD (Partial.start { Msg.zero with src := src, dest := f.dest, no := no, vl := f.vl })).add (f.h 29 0)
      (bit f.hdr.toNat 31) (bit f.hdr.toNat 30) ((leBytes 224 pl).take (16 * f.h 51 48))
    let rest := b.fab.partials.filter (fun x => !(x.msg.src = src && x.msg.no = no))
    match x.whole with
    | some msg => { b with fab.partials := rest, fab.inbox := b.fab.inbox ++ [msg], fab.doneMsgs := keepDone src no b.fab.doneMsgs }
    | none => { b with fab.partials := rest ++ [x] }

/-- Is the module in Shutter after a trust failure? -/
def Block.trustShut (b : Block) : Bool := b.shut.shut && bit b.shut.active 2

/-- A DATA flit accepted: consumed, or forwarded on the same VL (R357). One for this module is a wake source (R472). -/
def Block.place (m : Nat) (f : Flit) (pl : Nat) (b : Block) : Block :=
  if b.hosts f.dest then (b.wakeBy 3 7 m).consume f pl
  else if b.trustShut then b
  else b.routeFlit false {
    typ := 1, vl := f.vl, dest := f.dest, src := f.src, msg := f.h 47 32, first := bit f.hdr.toNat 31, last := bit f.hdr.toNat 30,
    no := f.h 29 0, pwords := f.h 51 48, payload := pl, cmd := none }

/-- A time code from a port (R73, R74, R360): only a receiver that is LOCKED, or checks a mark, looks at it. -/
def Block.timeCode (m pl : Nat) (b : Block) : Block :=
  let b := b.onPort m (fun p => { p with peerRank := bits pl 58 43 })
  if bits pl 42 40 ≠ 2 ∨ (b.sid.state ≠ .locked ∧ b.sid.state ≠ .acquire) then b
  else
    let e := bits pl 39 0
    let code : TimeCode := { epoch := e, agree := decide (e = b.now / epochTicks) }
    let b : Block := { b with sid.codes := b.sid.codes.set none m (some code) }
    let last : List TimeCode := b.sid.codes.filterMap (fun c => c.2)
    let d : Nat := (last.filter (fun c => !c.agree)).length
    let a : Nat := (last.filter (fun c => c.agree)).length
    if b.sid.state = SidState.locked ∧ a < d ∧ 2 ≤ d then b.timeLost else b

/-- A Shutter notice (R36, R361). -/
def Block.shutterNotice (m : Nat) (f : Flit) (b : Block) : Block :=
  let w := f.payload.toNat % 2 ^ 128
  let n := bits w 15 13
  let ranks := (List.range n).map (fun i => bits w (16 * i + 31) (16 * i + 16))
  let p := b.port m
  let rank := ranks.headD p.peerRank
  let b := b.setPort m { p.credit f with peerRank := rank, peerHosted := ranks, peerShutter := true }
  if p.peerShutter then b else b.logPeerShutter m rank

/-- A KEYCHG flit: the receiver goes over to the key of the NONCE in payload words 1 and 2 (R354, R415). -/
def Block.rxKeychg (m pl : Nat) (b : Block) : Block :=
  match b.trust.prk with
  | some prk =>
    b.onPort m (fun p =>
      let k := portKey prk p.peerId Config.deviceId ((leBytes 224 pl).take 32)
      { p with rxKey := some k.1, rxSalt := k.2, rxCtr := 1 })
  | none => b

/-! ### Sending (R354 to R356) -/

/-- May the module's own flit leave in its present state (R361)? -/
def Block.maySend (b : Block) (own : Bool) (q : QFlit) : Bool :=
  if !b.shut.shut then true
  else if bit b.shut.active 2 then false
  else !own || q.typ = 2 || (q.typ = 1 && q.vl = 6)

/-- The first flit of a VL that may leave: forwarded before own. -/
def Block.vlHead (b : Block) (p : Port) (vl : Nat) : Option (Nat × QFlit) :=
  let ok (k : Nat) : Option (Nat × QFlit) :=
    match p.queues.get [] k with
    | q :: _ => if b.maySend (k % 2 = 1) q then some (k, q) else none
    | [] => none
  if p.sentOn.get 0 vl - p.peerFreed.get 0 vl < vlSlots vl then (ok (2 * vl)).or (ok (2 * vl + 1)) else none

/-- Deficit round robin over VLs 1, 2, 3, 4, 6 and 7 with weights 4, 4, 2, 2, 1 and 1. -/
def vlNext (vl : Nat) : Nat := match vl with | 1 => 2 | 2 => 3 | 3 => 4 | 4 => 6 | 6 => 7 | _ => 1
def vlWeight (vl : Nat) : Nat := if vl ≤ 2 then 4 else if vl ≤ 4 then 2 else 1

def Block.drr (b : Block) : Nat → Port → Option (Nat × QFlit × Port)
  | 0, _ => none
  | n + 1, p =>
    let left := p.deficit.get 0 p.turn
    match (if left = 0 then none else b.vlHead p p.turn) with
    | some x => some (x.1, x.2, { p with deficit := p.deficit.set 0 p.turn (left - 1) })
    | none =>
      let t := vlNext p.turn
      b.drr n { p with turn := t, deficit := p.deficit.set 0 t (vlWeight t) }

/-- The header of a flit as it leaves now (R351, R356). -/
def Port.header (p : Port) (seq : Nat) (q : QFlit) : Nat :=
  fields [(112, q.dest), (96, q.src), (84, seq), (72, (p.rxSeq + 4095) % 4096), (71, b2n p.nakDue), (68, p.report % 8),
    (60, p.freed.get 0 (p.report % 8) % 256), (57, q.vl), (52, q.typ), (48, q.pwords), (32, q.msg), (31, b2n q.first),
    (30, b2n q.last), (0, q.no)]

/-- A flit leaves: the NAK it carried is sent, the next VL is reported next. [log 83 DEDUCED] -/
def Block.sendFlit (m hdr payload tag : Nat) (b : Block) : Block :=
  (b.onPort m (fun p => { p with nakDue := false, report := (p.report + 1) % 8 })).emit
    (.flit m { hdr := BitVec.ofNat 128 hdr, payload := BitVec.ofNat 1792 payload, tag := BitVec.ofNat 128 tag, bad := [],
               fixed := [] })

/-- A new sequenced flit leaves under the port key and enters the replay buffer. -/
def Block.sendNew (m k : Nat) (q : QFlit) (p : Port) (b : Block) : Block :=
  match p.txKey with
  | none => b
  | some key =>
    let hdr := p.header p.txSeq q
    let ct := xorBytes (leBytes 224 q.payload) (Config.gcmStream key (gcmIv p.txSalt p.txCtr) 224)
    let tag := flitTag key p.txSalt p.txCtr hdr ct
    let p1 := { p with
      queues := p.queues.upd [] k List.tail, sentOn := p.sentOn.upd 0 q.vl (· + 1), txSeq := (p.txSeq + 1) % 4096,
      txCtr := p.txCtr + 1, replay := p.replay ++ [{ seq := p.txSeq, q := q, cipher := leNat ct, tag := tag, sent := 1 }] }
    -- after KEYCHG the new key; after SLEEP the port is powered down
    let p2 := if q.typ = 4 then
        (match p1.txNext with
         | some (key, salt) => { p1 with txKey := some key, txSalt := salt, txCtr := 1, txNext := none }
         | none => p1)
      else if q.typ = 5 then { p1 with st := .asleep } else p1
    let b := (b.setPort m p2).sendFlit m hdr (leNat ct) tag
    if q.typ = 4 then b.keychgOver m true else b

/-- The payload word of a SHUTTER flit (R361). -/
def Block.shutterWord (b : Block) : Nat :=
  fields ([(13, b.hosted.length), (0, b.shut.active)] ++ b.hosted.zipIdx.map (fun x => (16 * x.2 + 16, x.1)))

def linkLocal (typ src payload pwords : Nat) : QFlit :=
  { typ := typ, vl := 0, dest := 0, src := src, msg := 0, first := false, last := false, no := 0, pwords := pwords,
    payload := payload, cmd := none }

def Block.sendShutter (m : Nat) (b : Block) : Block :=
  let q := linkLocal 3 b.primaryRank b.shutterWord 1
  b.sendFlit m ((b.port m).header 0 q) q.payload 0

def Block.sendIdle (m : Nat) (b : Block) : Block :=
  b.sendFlit m ((b.port m).header 0 (linkLocal 0 b.primaryRank 0 0)) 0 0

/-- FLIT_SLOT_FILL (R356). A port asleep with a flit waiting sends the wake pattern and trains. -/
def Block.slotFill (m : Nat) (b : Block) : Block :=
  let p := b.port m
  if p.st = .asleep && p.queues.any (fun e => !e.2.isEmpty) then b.setPort m { p with st := .train, waking := true }
  else if !p.st.isUp then b
  else
    let idle (b : Block) : Block := if b.shut.shut then b.sendShutter m else b.sendIdle m
    let again : Option (Nat × TxFlit) :=
      match p.resend with | some i => (p.replay[i]?).map (fun t => (i, t)) | none => none
    match (if p.failed || b.trustShut then none else again) with
    | some (i, t) =>
      if 9 ≤ t.sent then idle (b.setPort m { p with resend := none })
      else
        let p1 := { p with
          replay := p.replay.set i { t with sent := t.sent + 1 }, replays := Nat.min (p.replays + 1) (2 ^ 32 - 1),
          resend := if i + 1 < p.replay.length then some (i + 1) else none }
        (b.setPort m p1).sendFlit m (p.header t.seq t.q) t.cipher t.tag
    | none =>
      if p.failed || p.txKey.isNone || decide (1024 ≤ p.replay.length) then idle b
      else
        match (b.vlHead p 0).or (b.vlHead p 5) with
        | some (k, q) => b.sendNew m k q p
        | none =>
          match b.drr 7 p with
          | some (k, q, p1) => b.sendNew m k q p1
          | none => idle b

/-! ### Port states (R358, R362) -/

/-- Credits of a freshly trained port; the replay buffer is kept and resent. [log 83 DEDUCED] -/
def Port.trained (p : Port) : Port :=
  { p with
    sentOn := [], peerFreed := [], freed := [], nakSent := false, nakDue := false, fails := 0, waking := false,
    replay := p.replay.map (fun t => { t with sent := 1 }), resend := if p.replay.isEmpty then none else some 0 }

/-- A flit of the replay buffer under a new key (R354, R415). [log 116 DEDUCED] -/
def TxFlit.rekey (key salt ctr : Nat) (t : TxFlit) : TxFlit :=
  let hdr := fields [(112, t.q.dest), (96, t.q.src), (84, t.seq), (57, t.q.vl), (52, t.q.typ), (48, t.q.pwords), (32, t.q.msg),
    (31, b2n t.q.first), (30, b2n t.q.last), (0, t.q.no)]
  let ct := xorBytes (leBytes 224 t.q.payload) (Config.gcmStream key (gcmIv salt ctr) 224)
  { t with cipher := leNat ct, tag := flitTag key salt ctr hdr ct }

/-- The keys of a port after training (R415): derived where both ends announce one generation of a secret, else none. Flits
kept for replay are encrypted anew. [log 116 DEDUCED] -/
def Block.trainKeys (m peerId peerGen peerNonce : Nat) (b : Block) : Block :=
  match b.trust.prk with
  | some prk =>
    if peerGen = b.trust.generation then
      let d := b.draw 256
      let tx := portKey prk Config.deviceId peerId (leBytes 32 d.1)
      let rx := portKey prk peerId Config.deviceId (leBytes 32 peerNonce)
      d.2.onPort m (fun p => { p with
        peerId := peerId, txKey := some tx.1, txSalt := tx.2, txCtr := 1 + p.replay.length, txNext := none,
        rxKey := some rx.1, rxSalt := rx.2, rxCtr := 1,
        replay := p.replay.zipIdx.map (fun x => x.1.rekey tx.1 tx.2 (1 + x.2)) })
    else b.onPort m (fun p => { p with peerId := peerId, txKey := none, rxKey := none, txNext := none })
  | none => b.onPort m (fun p => { p with peerId := peerId, txKey := none, rxKey := none, txNext := none })

def Block.trainingDone (m good peerId peerGen peerNonce : Nat) (b : Block) : Block :=
  if (b.port m).st ≠ .train then b
  else
    let b := b.trainKeys m peerId peerGen peerNonce
    let p := b.port m
    let ok := good &&& (255 ^^^ p.retiredLanes)
    if ok % 256 = 255 then b.setPort m { p.trained with st := .up8, lanes := 255 }
    else if ok &&& 0x0F = 0x0F then (b.setPort m { p.trained with lanes := 0x0F }).enterDegraded m .up4
    else if ok &&& 0xF0 = 0xF0 then (b.setPort m { p.trained with lanes := 0xF0 }).enterDegraded m .up4
    else ((b.setPort m { p with lanes := 0 }).enterDegraded m .retired).reroute m

def Block.portTo (m : Nat) (p : PortState → Bool) (st : PortState) (b : Block) : Block :=
  if p (b.port m).st then b.onPort m (fun x => { x with st := st }) else b

/-- A flit of the module waits at a port: a TIME, KEYCHG or SLEEP flit on VL0. -/
def Block.queueLocal (m typ payload pwords : Nat) (b : Block) : Block :=
  b.queueFlit m true (linkLocal typ b.primaryRank payload pwords)

/-- TIME_CODE_SEND on a port (R360). -/
def Block.timeSend (m : Nat) (b : Block) : Block :=
  if b.sid.timeDue.contains m && (b.port m).st.isUp && b.trust.job ≠ 0 then
    ({ b with sid.timeDue := b.sid.timeDue.filter (· ≠ m) }).queueLocal m 2
      (fields [(43, b.primaryRank), (40, b.sid.state.code), (0, b.now / epochTicks)]) 1
  else b

/-! ### Meanings -/

def execFlitSlotFill (m : Nat) (s : State) : Host.Outcome State Fault Refusal := s.run (Block.slotFill m)
def execFlitIdle (m : Nat) (f : Flit) (s : State) : Host.Outcome State Fault Refusal :=
  s.run (Block.rxFlit m 0 f (Block.onPort m (Port.credit f)))
def execFlitData (m : Nat) (f : Flit) (s : State) : Host.Outcome State Fault Refusal :=
  s.run (Block.rxFlit m 1 f (Block.rxSequenced m f (Block.place m f)))
def execFlitTime (m : Nat) (f : Flit) (s : State) : Host.Outcome State Fault Refusal :=
  s.run (Block.rxFlit m 2 f (Block.rxSequenced m f (Block.timeCode m)))
def execFlitShutter (m : Nat) (f : Flit) (s : State) : Host.Outcome State Fault Refusal :=
  s.run (Block.rxFlit m 3 f (Block.shutterNotice m f))
def execFlitKeychg (m : Nat) (f : Flit) (s : State) : Host.Outcome State Fault Refusal :=
  s.run (Block.rxFlit m 4 f (Block.rxSequenced m f (Block.rxKeychg m)))
def execFlitSleep (m : Nat) (f : Flit) (s : State) : Host.Outcome State Fault Refusal :=
  s.run (Block.rxFlit m 5 f (Block.rxSequenced m f (fun _ => Block.onPort m (fun p => { p with st := .asleep }))))

/-- ACK has not advanced for 4 µs while flits are outstanding (R355). -/
def execReplayTimeout (m : Nat) (s : State) : Host.Outcome State Fault Refusal :=
  s.run (fun b => if (b.port m).st.isUp && !(b.port m).replay.isEmpty then b.onPort m (fun p => { p with resend := some 0 }) else b)
def execPortTrainingDone (m good peerId peerGen peerNonce : Nat) (s : State) : Host.Outcome State Fault Refusal :=
  s.run (Block.trainingDone m good peerId peerGen peerNonce)
def execTrainNoSignal (m : Nat) (s : State) : Host.Outcome State Fault Refusal :=
  s.run (fun b => if (b.port m).st = .train then (b.onPort m (fun p => { p with lanes := 0 })).enterDegraded m .nc else b)
def execSignalDetect (m : Nat) (s : State) : Host.Outcome State Fault Refusal :=
  s.run (Block.portTo m (fun st => st = .nc) .train)
def execLossOfSignal (m : Nat) (s : State) : Host.Outcome State Fault Refusal :=
  s.run (Block.portTo m PortState.isUp .train)
def execTimeCodeSend (m : Nat) (s : State) : Host.Outcome State Fault Refusal := s.run (Block.timeSend m)
def execShutterNoticeSend (m : Nat) (s : State) : Host.Outcome State Fault Refusal :=
  s.run (fun b => if b.shut.shut && (b.port m).st.isUp then b.sendShutter m else b)
def execPeerShutterEnd (m : Nat) (s : State) : Host.Outcome State Fault Refusal :=
  s.run (fun b =>
    let p := b.port m
    if p.peerShutter then (b.setPort m { p with peerShutter := false }).logPeerShutter m p.peerRank else b)

end Sys2Proof.Machine
end

