-- ==== Sys2Proof/Machine/Power.lean ====
section
/-!
DEFINITION. Performance levels, limiters and THROTTLE# (R458 to R466), clock sources (R467), sleep states (R468 to R473).
-/

namespace Sys2Proof.Machine

/-! ### Levels (R458, R460, R461) -/

/-- Matrix clock of a level in MHz, and its nominal core voltage in mV (R458). -/
def plMhz : Nat → Nat
  | 0 => 1300 | 1 => 1180 | 2 => 1060 | 3 => 940 | 4 => 820 | 5 => 710 | 6 => 590 | _ => 470
def plMv : Nat → Nat
  | 0 => 800 | 1 => 760 | 2 => 720 | 3 => 680 | 4 => 640 | 5 => 610 | 6 => 580 | _ => 550

/-- The bounds of R460 with their codes (R464, R465): REQUESTED, the ceiling, THROTTLE#, the limiters. -/
def PowerS.bounds (p : PowerS) : List (Nat × Nat) :=
  [(0, p.requested), (1, p.ceiling), (2, if p.throttle then 7 else 0)] ++
    [3, 4, 5, 6, 7].map (fun c => (c, p.lim.get 0 c))

/-- The slowest bound. [log 111 DEDUCED] -/
def PowerS.slowest (p : PowerS) : Nat := (p.bounds.map (fun x => x.2)).foldl Nat.max 0

/-- The code of the bound that sets a level: the first that names it. -/
def PowerS.boundAt (p : PowerS) (l : Nat) : Nat := ((p.bounds.find? (fun x => x.2 = l)).map (fun x => x.1)).getD 0

/-- The level imposed by the limiters (PL_STATUS.LIMIT). -/
def PowerS.limit (p : PowerS) : Nat := ([3, 4, 5, 6, 7].map (fun c => p.lim.get 0 c)).foldl Nat.max 0

/-- A decision (R461): slower, the clock follows at once and the voltage slews down; faster, the voltage slews up first.
[log 111, 112 DEDUCED] -/
def PowerS.retarget (p : PowerS) : PowerS :=
  let t := p.slowest
  if p.eff < t then { p with eff := t, target := t, switching := true, limiter := p.boundAt t }
  else if t < p.eff then { p with target := t, switching := true }
  else { p with target := t, limiter := p.boundAt t }

/-- A bound newly slower than REQUESTED (R464): an error record and a yield record. [log 111 DEDUCED] -/
def Block.reportBounds (b : Block) : Block :=
  let ovr : List Nat := (b.pow.bounds.filter (fun x => x.1 ≠ 0 && decide (b.pow.requested < x.2))).map (fun x => x.1)
  let new := ovr.filter (fun c => !b.pow.bounding.contains c)
  new.foldl (fun b c =>
    (b.logError Status.throttled 12 0 c 0).logYield Status.throttled b.primaryRank 0 4 5 15 0 0)
    ({ b with pow.bounding := ovr } : Block)

/-- The bounds change: the level is decided anew. -/
def Block.onPower (f : PowerS → PowerS) (b : Block) : Block := ({ b with pow := (f b.pow).retarget }).reportBounds

/-- PL_SET (R466). -/
def Block.startPlSet (c : Cmd) (b : Block) : Block :=
  let b := b.onPower (fun p => { p with requested := c.pkt.f 127 125 })
  b.done c (8 * b.pow.requested + b.pow.target)

/-- SET_PL_CEILING (R438): the level in force. -/
def Block.setCeiling (l : Nat) (b : Block) : Block := b.onPower (fun p => { p with ceiling := l })

/-! ### Limits (R462, R463) -/

/-- A limiter's trigger holds: it imposes a level. -/
def PowerS.impose (code level : Nat) (p : PowerS) : PowerS :=
  { p with on := if p.on.contains code then p.on else code :: p.on, lim := p.lim.set 0 code level }

/-- One level slower than the present one. [log 112 DEDUCED] -/
def PowerS.slower (p : PowerS) : Nat := Nat.min 7 (p.target + 1)

def PowerS.release (code : Nat) (p : PowerS) : PowerS := { p with on := p.on.filter (· ≠ code) }

/-- A limiter's trigger found true by its sensor. [log 112 DEDUCED] -/
def Block.limitStep (code : Nat) (level : PowerS → Nat) (b : Block) : Block :=
  b.onPower (fun p => p.impose code (level p))

/-- A stack in zone LIMIT. -/
def Block.stackLimit (b : Block) : Bool := b.mem.temps.any (fun e => decide (e.2.2.1 = 1) && decide (2 ≤ e.2.2.2))

/-- Is a limit exceeded that R462 lets latch Shutter cause 4? -/
def Block.overLimit (b : Block) : Bool :=
  b.pow.on.contains 3 || decide (b.pow.cap < b.pow.watts) || b.pow.dieTemps.any (fun e => decide (105 ≤ e.2)) ||
    b.mem.temps.any (fun e => decide (e.2.2.1 = 1) && decide (100 ≤ e.2.1))

/-- Limiters whose trigger has been released return by one level (R462). -/
def PowerS.returnStep (stackOn : Bool) (p : PowerS) : PowerS :=
  { p with lim := p.lim.filterMap (fun (e : Nat × Nat) =>
      if p.on.contains e.1 && (e.1 ≠ 7 || stackOn) then some e
      else if e.2 ≤ 1 then none else some (e.1, e.2 - 1)) }

def execThrottleAssert (s : State) : Host.Outcome State Fault Refusal :=
  s.run (fun b => if b.pow.throttle then b else b.onPower (fun p => { p with throttle := true, held := 0 }))
def execThrottleRelease (s : State) : Host.Outcome State Fault Refusal :=
  s.run (fun b => if b.pow.throttle then b.onPower (fun p => { p with throttle := false, held := 0 }) else b)
def execThrottlePeriod (s : State) : Host.Outcome State Fault Refusal :=
  s.run (fun b =>
    if b.pow.throttle then
      let b : Block := { b with pow.held := b.pow.held + 10, pow.throttleTime := Nat.min (b.pow.throttleTime + 1) (2 ^ 32 - 1) }
      b.logError Status.throttled 12 0 2 b.pow.held
    else b)
def execFastCurrentTrip (s : State) : Host.Outcome State Fault Refusal := s.run (Block.limitStep 3 (fun _ => 7))
def execFastCurrentRelease (s : State) : Host.Outcome State Fault Refusal := s.run (Block.onPower (PowerS.release 3))
def execInputPowerStep (watts : Nat) (s : State) : Host.Outcome State Fault Refusal :=
  s.run (fun b =>
    let b : Block := { b with pow.watts := watts }
    if b.pow.cap < watts then b.limitStep 4 PowerS.slower else b)
def execInputPowerRelease (watts : Nat) (s : State) : Host.Outcome State Fault Refusal :=
  s.run (fun b =>
    let b : Block := { b with pow.watts := watts }
    if 100 * watts < 95 * b.pow.cap then b.onPower (PowerS.release 4) else b)

/-- A die sensor's reading: 0 the hub's, 1 to 4 those of Q0 to Q3. -/
def Block.sense (sensor temp : Nat) (b : Block) : Block :=
  if 5 ≤ sensor then b else { b with pow.dieTemps := b.pow.dieTemps.set 0 sensor temp }

def execDieTempStep (sensor temp : Nat) (s : State) : Host.Outcome State Fault Refusal :=
  s.run (fun b =>
    let b := b.sense sensor temp
    if b.pow.dieTemps.any (fun e => decide (100 ≤ e.2)) then b.limitStep 5 PowerS.slower else b)
def execDieTempHard (sensor temp : Nat) (s : State) : Host.Outcome State Fault Refusal :=
  s.run (fun b =>
    let b := b.sense sensor temp
    if b.pow.dieTemps.any (fun e => decide (105 ≤ e.2)) then b.limitStep 6 (fun _ => 7) else b)

/-- Readings of the five sensors, every one below 97 °C where the limiters release. -/
def execDieTempRelease (temps : List Nat) (s : State) : Host.Outcome State Fault Refusal :=
  s.run (fun b =>
    let b := temps.zipIdx.foldl (fun b x => Block.sense x.2 x.1 b) b
    if b.pow.dieTemps.all (fun e => decide (e.2 < 97)) then b.onPower (fun p => (p.release 5).release 6) else b)
def execStackTempStep (s : State) : Host.Outcome State Fault Refusal :=
  s.run (fun b => if b.stackLimit then b.limitStep 7 PowerS.slower else b)
def execLimiterReturnStep (s : State) : Host.Outcome State Fault Refusal :=
  s.run (fun b => b.onPower (PowerS.returnStep b.stackLimit))
def execPl7LimitPersist (s : State) : Host.Outcome State Fault Refusal :=
  s.run (fun b =>
    if b.pow.eff = 7 && b.overLimit && !bit b.shut.active 4 then b.latchCause 4 Status.thermalLimit else b)

/-- 10 ms in which no sensor has exceeded its limit (R452). -/
def execThermalCauseClear (s : State) : Host.Outcome State Fault Refusal :=
  s.run (fun b => if b.overLimit then b else { b with shut.active := setBit b.shut.active 4 false })
def execPlVoltageReached (s : State) : Host.Outcome State Fault Refusal :=
  s.run (fun b =>
    let p := b.pow
    if p.switching && decide (p.target < p.eff) then
      { b with pow := { p with eff := p.target, switching := false, limiter := p.boundAt p.target } }
    else b)
def execVoltageSlewDownDone (s : State) : Host.Outcome State Fault Refusal :=
  s.run (fun b => if b.pow.switching && b.pow.target = b.pow.eff then { b with pow.switching := false } else b)
def execClockSourceSwitchDone (s : State) : Host.Outcome State Fault Refusal :=
  s.run (fun b => if b.sid.state = .locked then { b with pow.sidClk := true } else b)

/-! ### Sleep (R468 to R473) -/

def Block.ringBusy (b : Block) (me : Option Nat) : Option Nat :=
  b.mer.running.findSome? (fun c => match c.pkt.src with | .ring n => if some c.id = me then none else some n | .tile _ => none)

/-- The first condition of R470 that refuses a sleep: reason, UNIT, INDEX. `me` is the SLEEP itself. -/
def Block.sleepBar (b : Block) (target : Nat) (me : Option Nat) : Option (Nat × Nat × Nat) :=
  let deep := decide (2 ≤ target)
  if b.shut.shut then some (1, 0, 0)
  else match b.ringBusy me with
  | some n => some (2, 0, n)
  | none =>
    match [0, 1, 2, 3].find? (fun q => !(b.mer.tileQ.get [] q).isEmpty || !(b.mer.tileHeld.get [] q).isEmpty) with
    | some q => some (3, 0, 64 + q)
    | none =>
      if b.stepIsOpen then some (4, 9, 0)
      else if (b.snap.st ≠ SnapState.unconfigured && b.snap.st ≠ SnapState.idle) ||
          b.mer.running.any (fun c => c.pkt.opcode = 0x0B02 || c.pkt.opcode = 0x0B05) then some (5, 9, 0)
      else match b.mer.running.findSome? (fun c => match c.work with | Work.tier w => some w.channel | _ => none) with
      | some ch => some (6, 4, ch)
      | none =>
        match (b.fab.colls.map (fun (x : Coll) => x.tree)).head?.or ((b.fab.releases.map (fun _ => 0)).head?) with
        | some t => some (7, 8, t)
        | none =>
          match (if deep then b.migrating else none) with
          | some p => some (8, 2, p)
          | none =>
            match (if deep then b.mem.walks.head? else none) with
            | some w => some (8, 2, 0xF000 + w.domain)
            | none =>
              if deep && (b.host.tdisp = Tdisp.locked || b.host.tdisp = Tdisp.run) then some (9, 13, 0)
              else if target = 3 && b.trust.job ≠ 0 then some (10, 11, 0)
              else if target = 3 && !b.eph.entries.isEmpty then some (11, 10, 0)
              else none

/-- A sleep is refused (R469). -/
def Block.refuseSleep (me : Option Nat) (why unit index : Nat) (b : Block) : Block :=
  let b : Block := { b with
    pow.refused := Nat.min (b.pow.refused + 1) (2 ^ 32 - 1), pow.refuser := sleepWord unit index why }
  match me with
  | some id => b.completeId id Status.sleepRefused (sleepDetail unit index why) 0
  | none => b

/-- Entry into a sleep state begins (R471): for Stow each UP port sends SLEEP. -/
def Block.beginSleep (target : Nat) (me : Option Nat) (b : Block) : Block :=
  let b : Block := { b with pow.sleep := .entering target, pow.sleepCmd := me }
  if target = 2 then
    (List.range 8).foldl (fun b m => if (b.port m).st.isUp then b.queueLocal m 5 0 0 else b) b
  else b

/-- SLEEP (R469). -/
def Block.startSleep (c : Cmd) (b : Block) : Block :=
  let t := c.pkt.f 127 126
  if t = 0 ∨ c.pkt.f 125 0 ≠ 0 then b.refuse c Status.badParam 0
  else match b.sleepBar t (some c.id) with
  | some (why, unit, index) => b.refuseSleep (some c.id) why unit index
  | none =>
    if t = 3 then (b.done c 0).beginSleep 3 none
    else (b.setWork c.id (.await 7 t 0 0)).beginSleep t (some c.id)

/-- Is an UP port's SLEEP still to be sent? A port without a key sends none and powers down with the rails. [log 114 DEDUCED] -/
def Block.sleepUnsent (b : Block) : Bool :=
  (List.range 8).any (fun m => (b.port m).st.isUp && (b.port m).txKey.isSome && !(b.port m).failed)

/-- Entry into Idle-gate or Stow is complete (R471). [log 114 DEDUCED] -/
def Block.enterSleep (target : Nat) (b : Block) : Block :=
  let b : Block := if target = 2 then
      { b with fab.ports := b.fab.ports.map (fun (e : Nat × Port) =>
          (e.1, { e.2 with st := if e.2.st.isUp then .asleep else e.2.st })) }
    else b
  { b with pow.sleep := .asleep target, pow.sleptAt := b.now, pins.wakeDriven := false }

/-- A wake from Idle-gate or Stow is complete (R469, R472). -/
def execSleepWakeDone (s : State) : Host.Outcome State Fault Refusal :=
  s.run (fun b =>
    match b.pow.sleep with
    | .waking t src =>
      let ticks := b.now - b.pow.sleptAt
      let id := b.pow.sleepCmd
      let b : Block := { b with
        pow.sleep := .awake, pow.sleepCmd := none, pow.sleepTime := Nat.min ticks (2 ^ 32 - 1),
        pow.wakeReg := fields [(28, src), (26, t)] }
      match id with
      | some id => b.completeId id Status.ok 0 (ticks % 2 ^ 32 * 2 ^ 32 + src)
      | none => b
    | _ => b)

/-- WAKE# low for 1 µs while the A9 does not drive it (R472); `rested` tells that it has been high for 1 ms since it last
woke the module. -/
def execWakePin (rested : Bool) (s : State) : Host.Outcome State Fault Refusal :=
  s.run (fun b =>
    if b.pins.wakeDriven || (b.pow.wakeIgnored && !rested) then b
    else
      let sleeping := b.boot.dark || !b.isAwake
      let b := b.wakeBy 2 12 0xFFFF
      { b with pow.wakeIgnored := sleeping })
def execWakeDriveEnd (s : State) : Host.Outcome State Fault Refusal :=
  s.run (fun b => { b with pins.wakeDriven := false })
/-- The wake pattern on a port (R358, R362): the port trains, and the module wakes. -/
def execWakePattern (m : Nat) (s : State) : Host.Outcome State Fault Refusal :=
  s.run (fun b =>
    let b : Block := if (b.port m).st = .asleep then b.onPort m (fun p => { p with st := .train }) else b
    b.wakeBy 3 7 m)
/-- D3hot acts as a SLEEP STOW of Merlen's own (R473). -/
def execD3hotEntry (s : State) : Host.Outcome State Fault Refusal :=
  s.run (fun b =>
    let b : Block := { b with host.d3hot := true }
    if !b.isAwake || !b.isReady then b
    else match b.sleepBar 2 none with
    | some (why, unit, index) => b.refuseSleep none why unit index
    | none => b.beginSleep 2 none)
def execD0Entry (s : State) : Host.Outcome State Fault Refusal :=
  s.run (fun b => ({ b with host.d3hot := false } : Block).wakeBy 1 13 0)
/-- PME_Turn_Off is acknowledged; the module keeps its state (R473). -/
def execPmeTurnOff (s : State) : Host.Outcome State Fault Refusal := s.run id

end Sys2Proof.Machine
end

