-- ==== Sys2Proof/Machine/Peer.lean ====
section
/-!
DEFINITION. Ranks, trees and export windows (R364, R366); serving a peer's accesses; SEND and RECV (R365).
-/

namespace Sys2Proof.Machine

/-! ### EXPORT_SET and windows (R364) -/

def Block.startExportSet (c : Cmd) (b : Block) : Block :=
  let p := c.pkt
  let rank := p.f 255 240
  let win := p.f 239 237
  let base := p.f 233 182
  let pages := p.f 181 165
  let rest := b.fab.exports.filter (fun e => !(e.rank = rank && e.win = win))
  if !b.hosts rank then b.refuse c Status.badParam 0
  else if p.f 236 236 = 0 then Block.done c 0 { b with fab.exports := rest }
  else if pages = 0 || 65536 < pages || base % 65536 ≠ 0 ||
      !b.pagesAll base (65536 * pages) (fun a => attrClass a ≠ 4) then b.refuse c Status.badParam 0
  else
    let e : ExportW := { rank := rank, win := win, rd := p.f 235 235 = 1, wr := p.f 234 234 = 1, base := base, pages := pages }
    Block.done c 0 { b with fab.exports := rest ++ [e] }

/-- The DA behind n bytes of a window of a rank this module hosts, if the access is allowed (R22, R364). [log 91 DEDUCED] -/
def Block.window (b : Block) (rank exp off n : Nat) (wr : Bool) : Option Nat :=
  (b.fab.exports.find? (fun e => e.rank = rank && e.win = exp && (if wr then e.wr else e.rd) &&
    decide (off + n ≤ 65536 * e.pages))).map (fun e => e.base + off)

/-! ### Messages served here (R353, R364) -/

/-- A whole message of a kind from a rank. [log 85 DEDUCED] -/
def Block.inMsg (b : Block) (kind src no : Nat) : Option Msg :=
  b.fab.inbox.find? (fun m => m.kind = kind && m.src = src && m.no = no)

def Block.dropMsg (m : Msg) (b : Block) : Block := { b with fab.inbox := b.fab.inbox.erase m }

/-- The answer to a message: WRITE_ACK with ROP 1 for a write that was made, 0 for a refusal. Answers to snapshot traffic
stay on its virtual lane. [log 85 DEDUCED] -/
def Block.ackMsg (m : Msg) (ok : Bool) (b : Block) : Block :=
  b.post { Msg.zero with
    kind := Kind.writeAck, src := m.dest, dest := m.src, vl := if m.vl = 6 then 6 else 5, rop := b2n ok, rval := m.no } none

/-- [log 85 DEDUCED] -/
def Block.rspMsg (m : Msg) (bs : List Byte) (b : Block) : Block :=
  b.post { Msg.zero with
    kind := Kind.readRsp, src := m.dest, dest := m.src, vl := if m.vl = 6 then 6 else 5, length := bs.length, rval := m.no,
    data := bs } none

/-- ROP of a message, as requester 216 (R353, R365). [log 87 DEDUCED] -/
def Block.applyRop (m : Msg) (b : Block) : Block :=
  if m.rop = 1 ∨ m.rop = 2 then b.issueSync { ctr := m.rctr, req := 216, set := m.rop = 2, val := m.rval, cmd := none } else b

/-- PEER_WRITE (R364). A write to a write-protected page waits. -/
def Block.peerWrite (src no : Nat) (b : Block) : Block :=
  match b.inMsg Kind.peerWrite src no with
  | none => b
  | some m =>
    match b.window m.dest m.exp m.offset m.data.length true with
    | none => (b.dropMsg m).ackMsg m false
    | some da =>
      if b.roHit da m.data.length then (b.dropMsg m).ackMsg m false
      else if b.writeWaits da m.data.length then b
      else
        match b.daWrite da m.data with
        | (b, some st) =>
          if statusClass st ≤ 1 then (((b.dropMsg m).applyRop m).ackMsg m true) else (b.dropMsg m).ackMsg m false
        | (b, none) => ((b.dropMsg m).applyRop m).ackMsg m true

/-- READ_REQ (R364). -/
def Block.peerRead (src no : Nat) (b : Block) : Block :=
  match b.inMsg Kind.readReq src no with
  | none => b
  | some m =>
    match b.window m.dest m.exp m.offset m.length false with
    | none => (b.dropMsg m).rspMsg m []
    | some da =>
      if b.readWaits da m.length then b
      else
        match b.daRead da m.length with
        | (.ok bs _, b) => ((b.dropMsg m).applyRop m).rspMsg m bs
        | (.fail _ _ _, b) => (b.dropMsg m).rspMsg m []

/-! ### SEND and RECV (R365) -/

def p2pChunk : Nat := 0x400000

/-- Issue the messages of a transfer that may leave now: every one but the last at once, the last, which carries ROP, once all
before it are answered. `k` messages have left, `out` are unanswered. -/
def Block.p2pGo (c : Cmd) : Nat → Nat → Nat → Block → Block
  | 0, _, _, b => b
  | fuel + 1, k, out, b =>
    let p := c.pkt
    let len := p.f 408 377
    let n := ceilDiv len p2pChunk
    let b := b.setWork c.id (.await 3 k out 0)
    if n ≤ k then (if out = 0 then b.done c 0 else b)
    else if k + 1 = n ∧ out ≠ 0 then b
    else
      let off := p2pChunk * k
      let m := Nat.min p2pChunk (len - off)
      let last := k + 1 = n
      let msg : Msg := { Msg.zero with
        src := b.primaryRank, dest := p.f 511 496, vl := 3, length := m,
        offset := p.f 440 409 + off, exp := p.f 443 441, rctr := p.f 376 364,
        rop := if last then p.f 363 362 else 0, rval := p.f 361 330 }
      let who : PeerReq := .cmd c.id off m
      if p.opcode = 0x0905 then
        b.cmdRead c.id (p.f 495 444 + off) m (fun bs b =>
          (b.post { msg with kind := Kind.peerWrite, data := bs } (some who)).p2pGo c fuel (k + 1) (out + 1))
      else (b.post { msg with kind := Kind.readReq } (some who)).p2pGo c fuel (k + 1) (out + 1)

def Block.p2pStart (c : Cmd) (b : Block) : Block :=
  let p := c.pkt
  let da := p.f 495 444
  let len := p.f 408 377
  if da % 64 ≠ 0 ∨ p.f 440 409 % 64 ≠ 0 ∨ len = 0 ∨ len % 64 ≠ 0 ∨ p.f 363 362 = 3 then b.refuse c Status.badParam 0
  else
    match localStatus da len with
    | some st => b.refuse c st 0
    | none =>
      if 2 ^ 32 < p.f 440 409 + len then b.refuse c Status.addrUnmapped 0
      else b.p2pGo c (ceilDiv len p2pChunk + 2) 0 0

/-- A peer answers a SEND or a RECV. -/
def Block.p2pAnswer (id off rank : Nat) (a : PeerAns) (b : Block) : Block :=
  match b.cmd id with
  | none => b
  | some c =>
    match c.work with
    | .await 3 k out _ =>
      let next (b : Block) : Block := b.p2pGo c (ceilDiv (c.pkt.f 408 377) p2pChunk + 2) k (out - 1)
      match a with
      | .ack => next b
      | .data bs => b.cmdWrite id (c.pkt.f 495 444 + off) bs next
      | .refused => b.completeId id Status.addrUnmapped 0 0
      | .unreachable => b.completeId id Status.rankLost rank 0
    | _ => b

/-! ### TREE_SET (R366) -/

def Block.tree (b : Block) (t : Nat) : Option TreeDef := b.fab.trees.find? (fun x => x.num = t)
def Block.treeBusy (b : Block) (t : Nat) : Bool := b.fab.colls.any (fun c => c.tree = t)

/-- SELF: the hosted set; new ledgers for what it adds or changes (R379). -/
def Block.treeSelf (c : Cmd) (b : Block) : Block :=
  let p := c.pkt
  let n := p.f 379 377
  let emul := (List.range n).map (fun k => p.f (16 * k + 411) (16 * k + 396))
  let ranks := p.f 507 492 :: emul
  let busy := !b.fab.colls.isEmpty || !b.fab.reqs.isEmpty ||
    b.mer.running.any (fun x => x.pkt.opcode = 0x0905 || x.pkt.opcode = 0x0906)
  if n = 7 || busy || !ranks.Nodup then b.refuse c Status.badParam 0
  else
    let changed := ranks ≠ b.hosted
    let b := { b with fab.primary := some (p.f 507 492), fab.emul := emul,
                      fab.exports := if changed then [] else b.fab.exports }
    let b := { b with train.ledgers := ranks.zipIdx.foldl (fun (m : Sparse (Option Ledger)) (x : Nat × Nat) =>
        match b.ledger x.2 with
        | some l => m.set none x.2 (some (if l.rank = x.1 then l else Ledger.fresh x.1))
        | none => m.set none x.2 (some (Ledger.fresh x.1))) [] }
    b.done c 0

def Block.treeDefine (c : Cmd) (b : Block) : Block :=
  let p := c.pkt
  let n := p.f 372 356
  let t := p.f 376 373
  if n = 0 ∨ 65536 < n ∨ b.treeBusy t then b.refuse c Status.badParam 0
  else
    match localStatus (p.f 355 304) (2 * n) with
    | some st => b.refuse c st 0
    | none =>
      b.cmdRead c.id (p.f 355 304) (2 * n) (fun bs b =>
        let ms := (List.range n).map (fun i => leNat ((bs.drop (2 * i)).take 2))
        let others := b.fab.trees.filter (fun x => x.num ≠ t)
        if !ms.Nodup || !ms.any b.hosts || decide (262144 < n + (others.map (fun x => x.members.length)).sum) then
          b.refuse c Status.badParam 0
        else
          let tr : TreeDef := { num := t, members := ms, seq := 0 }
          Block.done c 0 { b with fab.trees := others ++ [tr] })

def Block.treeRoutes (c : Cmd) (b : Block) : Block :=
  let da := c.pkt.f 355 304
  match localStatus da 65536 with
  | some st => b.refuse c st 0
  | none => b.cmdRead c.id da 65536 (fun bs b =>
      Block.done c 0 { b with fab.routes := Sparse.setL 0xFF 0 (bs.map (fun (x : Byte) => x.toNat)) [] })

/-- [log 90 DEDUCED] -/
def Block.treeUndefine (c : Cmd) (b : Block) : Block :=
  let t := c.pkt.f 376 373
  if b.treeBusy t then b.refuse c Status.badParam 0
  else Block.done c 0 { b with fab.trees := b.fab.trees.filter (fun x => x.num ≠ t) }

def Block.startTreeSet (c : Cmd) (b : Block) : Block :=
  match c.pkt.f 511 508 with
  | 0 => b.treeSelf c
  | 1 => b.treeDefine c
  | 2 => b.treeRoutes c
  | 3 => b.treeUndefine c
  | _ => b.refuse c Status.badParam 0

def execPeerWrite (src no : Nat) (s : State) : Host.Outcome State Fault Refusal := s.run (Block.peerWrite src no)
def execReadReq (src no : Nat) (s : State) : Host.Outcome State Fault Refusal := s.run (Block.peerRead src no)

end Sys2Proof.Machine
end

