-- ==== Sys2Proof/Machine/Coll.lean ====
section
/-!
DEFINITION. Collectives (R367 to R375): admission, holds and releases, the descriptor digest, the fixed reduction tree of R370
with its nodes placed by R371, chunks of 2 KiB, outputs, the all-finite flag, and how a collective ends.
-/

namespace Sys2Proof.Machine

/-! ### The tree (R370, R371) -/

def treeLevels (n : Nat) : Nat := nbits (n - 1)
def treeWidth (n l : Nat) : Nat := ceilDiv n (2 ^ l)
/-- The member that node i of level l is added on: the member of its last leaf. -/
def nodeOwner (s n l i : Nat) : Nat := (s + 1 + (Nat.min ((i + 1) * 2 ^ l) n - 1)) % n

/-- The nodes that move up from their own member to their parent's: left children with a right sibling (level, node, from, to). -/
def treeMoves (s n : Nat) : List (Nat × Nat × Nat × Nat) :=
  ((List.range (treeLevels n)).map (fun l =>
    ((List.range (treeWidth n l)).filter (fun i => i % 2 = 0 && decide (i + 1 < treeWidth n l))).map (fun i =>
      (l, i, nodeOwner s n l i, nodeOwner s n (l + 1) (i / 2))))).flatten

/-- One addition, or one comparison, or AND of flags as numbers 1 and 0 (R370, R373). -/
def collOp (op : Nat) (a b : FV) : FV :=
  if op = 0 then fp32.round (a.add b) else if op = 1 then a.max b else a.min b

/-- The value of a node: its own leaf, what another member sent, or its children combined. -/
def nodeVal (op n : Nat) (mine : Nat → Nat → Bool) (leaf : Nat → Option (List FV)) (got : Nat → Nat → Option (List FV)) :
    Nat → Nat → Option (List FV)
  | 0, i => if mine 0 i then leaf i else got 0 i
  | l + 1, i =>
    if !mine (l + 1) i then got (l + 1) i
    else
      match nodeVal op n mine leaf got l (2 * i) with
      | none => none
      | some x =>
        if 2 * i + 1 < treeWidth n l then
          (nodeVal op n mine leaf got l (2 * i + 1)).map (fun y => (x.zip y).map (fun p => collOp op p.1 p.2))
        else some x

/-! ### Parameters (R367, R373) -/

def Cmd.isFlag (c : Cmd) : Bool := c.pkt.opcode = 0x0907
def Cmd.isReduce (c : Cmd) : Bool := decide (c.pkt.opcode ≤ 0x0901)
def Cmd.colTree (c : Cmd) : Nat := if c.isFlag then c.pkt.f 127 124 else c.pkt.f 217 214
def Cmd.colHold (c : Cmd) : Nat := if c.isFlag then c.pkt.f 123 122 else c.pkt.f 235 234
def Cmd.colTag (c : Cmd) : Nat := if c.isFlag then c.pkt.f 121 106 else c.pkt.f 233 218
def Cmd.colTimeout (c : Cmd) : Nat := if c.isFlag then c.pkt.f 105 74 else c.pkt.f 267 236
def Cmd.colShard (c : Cmd) : Nat := c.pkt.f 407 368
def Cmd.colRoot (c : Cmd) : Nat := c.pkt.f 210 195
def Cmd.colCensus (c : Cmd) : Nat := c.pkt.f 319 268
def Cmd.colInW (c : Cmd) : Nat := if c.pkt.f 212 212 = 1 then 2 else 4
def Cmd.colOutW (c : Cmd) : Nat := if c.pkt.f 211 211 = 1 then 2 else 4
def Cmd.colIn (c : Cmd) : Fmt := if c.pkt.f 212 212 = 1 then bf16 else fp32
def Cmd.colOut (c : Cmd) : Fmt := if c.pkt.f 211 211 = 1 then bf16 else fp32
/-- Bytes of an output shard. -/
def Cmd.colOutShard (c : Cmd) : Nat := if c.isReduce then c.colShard / c.colInW * c.colOutW else c.colShard

/-- The descriptor digest (R369). -/
def Cmd.colDigest (c : Cmd) (count : Nat) : Nat :=
  let z (x : Nat) : Nat := if c.isFlag then 0 else x
  crc32c (leBytes 2 c.pkt.opcode ++ leBytes 1 c.colTree ++ leBytes 3 count ++ leBytes 5 (z c.colShard) ++
    leBytes 1 (z (c.pkt.f 213 213)) ++ leBytes 1 (z (c.pkt.f 212 212)) ++ leBytes 1 (z (c.pkt.f 211 211)) ++
    leBytes 2 (z c.colRoot))

/-- Hosted members of a tree: hosted index and member index. -/
def Block.hostedMembers (b : Block) (members : List Nat) : List (Nat × Nat) :=
  b.hosted.zipIdx.filterMap (fun r =>
    let i := members.findIdx (· = r.1)
    if i < members.length then some (r.2, i) else none)

def Cmd.srcLen (c : Cmd) (n : Nat) : Nat :=
  if c.pkt.opcode = 0x0902 ∨ c.pkt.opcode = 0x0903 then c.colShard else n * c.colShard
def Cmd.dstLen (c : Cmd) (n : Nat) : Nat :=
  if c.pkt.opcode = 0x0901 ∨ c.pkt.opcode = 0x0903 then c.colOutShard else n * c.colOutShard
def Cmd.srcDa (c : Cmd) (k : Nat) : Nat := c.pkt.f 511 460 + 65536 * c.pkt.f 367 344 * k
def Cmd.dstDa (c : Cmd) (k : Nat) : Nat := c.pkt.f 459 408 + 65536 * c.pkt.f 343 320 * k

/-! ### What moves -/

/-- All data movement between members: (from, to, key), the key naming node or output data, chunk by chunk. -/
def Cmd.colEdges (c : Cmd) (n : Nat) : List (Nat × Nat × CKey) :=
  let key (vl s l i off : Nat) : CKey := { vl := vl, shard := s, level := l, node := i, off := off }
  let offs (total step : Nat) : List Nat := (List.range (ceilDiv total step)).map (· * step)
  let up (s : Nat) (os : List Nat) : List (Nat × Nat × CKey) :=
    ((treeMoves s n).map (fun (m : Nat × Nat × Nat × Nat) => os.map (fun o => (m.2.2.1, m.2.2.2, key 1 s m.1 m.2.1 o)))).flatten
  let nodeOffs := offs (4 * (c.colShard / c.colInW)) 2048
  let all := List.range n
  match c.pkt.opcode with
  | 0x0900 =>
    (all.map (fun s => up s nodeOffs ++
      (all.map (fun j => (offs c.colOutShard 2048).map (fun o => (s, j, key 2 s 0 0 o)))).flatten)).flatten
  | 0x0901 => (all.map (fun s => up s nodeOffs)).flatten
  | 0x0902 => (all.map (fun i => (all.map (fun j => (offs c.colShard 2048).map (fun o => (i, j, key 2 i 0 0 o)))).flatten)).flatten
  | 0x0903 => (all.map (fun j => (offs c.colShard 2048).map (fun o => (c.colRoot, j, key 2 c.colRoot 0 0 o)))).flatten
  | 0x0904 => (all.map (fun i => (all.map (fun j => (offs c.colShard 2048).map (fun o => (i, j, key 2 i 0 j o)))).flatten)).flatten
  | _ => up 0 [0] ++ (treeMoves 0 n).map (fun (m : Nat × Nat × Nat × Nat) => (m.2.2.2, m.2.2.1, key 2 0 m.1 m.2.1 0))

/-- Output data of hosted members: hosted index, member, key, DA. -/
def Block.colOuts (b : Block) (c : Cmd) (members : List Nat) : List (Nat × Nat × CKey × Nat) :=
  let n := members.length
  let offs := (List.range (ceilDiv c.colOutShard 2048)).map (· * 2048)
  let key (s i off : Nat) : CKey := { vl := 2, shard := s, level := 0, node := i, off := off }
  ((b.hostedMembers members).map (fun h =>
    let put (s node place : Nat) : List (Nat × Nat × CKey × Nat) :=
      offs.map (fun o => (h.1, h.2, key s node o, c.dstDa h.1 + place * c.colOutShard + o))
    match c.pkt.opcode with
    | 0x0901 => put h.2 0 0
    | 0x0903 => put c.colRoot 0 0
    | 0x0904 => ((List.range n).map (fun j => put j h.2 j)).flatten
    | 0x0907 => []
    | _ => ((List.range n).map (fun s => put s 0 s)).flatten)).flatten

/-- The hosted index of a member, if this module hosts it. -/
def Block.memberAt (b : Block) (x : Coll) (i : Nat) : Option Nat :=
  match x.members[i]? with
  | some r => if b.hosts r then some (b.hosted.findIdx (· = r)) else none
  | none => none

/-- Bytes of a source, as they stand. [log 88 DEDUCED] -/
def Block.colSrc (b : Block) (c : Cmd) (k off n : Nat) : Option (List Byte) :=
  match (b.daRead (c.srcDa k + off) n).1 with
  | .ok bs _ => some bs
  | .fail _ _ _ => none

def Coll.part (x : Coll) (k : CKey) : Option (List Byte) := (x.parts.find? (fun p => p.1 = k)).map (·.2)

def f32s (bs : List Byte) : List FV := (List.range (bs.length / 4)).map (fun i => fp32.decode (leNat ((bs.drop (4 * i)).take 4)))
def f32Bytes (vs : List FV) : List Byte := (vs.map (fun v => leBytes 4 (fp32.enc v).1)).flatten

/-- Node values of elements e0 up of shard s, at a level and index, under an operation and with every source read through `f`.
[log 86 DEDUCED] -/
def Block.colNodeOf (b : Block) (f : FV → FV) (op : Nat) (x : Coll) (c : Cmd) (s e0 m l i : Nat) : Option (List FV) :=
  let n := x.members.length
  let mine (l i : Nat) : Bool := (b.memberAt x (nodeOwner s n l i)).isSome
  let leaf (i : Nat) : Option (List FV) :=
    if c.isFlag then some [.fin false (b2n x.flag) 0]
    else
      match b.memberAt x ((s + 1 + i) % n) with
      | some k => (b.colSrc c k (s * c.colShard + c.colInW * e0) (c.colInW * m)).map (fun bs =>
          (List.range m).map (fun j => f (c.colIn.decode (leNat ((bs.drop (c.colInW * j)).take c.colInW)))))
      | none => none
  let got (l i : Nat) : Option (List FV) :=
    (x.part { vl := 1, shard := s, level := l, node := i, off := 4 * e0 }).map (fun bs => (f32s bs).map f)
  nodeVal op n mine leaf got l i

/-- The node values of elements e0 up of shard s, at a level and index. -/
def Block.colNode (b : Block) (x : Coll) (c : Cmd) (s e0 m l i : Nat) : Option (List FV) :=
  b.colNodeOf id (if c.isFlag then 2 else c.pkt.f 213 213) x c s e0 m l i

/-- 1 for every element of a shard whose sources here, hosted inputs and node data received, are all finite. [log 86 DEDUCED] -/
def Block.colFinite (b : Block) (x : Coll) (c : Cmd) (s e0 m : Nat) : Option (List FV) :=
  b.colNodeOf (fun v => .fin false (b2n v.isFin) 0) 2 x c s e0 m (treeLevels x.members.length) 0

/-- The root of a shard's elements encoded in OUT_FMT: codes and census classes; a sum of finite values that overflows is a
saturation (R372). [log 88 DEDUCED] -/
def Block.colRootOut (b : Block) (x : Coll) (c : Cmd) (s e0 m : Nat) : Option (List (Nat × EncClass × FV)) :=
  match b.colNode x c s e0 m (treeLevels x.members.length) 0, b.colFinite x c s e0 m with
  | some vs, some fs => some ((vs.zip fs).map (fun p =>
      let e := c.colOut.enc p.1
      (e.1, if !p.1.isFin && !p.1.isNan && !p.2.isZero then .satInf else e.2, p.1)))
  | _, _ => none

/-- The bytes of an output or move chunk, with what its census is made of. [log 86 DEDUCED] -/
def Block.colData (b : Block) (x : Coll) (c : Cmd) (k : CKey) : Option (List Byte × List (Nat × EncClass × FV)) :=
  if c.isFlag then
    -- the result, from the root here or from a neighbour on the path
    match b.memberAt x 0 with
    | some _ => (b.colNode x c 0 0 1 (treeLevels x.members.length) 0).map (fun vs => (f32Bytes vs, []))
    | none => (x.parts.find? (fun p => p.1.vl = 2)).map (fun p => (p.2, []))
  else if c.isReduce then
    match b.memberAt x k.shard with
    | some _ =>
      let e0 := k.off / c.colOutW
      let m := Nat.min (2048 / c.colOutW) (c.colOutShard / c.colOutW - e0)
      -- an output chunk may span two node chunks of 512 elements
      let parts := (List.range (ceilDiv m 512)).map (fun j => b.colRootOut x c k.shard (e0 + 512 * j) (Nat.min 512 (m - 512 * j)))
      if parts.all (·.isSome) then
        let es := (parts.map (fun p => p.getD [])).flatten
        some ((es.map (fun e => leBytes c.colOutW e.1)).flatten, es)
      else none
    | none => (x.part k).map (fun bs => (bs, (List.range (bs.length / c.colOutW)).map (fun j =>
        let code := leNat ((bs.drop (c.colOutW * j)).take c.colOutW)
        let v := c.colOut.decode code
        (code, (c.colOut.enc v).2, v))))
  else
    match b.memberAt x k.shard with
    | some h =>
      let base := if c.pkt.opcode = 0x0904 then k.node * c.colShard else 0
      (b.colSrc c h (base + k.off) (Nat.min 2048 (c.colShard - k.off))).map (fun bs => (bs, []))
    | none => (x.part k).map (fun bs => (bs, []))

/-- The bytes of a datum to send. -/
def Block.colSendData (b : Block) (x : Coll) (c : Cmd) (k : CKey) : Option (List Byte) :=
  if k.vl = 1 then
    let e0 := k.off / 4
    let m := if c.isFlag then 1 else Nat.min 512 (c.colShard / c.colInW - e0)
    (b.colNode x c k.shard e0 m k.level k.node).map f32Bytes
  else (b.colData x c k).map (·.1)

/-! ### Admission (R369, R374) -/

def Block.coll (b : Block) (cmd : Nat) : Option Coll := b.fab.colls.find? (fun x => x.cmd = cmd)
def Block.setColl (x : Coll) (b : Block) : Block :=
  { b with fab.colls := b.fab.colls.map (fun y => if y.cmd = x.cmd then x else y) }

def Coll.isHeld (x : Coll) : Bool := x.hold ≠ 0 && !x.startable

/-- The first failing check of R374. [log 91 DEDUCED] -/
def Block.collRefusal (b : Block) (c : Cmd) : Option (Nat × Nat) :=
  let bad := Status.badParam
  match b.tree c.colTree with
  | none => some (1, bad)
  | some t =>
    let n := t.members.length
    let hs := b.hostedMembers t.members
    if b.fab.primary.isNone ∨ hs.isEmpty then some (1, bad)
    else if c.colHold = 3 ∨ (!c.isFlag ∧ (c.colShard = 0 ∨ c.colShard % 128 ≠ 0 ∨
        (!c.isReduce ∧ (c.pkt.f 213 211 ≠ 0)) ∨ (if c.pkt.opcode = 0x0903 then n ≤ c.colRoot else c.colRoot ≠ 0))) then
      some (2, bad)
    else if c.colHold ≠ 0 ∧ (b.fab.colls.any (fun x => x.isHeld && x.hold = c.colHold && x.tag = c.colTag) ∨
        256 ≤ (b.fab.colls.filter Coll.isHeld).length) then some (3, bad)
    else if c.isFlag then (if b.stepIsOpen then none else some (6, bad))
    else
      let ranges := (hs.map (fun h =>
        (if c.pkt.opcode = 0x0903 && h.2 ≠ c.colRoot then [] else [(c.srcDa h.1, c.srcLen n)]) ++
          [(c.dstDa h.1, c.dstLen n)])).flatten ++ (if c.colCensus = 0 then [] else [(c.colCensus, 64)])
      if ranges.any (fun r => r.1 % 64 ≠ 0 || localStatus r.1 r.2 = some bad) then some (4, bad)
      else if ranges.any (fun r => (localStatus r.1 r.2).isSome) then some (5, Status.addrUnmapped)
      else none

/-- The pairs of a hosted member and another module's member that exchange data. -/
def Block.colPartners (b : Block) (x : Coll) (c : Cmd) : List (Nat × Nat) :=
  ((c.colEdges x.members.length).filterMap (fun (e : Nat × Nat × CKey) =>
    match b.memberAt x e.1, b.memberAt x e.2.1 with
    | some _, none => some (e.1, e.2.1)
    | none, some _ => some (e.2.1, e.1)
    | _, _ => none)).eraseDups

def Coll.rank (x : Coll) (i : Nat) : Nat := x.members.getD i 0

def Coll.msg (x : Coll) (kind fromM toM vl : Nat) : Msg :=
  { Msg.zero with kind := kind, src := x.rank fromM, dest := x.rank toM, vl := vl, tree := x.tree, seq := x.seq }

/-- End a collective: its state is dropped, its command completes, its Tally transfer ends. -/
def Block.collEnd (x : Coll) (st detail result : Nat) (b : Block) : Block :=
  let b := { b with fab.colls := b.fab.colls.filter (fun y => y.cmd ≠ x.cmd),
                    fab.reqs := b.fab.reqs.filter (fun r => match r.2.2 with | .coll id _ => id ≠ x.cmd | _ => true) }
  (b.tallyEnd 4 x.tree x.cmd (decide (statusClass st ≤ 1))).completeId x.cmd st detail result

/-- End it and send COLL_ABORT to the members it exchanges data with (R375). [log 92 DEDUCED] -/
def Block.collAbort (x : Coll) (st detail : Nat) (b : Block) : Block :=
  match b.cmd x.cmd with
  | none => b
  | some c =>
    let b := if !x.started then b else (b.colPartners x c).foldl (fun b p =>
      b.post { x.msg Kind.collAbort p.1 p.2 1 with rval := st } none) b
    b.collEnd x st detail 0

/-! ### Progress -/

/-- Send what may leave now (R369, R371): data whose receiver's COLL_START has come; with RCTR_EN the last datum for a member
carries ADD 1 and waits for the others' acknowledgements. -/
def Block.collSends (x : Coll) (c : Cmd) (b : Block) : Block :=
  let edges := (c.colEdges x.members.length).filter (fun (e : Nat × Nat × CKey) =>
    (b.memberAt x e.1).isSome && (b.memberAt x e.2.1).isNone)
  edges.foldl (fun (b : Block) (e : Nat × Nat × CKey) =>
    match b.coll x.cmd with
    | none => b
    | some y =>
      if y.sent.contains (e.2.1, e.2.2) || !y.starts.contains e.2.1 then b
      else
        let left := edges.filter (fun (d : Nat × Nat × CKey) => d.2.1 = e.2.1 && !y.sent.contains (d.2.1, d.2.2))
        let last := !c.isFlag && bit c.pkt.pnum 194 && decide (left.length ≤ 1)
        if last && y.out.contains (y.rank e.2.1) then b
        else
          match b.colSendData y c e.2.2 with
          | none => b
          | some bs =>
            let k := e.2.2
            let m := { y.msg Kind.collData e.1 e.2.1 k.vl with
              length := bs.length, offset := k.off, shard := k.shard, level := k.level, node := k.node, data := bs,
              rop := if last then 1 else 0, rval := if last then 1 else 0, rctr := if last then c.pkt.f 193 181 else 0 }
            (b.setColl { y with sent := (e.2.1, k) :: y.sent, out := y.rank e.2.1 :: y.out }).post m
              (some (.coll x.cmd (y.rank e.2.1)))) b

/-- The COLL_START of every member it exchanges data with has come, each with the same digest: only then is anything written
(R369). [log 92 DEDUCED] -/
def Block.collMet (b : Block) (x : Coll) (c : Cmd) : Bool := (b.colPartners x c).all (fun p => x.starts.contains p.2)

/-- Write the outputs whose values are known (R372). [log 87, 92 DEDUCED] -/
def Block.collOuts (x : Coll) (c : Cmd) (b : Block) : Block :=
  if !b.collMet x c then b
  else (b.colOuts c x.members).foldl (fun (b : Block) (o : Nat × Nat × CKey × Nat) =>
    match b.coll x.cmd with
    | none => b
    | some y =>
      if y.written.contains (o.2.1, o.2.2.1) then b
      else
        match b.colData y c o.2.2.1 with
        | none => b
        | some (bs, es) =>
          if b.writeWaits o.2.2.2 bs.length then b
          else
            let cs := if c.isReduce then censusOf (es.map (·.2.1)) (es.map (·.2.2)) else Census.empty
            let inf := c.isReduce && es.any (fun e => !(c.colOut.decode e.1).isFin)
            -- the command is one operation (R178)
            let cs := if y.census.updates = 0 then cs else { cs with updates := 0 }
            let b := b.setColl { y with written := (o.2.1, o.2.2.1) :: y.written, census := y.census.add cs }
            let b := if inf then (b.acquire x.cmd Status.nonfinite).clearLocal 0xFFFFFE else b
            let b := if 0 < cs.sat then b.acquire x.cmd Status.saturated else b
            b.cmdWrite x.cmd o.2.2.2 bs (fun b => b.tallyData 4 x.tree x.cmd o.2.2.2 bs)) b

/-- RCTR at hosted members for which this module has data, a member's own shard among them, once everything is written (R367,
R368). [log 87 DEDUCED] -/
def Block.collLocalRctr (x : Coll) (c : Cmd) (b : Block) : Block :=
  if c.isFlag || !bit c.pkt.pnum 194 then b
  else
    let own := (b.colOuts c x.members).filter (fun (o : Nat × Nat × CKey × Nat) => (b.memberAt x o.2.2.1.shard).isSome)
    ((own.map (fun (o : Nat × Nat × CKey × Nat) => o.2.1)).eraseDups).foldl (fun b _ => b.issueAdd (c.pkt.f 193 181) 216 1) b

/-- Everything is written, sent and acknowledged: the command completes (R372, R373, R375). [log 88 DEDUCED] -/
def Block.collFinish (x : Coll) (c : Cmd) (b : Block) : Block :=
  let allSent := (c.colEdges x.members.length).all (fun (e : Nat × Nat × CKey) =>
    (b.memberAt x e.1).isNone || (b.memberAt x e.2.1).isSome || x.sent.contains (e.2.1, e.2.2))
  let allOut := (b.colOuts c x.members).all (fun (o : Nat × Nat × CKey × Nat) => x.written.contains (o.2.1, o.2.2.1))
  if !allSent || !allOut || !x.out.isEmpty then b
  else if c.isFlag then
    match b.colData x c { vl := 2, shard := 0, level := 0, node := 0, off := 0 } with
    | none => b
    | some (bs, _) =>
      if (match b.train.table with | some t => b.writeWaits t.1 128 | none => false) then b
      else
        let b := b.writeCombined (leNat bs ≠ 0)
        b.collEnd x Status.ok 0 (bits b.stepRec 431 430)
  else
    let result := fields [(32, x.seq), (0, Nat.min (b.now - x.startSc) (2 ^ 32 - 1))]
    if !c.isReduce || c.colCensus = 0 then (b.collLocalRctr x c).collEnd x Status.ok 0 result
    else if b.writeWaits c.colCensus 64 then b
    else
      (b.collLocalRctr x c).cmdWrite x.cmd c.colCensus (leBytes 64 x.census.toNat) (fun b => b.collEnd x Status.ok 0 result)

/-- An uncorrectable source ends a collective (R375). -/
def Block.collSources (x : Coll) (c : Cmd) (b : Block) : Block :=
  if c.isFlag then b
  else
    (b.hostedMembers x.members).foldl (fun (b : Block) (h : Nat × Nat) =>
      if (b.coll x.cmd).isNone || (c.pkt.opcode = 0x0903 && h.2 ≠ c.colRoot) then b
      else
        match b.badWord (c.srcDa h.1) (c.srcLen x.members.length) with
        | some _ => ((b.collAbort x Status.memUncorrectable 0).daRead (c.srcDa h.1) (c.srcLen x.members.length)).2
        | none => b) b

/-- A started collective goes on as far as it can. [log 89 DEDUCED] -/
def Block.collPump (id : Nat) (b : Block) : Block :=
  let step (f : Coll → Cmd → Block → Block) (b : Block) : Block :=
    match b.coll id, b.cmd id with
    | some x, some c => if x.started then f x c b else b
    | _, _ => b
  step Block.collFinish (step Block.collSends (step Block.collOuts (step Block.collSources b)))

/-- Start the collectives that may start: at most 16 run, in the order in which they became startable (R369). -/
def Block.collKick : Nat → Block → Block
  | 0, b => b
  | fuel + 1, b =>
    if 16 ≤ (b.fab.colls.filter (·.started)).length then b
    else
      let next := (b.fab.colls.filter (fun x => x.startable && !x.started)).foldl (fun (a : Option Coll) x =>
        match a with
        | none => some x
        | some y => if x.order < y.order then some x else some y) none
      match next with
      | none => b
      | some x =>
        match b.cmd x.cmd with
        | none => b
        | some c =>
          let b := b.setColl { x with started := true, startSc := b.now }
          let b := (b.colPartners x c).foldl (fun b p =>
            b.post { x.msg Kind.collStart p.1 p.2 1 with rval := x.digest } (some (.coll x.cmd (x.rank p.2)))) b
          (b.collPump x.cmd).collKick fuel

/-- Every collective goes on: used where a page's protection has ended or a slot is free. -/
def Block.collRetry (b : Block) : Block :=
  ((b.fab.colls.map (·.cmd)).foldl (fun b id => b.collPump id) b).collKick 17

/-- Admission of a collective or FLAG_COMBINE (R369). -/
def Block.startColl (c : Cmd) (b : Block) : Block :=
  match b.collRefusal c with
  | some (n, st) => b.refuse c st n
  | none =>
    match b.tree c.colTree with
    | none => b
    | some t =>
      let rel := b.fab.releases.find? (fun r => r.kind = c.colHold && r.arg = c.colTag)
      let go := c.colHold = 0 || rel.isSome
      let x : Coll := {
        cmd := c.id, op := c.pkt.opcode, tree := t.num, members := t.members, seq := t.seq,
        digest := c.colDigest t.members.length, hold := c.colHold, tag := c.colTag, timeout := c.colTimeout, startable := go,
        started := false, startSc := 0, order := b.fab.nextOrder, flag := bit b.stepRec stepLocalBit, starts := [], parts := [],
        sent := [], out := [], written := [], census := Census.empty }
      let b := { b with
        fab.trees := b.fab.trees.map (fun (y : TreeDef) => if y.num = t.num then { y with seq := (y.seq + 1) % 2 ^ 32 } else y),
        fab.colls := b.fab.colls ++ [x], fab.nextOrder := b.fab.nextOrder + 1 }
      let b := if c.isFlag then { b with train.flagged := true } else b.tallyStart 4 t.num c.id
      let b := match (if c.colHold = 0 then none else rel) with
        | some r => ({ b with fab.releases := b.fab.releases.erase r }).logYield Status.eventLate r.tag (b.now - r.due) 1 4 15 r.kind 0
        | none => b
      b.collKick 17

/-- A release event: starts its held collective, or is recorded; none where 256 are recorded (R369). -/
def Block.collRelease (kind arg tag due : Nat) (b : Block) : Option Block :=
  match b.fab.colls.find? (fun x => x.isHeld && x.hold = kind && x.tag = arg) with
  | some x =>
    some (({ (b.setColl { x with startable := true, order := b.fab.nextOrder }) with
      fab.nextOrder := b.fab.nextOrder + 1 }).collKick 17)
  | none =>
    if 256 ≤ b.fab.releases.length then none
    else some { b with fab.releases := b.fab.releases ++ [{ kind := kind, arg := arg, due := due, tag := tag }] }

/-! ### Messages (R369, R375) -/

/-- The collective a message belongs to; `none` with false where it is over, with true where it is still to come. -/
def Block.collOf (b : Block) (m : Msg) : Option Coll × Bool :=
  match b.fab.colls.find? (fun x => x.tree = m.tree && x.seq = m.seq) with
  | some x => (some x, false)
  | none =>
    match b.tree m.tree with
    | some t => (none, decide (0 ≤ sx 32 (m.seq + 2 ^ 32 - t.seq)))
    | none => (none, true)

/-- A message of a collective that is over is dropped; of one to come it waits. [log 89 DEDUCED] -/
def Block.collMsg (kind src no : Nat) (go : Coll → Msg → Block → Block) (b : Block) : Block :=
  match b.inMsg kind src no with
  | none => b
  | some m =>
    match b.collOf m with
    | (some x, _) => go x m b
    | (none, true) => b
    | (none, false) => b.dropMsg m

def Block.collStartMsg (src no : Nat) (b : Block) : Block :=
  b.collMsg Kind.collStart src no (fun x m b =>
    let b := b.dropMsg m
    let i := x.members.findIdx (· = m.src)
    if m.rval ≠ x.digest then ((b.collEnd x Status.badParam i 0)).collKick 17
    else (b.setColl { x with starts := i :: x.starts.filter (· ≠ i) }).collPump x.cmd)

/-- Data arrives: added, forwarded or written; ROP and the acknowledgement follow once an output is written. [log 92 DEDUCED] -/
def Block.collDataMsg (src no : Nat) (b : Block) : Block :=
  b.collMsg Kind.collData src no (fun x m b =>
    match b.cmd x.cmd with
    | none => b.dropMsg m
    | some c =>
      let k : CKey := { vl := m.vl, shard := m.shard, level := m.level, node := m.node, off := m.offset }
      let outs := (b.colOuts c x.members).filter (fun (o : Nat × Nat × CKey × Nat) => o.2.2.1 = k)
      if !outs.isEmpty && !b.collMet x c || outs.any (fun o => b.writeWaits o.2.2.2 m.data.length) then b
      else
        let b := (b.dropMsg m).setColl { x with parts := x.parts ++ [(k, m.data)] }
        (((b.collPump x.cmd).applyRop m).ackMsg m true).collKick 17)

def Block.collAbortMsg (src no : Nat) (b : Block) : Block :=
  b.collMsg Kind.collAbort src no (fun x m b => ((b.dropMsg m).collEnd x Status.rankLost (m.src + 2 ^ 16) 0).collKick 17)

/-- A COLL_DATA is acknowledged, or its rank cannot be reached (R375). -/
def Block.collAck (id rank : Nat) (b : Block) : Block :=
  match b.coll id with
  | some x => ((b.setColl { x with out := x.out.erase rank }).collPump id).collKick 17
  | none => b

def Block.collUnreach (id rank : Nat) (b : Block) : Block :=
  match b.coll id with
  | some x => (b.collAbort x Status.rankLost rank).collKick 17
  | none => b

/-- The first rank awaited: COLL_START, data or an acknowledgement of it is missing; in member order. -/
def Block.collAwaited (x : Coll) (c : Cmd) (b : Block) : Nat :=
  let missing (i : Nat) : Bool :=
    (b.colPartners x c).any (fun p => p.2 = i) &&
    (!x.starts.contains i || x.out.contains (x.rank i) ||
      (c.colEdges x.members.length).any (fun (e : Nat × Nat × CKey) =>
        e.1 = i && (b.memberAt x e.2.1).isSome && (x.part e.2.2).isNone))
  x.rank (((List.range x.members.length).find? missing).getD 0)

/-- COLL_TIMEOUT of a tree's collective (R375). -/
def Block.collTimeout (tree seq : Nat) (b : Block) : Block :=
  match b.fab.colls.find? (fun x => x.tree = tree && x.seq = seq) with
  | none => b
  | some x =>
    match b.cmd x.cmd with
    | none => b
    | some c =>
      if !x.started || x.timeout = 0 || decide (b.now - x.startSc < x.timeout) then b
      else
        let r := b.collAwaited x c
        let shut := (List.range 8).any (fun m => (b.port m).peerShutter && ((b.port m).peerRank = r || (b.port m).peerHosted.contains r))
        (b.collAbort x Status.rankLost (r + 2 ^ 17 * b2n shut)).collKick 17

def execCollStart (src no : Nat) (s : State) : Host.Outcome State Fault Refusal := s.run (Block.collStartMsg src no)
def execCollData (src no : Nat) (s : State) : Host.Outcome State Fault Refusal := s.run (Block.collDataMsg src no)
def execCollAbort (src no : Nat) (s : State) : Host.Outcome State Fault Refusal := s.run (Block.collAbortMsg src no)
def execCollTimeout (tree seq : Nat) (s : State) : Host.Outcome State Fault Refusal := s.run (Block.collTimeout tree seq)

end Sys2Proof.Machine
end

