-- ==== Sys2Proof/Machine/MemCmd.lean ====
section
/-!
DEFINITION. The commands and events of stacked memory (spec/10): MEM_FILL, SCRUB_CFG, DOMAIN_SET, patrol, migration,
re-encryption walks and stack temperatures.
-/

namespace Sys2Proof.Machine

/-! ### MEM_FILL and SCRUB_CFG (R266, R267) -/

def Block.startMemFill (c : Cmd) (b : Block) : Block :=
  let da := c.pkt.f 255 204
  let n := c.pkt.f 203 152
  let pat := leBytes 8 (c.pkt.f 151 88)
  if da % 64 ≠ 0 ∨ n = 0 ∨ n % 64 ≠ 0 then b.refuse c Status.badParam 0
  else if !inHbm da n then b.refuse c Status.addrUnmapped 0
  else if (pagesOf da n).any (fun g =>
      let a := b.attr g
      attrClass a = 4 || attrWp a || attrCodec a || attrClass a = 2 || attrClass a = 3) then b.refuse c Status.badParam 0
  else b.cmdWrite c.id da ((List.replicate (n / 8) pat).flatten) (fun b => b.done c n)

def Block.startScrubCfg (c : Cmd) (b : Block) : Block :=
  let n := c.pkt.f 127 112
  if n < 256 then b.refuse c Status.badParam 0
  else ({ b with mem.passEpochs := n, mem.patrolEn := bit c.pkt.pnum 111 }).done c 0

/-! ### DOMAIN_SET (R255) -/

/-- The first failing check of a DOMAIN_SET, as the DETAIL. -/
def Block.domainFault (c : Cmd) (b : Block) : Option Nat :=
  let da := c.pkt.f 255 204
  let n := c.pkt.f 203 172
  if da % 0x10000 ≠ 0 ∨ n = 0 ∨ c.pkt.f 171 168 = 15 ∨ 4 ≤ c.pkt.f 167 165 then some 0xFFFFFFFF
  else if hbmTop < da + 0x10000 * n then some (Nat.max (pageOf da) (pageOf hbmTop))
  else ((List.range n).map (· + pageOf da)).find? (fun g =>
    let a := b.attr g
    attrClass a = 4 || attrWp a || attrCodec a)

/-- DOMAIN_SET: DISCARD takes effect at once, MOVE starts a walk of the new domain's walker. -/
def Block.startDomainSet (c : Cmd) (b : Block) : Block :=
  match b.domainFault c with
  | some d => b.refuse c Status.badParam d
  | none =>
    let g0 := pageOf (c.pkt.f 255 204)
    let n := c.pkt.f 203 172
    let dom := c.pkt.f 171 168
    let cls := c.pkt.f 167 165
    let pages := (List.range n).map (· + g0)
    if bit c.pkt.pnum 164 then
      let w : Walk := {
        domain := dom, cmd := c.id, touches := (dom :: pages.map (fun g => attrDomain (b.attr g))).eraseDups, pos := g0,
        last := g0 + n, gran := 0, move := some (dom, cls), old := none }
      { b with mem.walks := b.mem.walks ++ [w] }
    else
      (pages.foldl (fun b g => b.zeroPage g (mkAttr dom cls true false false)) b).done c 0

/-! ### Handling the words of a granule by the read path (R259) -/

/-- Read the 64-byte blocks of a populated granule as a background reader does: the block, and the DAs that could not be
read. `retryOk` says that the retries of an uncorrectable word give a good read; `perm` that the test of R261 finds a
permanent fault. [log 50, 55 DEDUCED] -/
def Block.sweep (da : Nat) (retryOk perm : Bool) (b : Block) : Block × List Nat :=
  if b.allClean then (b, []) else
  (List.range 32).foldl (fun (acc : Block × List Nat) i =>
    let x := da + 64 * i
    match acc.1.badWord x 64 with
    | some w =>
      if retryOk && !acc.1.isPoisoned w && decide ((acc.1.pc (acc.1.home x).1).st ≠ .fenced) then
        ({ acc.1 with mem.errs := (wordsOf x 64).foldl (fun m w => m.set 0 w 0) acc.1.mem.errs,
                      mem.ceCount := satInc 32 acc.1.mem.ceCount }, acc.2)
      else (acc.1.memFaultWith perm w, acc.2 ++ [x])
    | none => (acc.1.scrubRange x 64, acc.2)) (b, [])

/-! ### Patrol (R267) -/

/-- The DA that place() sends to a pseudo-channel and location (R249). -/
def unplace (p loc : Nat) : Option Nat :=
  if 1220704 ≤ loc ∨ 768 ≤ p then none else
  let h := p / 32
  let j' := 24 * (p % 32) + 4 * (h % 6) + h / 6
  let j := (j' + 768 * 7 - 7 * loc % 768) % 768
  let da := 2048 * (768 * loc + j)
  if da + 2048 ≤ hbmTop then some da else none

/-- The DA whose home is a pseudo-channel and location, by undoing the retirements (R263). -/
def Block.unhome (b : Block) : Nat → Nat → Nat → Option Nat
  | 0, _, _ => none
  | fuel + 1, p, loc =>
    if loc < 1220704 then unplace p loc
    else if 1233760 ≤ loc then none
    else
      let r := (loc - 1220704) / 1632 + 1
      match b.mem.retired[r - 1]? with
      | none => none
      | some x =>
        let gone := b.mem.retired.take r
        let live := (List.range 768).filter (fun q => !gone.contains q)
        if live.contains p then b.unhome fuel x ((loc - 1220704) % 1632 * (768 - r) + live.idxOf p) else none

/-- The populated DA stored at a location now. -/
def Block.daAt (b : Block) (p loc : Nat) : Option Nat :=
  match b.unhome 10 p loc with
  | some da => if b.home da = (p, loc) then some da else none
  | none => none

/-- Are the stacks powered: from MERLEN_INIT on (R268, R269, R483)? -/
def Block.stacksUp (b : Block) : Bool := b.hubUp && decide (5 ≤ b.boot.phase.code) && b.boot.phase ≠ Phase.locked

/-- PATROL_SCRUB: the patrol, which pauses in Stow (R468), reads a location of an ACTIVE or DEGRADED pseudo-channel. `upsets` are errors that the cells
have taken since the last read: word of the granule and pattern. [log 1 DESIGN CHOICE] -/
def Block.patrol (p loc : Nat) (upsets : List (Nat × Nat)) (retryOk perm : Bool) (b : Block) : Block :=
  let st := (b.pc p).st
  if !b.stacksUp || b.pow.sleep = Sleeping.asleep 2 then b
  else if (!b.mem.patrolEn && !b.shut.shut) || 768 ≤ p || 1233824 ≤ loc || (st ≠ .active && st ≠ .degraded) then b
  else
    let b := match b.daAt p loc with
      | none => b
      | some da =>
        if attrZeroed (b.attr (pageOf da)) then b else
        let b := { b with mem.errs := upsets.foldl (fun (m : Sparse Nat) (u : Nat × Nat) =>
          m.upd 0 (da / 16 + u.1 % 128) (fun e => e ^^^ (u.2 % 2 ^ 144))) b.mem.errs }
        (b.sweep da retryOk perm).1
    let n := b.mem.patrolled + 1
    let live := 768 - (b.mem.pcs.filter (fun (e : Nat × Pc) => e.2.st ≠ .active && e.2.st ≠ .degraded)).length
    if live * 1233824 ≤ n then { b with mem.patrolled := 0, mem.scrubPasses := (b.mem.scrubPasses + 1) % 2 ^ 32 }
    else { b with mem.patrolled := n }

/-! ### Migration (R262, R264) -/

/-- MIGRATION_COPY: the next location of the migrating pseudo-channel. In Shutter the migration pauses. [log 50 DEDUCED] -/
def Block.migrationCopy (b : Block) : Block :=
  match b.migrating with
  | none => b
  | some x =>
    let loc := b.mem.migNext
    if b.shut.shut || 1233760 ≤ loc then b
    else if b.mem.migrated.contains loc then
      { b with mem.migNext := loc + 1, mem.migrated := b.mem.migrated.filter (· ≠ loc) }
    else
      let r := match b.daAt x loc with
        | some da => if attrZeroed (b.attr (pageOf da)) then (b, []) else b.sweep da false false
        | none => (b, [])
      { r.1 with mem.migNext := loc + 1, mem.migPoison := b.mem.migPoison ++ r.2 }

/-- The list record of the blocks a migration poisoned: its length in DETAIL, then LIST entries of four (R264, R445).
[log 50 DEDUCED] -/
def Block.logMigration (x : Nat) (b : Block) : Block :=
  let l := b.mem.migPoison
  let b := b.logError Status.memUncorrectable 2 x l.length 0
  (List.range (ceilDiv l.length 4)).foldl (fun b i =>
    b.logEntry {
      sc := 0, seq := 0, status := Status.memUncorrectable, kind := 4, almanac := false, unit := 2, index := x, detail := 0,
      info := 0, body := fields ((List.range 4).map (fun j => (64 * j, l.getD (4 * i + j) 0))) }) b

/-- MIGRATION_DONE: RETIRED; the Almanac changes; running commands acquire PC_RETIRED; a queued migration starts. -/
def Block.migrationDone (b : Block) : Block :=
  match b.migrating with
  | none => b
  | some x =>
    if b.shut.shut || b.mem.migNext < 1233760 then b
    else
      let b := b.setPc x { b.pc x with st := .retired }
      let b := b.almanacChange Status.pcRetired 2 x 0 0
      let b := { b with mer.running := b.mer.running.map (fun (c : Cmd) => { c with acq := c.acq ++ [Status.pcRetired + loggedMark] }) }
      let b := if b.mem.migPoison.isEmpty then b else b.logMigration x
      let b := { b with mem.migNext := 0, mem.migrated := [], mem.migPoison := [] }
      match b.mem.migQueue with
      | [] => b
      | y :: rest =>
        if b.mem.retired.length < 8 then
          { (b.setPc y { b.pc y with st := .migrating }) with mem.migQueue := rest, mem.retired := b.mem.retired ++ [y] }
        else (b.mem.migQueue.foldl (fun b z => b.fence z) { b with mem.migQueue := [] })

/-! ### Re-encryption walks (R255, R258) -/

/-- The walk a domain's walker runs: the first of its own with no earlier walk on a domain it touches. -/
def Block.activeWalk (b : Block) (d : Nat) : Option Walk :=
  match b.mem.walks.find? (fun w => w.domain = d) with
  | none => none
  | some w =>
    if (b.mem.walks.takeWhile (fun v => v.cmd ≠ w.cmd)).any (fun v => v.touches.any w.touches.contains) then none else some w

/-- The next page of a walk: of a MOVE every page of its range, of a rotation the pages of its domain. -/
def Block.walkPage (b : Block) (w : Walk) : Option Nat :=
  ((List.range (w.last - w.pos)).map (· + w.pos)).find? (fun g => w.move.isSome || attrDomain (b.attr g) = w.domain)

def Block.setWalk (w : Walk) (b : Block) : Block :=
  { b with mem.walks := b.mem.walks.map (fun v => if v.cmd = w.cmd then w else v) }

/-- WALKER_GRANULE: one granule is read under OLD and written under NEW; with the last granule of a page a MOVE gives the
page its new domain and class. In Shutter a walk pauses. [log 13 DESIGN CHOICE; 55 DEDUCED] -/
def Block.walkerGranule (d : Nat) (b : Block) : Block :=
  match b.activeWalk d with
  | none => b
  | some w =>
    if b.shut.shut then b else
    match b.walkPage w with
    | none => b
    | some g =>
      let w := if g = w.pos then w else { w with pos := g, gran := 0 }
      let da := g * 0x10000 + 2048 * w.gran
      let b := if attrZeroed (b.attr g) then b else (b.sweep da false false).1
      if w.gran < 31 then b.setWalk { w with gran := w.gran + 1 }
      else
        let b := b.setWalk { w with pos := g + 1, gran := 0 }
        match w.move with
        | some (dom, cls) =>
          let a := b.attr g
          b.setAttr g (mkAttr dom cls (attrZeroed a) (attrWp a) (attrCodec a))
        | none => b

/-- WALK_DONE: nothing is left to walk: OLD is destroyed and the command completes. -/
def Block.walkDone (d : Nat) (b : Block) : Block :=
  match b.activeWalk d with
  | none => b
  | some w =>
    if b.shut.shut || (b.walkPage w).isSome then b
    else ({ b with mem.walks := b.mem.walks.filter (fun v => v.cmd ≠ w.cmd) }).completeId w.cmd Status.ok 0 0

/-! ### Stack temperature (R269) -/

/-- The zone after a sample: a zone is left downwards once the temperature has fallen to 3 °C below its lower bound.
[log 113 DEDUCED] -/
def zoneOf (old temp : Nat) : Nat :=
  let up := if 95 ≤ temp then 2 else if 85 ≤ temp then 1 else 0
  if old ≤ up then up
  else if old = 2 then (if 93 ≤ temp then 2 else if 83 ≤ temp then 1 else 0)
  else if 83 ≤ temp then 1 else 0

/-- [log 113 DEDUCED] -/
def Block.memTemp (h temp : Nat) (b : Block) : Block :=
  if 24 ≤ h || !b.stacksUp then b
  else
    let old := b.mem.temps.get (0, 0, 0) h
    let t := Nat.min temp 255
    { b with mem.temps := b.mem.temps.set (0, 0, 0) h (t, 1, zoneOf old.2.2 t) }

/-! ### Meanings of the rows -/

def execMemTempSample (h temp : Nat) (s : State) : Host.Outcome State Fault Refusal := s.run (Block.memTemp h temp)
def execPatrolScrub (p loc : Nat) (upsets : List (Nat × Nat)) (retryOk perm : Bool) (s : State) :
    Host.Outcome State Fault Refusal := s.run (Block.patrol p loc upsets retryOk perm)
def execMigrationCopy (s : State) : Host.Outcome State Fault Refusal := s.run Block.migrationCopy
def execMigrationDone (s : State) : Host.Outcome State Fault Refusal := s.run Block.migrationDone
def execWalkerGranule (d : Nat) (s : State) : Host.Outcome State Fault Refusal := s.run (Block.walkerGranule d)
def execWalkDone (d : Nat) (s : State) : Host.Outcome State Fault Refusal := s.run (Block.walkDone d)

end Sys2Proof.Machine
end

