-- ==== Sys2Proof/Machine/Tier.lean ====
section
/-!
DEFINITION. The tier mover (spec/12): DMA_COPY, OFFLOAD and PREFETCH from their checks to their commit, envelopes, windows,
grants, and the answers of host memory and peers.
-/

namespace Sys2Proof.Machine

/-! ### Parameters (R296) -/

def Cmd.tSrc (c : Cmd) : Nat := c.pkt.f 511 460
def Cmd.tDst (c : Cmd) : Nat := c.pkt.f 459 408
def Cmd.tLen (c : Cmd) : Nat := c.pkt.f 407 368
def Cmd.tNotBefore (c : Cmd) : Nat := c.pkt.f 367 304
def Cmd.tDeadline (c : Cmd) : Nat := c.pkt.f 303 240
def Cmd.tFirst (c : Cmd) : Nat := c.pkt.f 239 208
def Cmd.tCount (c : Cmd) : Nat := c.pkt.f 207 176
def Cmd.tMap (c : Cmd) : Nat := c.pkt.f 175 170
def Cmd.tChannel (c : Cmd) : Nat := c.pkt.f 169 164
def Cmd.tPrio (c : Cmd) : Nat := c.pkt.f 163 162
def Cmd.tRelease (c : Cmd) : Bool := bit c.pkt.pnum 161
def Cmd.tEnc (c : Cmd) : Bool := bit c.pkt.pnum 160
def Cmd.tSet (c : Cmd) : Nat := c.pkt.f 159 144
def Cmd.isCopy (c : Cmd) : Bool := c.pkt.opcode = 0x0600
def Cmd.isOffload (c : Cmd) : Bool := c.pkt.opcode = 0x0601
def Cmd.isPrefetch (c : Cmd) : Bool := c.pkt.opcode = 0x0602

def isHost (da : Nat) : Bool := match regionOf da with | .host _ => true | _ => false
def isPeer (da : Nat) : Bool := match regionOf da with | .peer _ _ _ => true | _ => false

/-- Does the command write an envelope, or read one (R299 to R301)? -/
def Cmd.envOut (c : Cmd) : Bool := (c.isOffload && isHost c.tDst) || (c.isCopy && c.tEnc && isHost c.tDst)
def Cmd.envIn (c : Cmd) : Bool := (c.isPrefetch && isHost c.tSrc) || (c.isCopy && c.tEnc && isHost c.tSrc)

/-- Where the bytes come from: remote for PREFETCH and a DMA_COPY from the host or a peer. -/
def Cmd.inbound (c : Cmd) : Bool := c.isPrefetch || (c.isCopy && (isHost c.tSrc || isPeer c.tSrc))

/-- The path whose grants move the command (R295, R306): 0 host out, 1 host in, 2 fabric out, 3 fabric in, 4 HBM.
[log 63 DEDUCED] -/
def Cmd.tPath (c : Cmd) : Nat :=
  if c.inbound then (if isHost c.tSrc then 1 else 3)
  else if isHost c.tDst then 0 else if isPeer c.tDst then 2 else 4

/-! ### Checks (R297) -/

/-- The range of codec pages lies inside a map's view. -/
def Block.tierRange (b : Block) (c : Cmd) : Bool :=
  match b.mapNum c.tMap with
  | some m => decide (c.tFirst + c.tCount ≤ m.pages)
  | none => false

def Block.tierFault (b : Block) (c : Cmd) : Option (Nat × Nat) :=
  let bad := Status.badParam
  let remote (da : Nat) : Bool := isHost da || isPeer da
  let buffer := if c.isOffload then c.tDst else c.tSrc
  let side (da : Nat) : Bool := remote da || localPopulated da c.tLen
  if c.tSrc % 64 ≠ 0 ∨ c.tDst % 64 ≠ 0 ∨ c.tLen % 64 ≠ 0 ∨ (if c.isCopy then c.tLen < 64 else c.tCount = 0) then some (1, bad)
  else if c.tDeadline ≠ 0 ∧ c.tDeadline ≤ c.tNotBefore then some (2, bad)
  else if !c.isCopy && !b.tierRange c then some (3, bad)
  else if (if c.isCopy then c.tEnc && isHost c.tSrc == isHost c.tDst else !remote buffer) then some (4, bad)
  else if c.isOffload && isHost c.tDst && (match b.mapNum c.tMap with
      | some m => decide (c.tLen < 48 + m.setStartLen + 4112 * c.tCount)
      | none => false) then some (5, bad)
  else if c.isCopy && (!side c.tSrc || !side c.tDst) then some (6, Status.addrUnmapped)
  else if b.trust.job ≠ 0 && b.trust.sealedReq && c.isCopy && (isHost c.tSrc || isHost c.tDst) && !c.tEnc then some (7, bad)
  else none

/-- A tier command at its channel. Envelopes it will write take their counter now, in admission order (R302). -/
def Block.startTier (c : Cmd) (b : Block) : Block :=
  match b.tierFault c with
  | some (n, st) => b.refuse c st n
  | none =>
    let w : TierWork := {
      channel := c.tChannel, phase := .queued, ctr := if c.envOut then b.tier.ctr else 0, moved := 0, total := none,
      late := false, buf := [], waiting := 0, flushAsked := false, flushed := false }
    let b := if c.envOut then { b with tier.ctr := b.tier.ctr + 1 } else b
    (((b.setWork c.id (.tier w)).tallyStart 0 c.tChannel c.id).tallyStart 1 c.tChannel c.id)

/-! ### The course of a transfer (R298) -/

/-- The running tier commands of a channel in dispatch order. -/
def Block.tierQueue (b : Block) (ch : Nat) : List (Cmd × TierWork) :=
  b.mer.running.filterMap (fun c => match c.work with
    | .tier w => if w.channel = ch then some (c, w) else none
    | _ => none)

/-- The command at the head of a channel. -/
def Block.tierAt (b : Block) (ch : Nat) (ph : TierPhase) : Option (Cmd × TierWork) :=
  (b.tierQueue ch).head?.bind (fun x => if x.2.phase = ph then some x else none)

/-- Is a time base without time: NOT_BEFORE and DEADLINE are ignored (R298). -/
def Block.timeless (b : Block) : Bool := b.sid.state = .unset || b.sid.state = .lost

/-- Is a moving command late: SC has passed its DEADLINE (R298)? -/
def Block.tierLate (b : Block) (c : Cmd) (w : TierWork) : Bool :=
  w.late || (w.phase = .moving || w.phase = .commit) && c.tDeadline ≠ 0 && !b.timeless && decide (c.tDeadline < b.now)

/-- A command goes late (R298). -/
def Block.goLate (c : Cmd) (w : TierWork) (b : Block) : Block :=
  if w.late then b else
  { b.setWork c.id (.tier { w with late := true }) with tier.late := Nat.min (b.tier.late + 1) (2 ^ 32 - 1) }

/-- A tier command ends: Tally transfers commit or are discarded, then the completion; lateness shows as R298 says.
[log 61 DEDUCED] -/
def Block.tierEnd (id status detail result : Nat) (b : Block) : Block :=
  match b.cmd id with
  | none => b
  | some c =>
    match c.work with
    | .tier w =>
      let shown := showStatus ((c.acq ++ [status]).map (· % loggedMark))
      let ok := decide (statusClass shown ≤ 1)
      let b := (b.tallyEnd 0 w.channel id ok).tallyEnd 1 w.channel id ok
      let lateness := Nat.min (b.now - c.tDeadline) (2 ^ 32 - 1)
      let late := b.tierLate c w
      let b := if late then (b.goLate c w).logCmd c Status.windowMissed 4 w.channel lateness c.tSet else b
      if late && ok then (b.acquireLogged id Status.windowMissed).completeId id status lateness result
      else b.completeId id status detail result
    | _ => b

/-- Open pages of a command's range. -/
def Block.tierOpen (b : Block) (m : CMap) (c : Cmd) : List Nat :=
  ((List.range c.tCount).map (· + c.tFirst)).filter (fun v => (b.openSlot m v).isSome)

/-- TIER_HEAD: the command holds its pages; an OFFLOAD has its open pages closed (R299). [log 1 DESIGN CHOICE] -/
def Block.tierHead (ch : Nat) (b : Block) : Block :=
  match b.tierAt ch .queued with
  | none => b
  | some (c, w) =>
    let go (b : Block) : Block := b.setWork c.id (.tier { w with phase := .waiting })
    if !c.isOffload then go b
    else
      match b.mapNum c.tMap with
      | none => b.tierEnd c.id Status.badParam 3 0
      | some m =>
        let vs := b.tierOpen m c
        if vs.all (fun v => b.closable m v) then
          let r := b.closePages m vs
          go (r.2.foldl (fun b st => b.acquire c.id st) r.1)
        else b

/-- The set of an OFFLOAD as plaintext, when it starts to move: pages opened again since the head was reached close first,
once they may (R289). [log 60 DEDUCED] -/
def Block.tierBuild (c : Cmd) (w : TierWork) (b : Block) : Block :=
  if c.isOffload then
    match b.mapNum c.tMap with
    | none => b.tierEnd c.id Status.badParam 3 0
    | some m =>
      let vs := b.tierOpen m c
      if !vs.all (fun v => b.closable m v) then b else
      let r := b.closePages m vs
      let b := r.2.foldl (fun b st => b.acquire c.id st) r.1
      let b := ((List.range c.tCount).foldl (fun (b : Block) i => (b.scrubPage m (c.tFirst + i)).2) b)
      match b.recordSet m c.tFirst c.tCount with
      | .error (st, d, da) =>
        (if st = Status.memUncorrectable then b.memFault (da / 16) else b).tierEnd c.id st d 0
      | .ok bs => b.setWork c.id (.tier { w with
          phase := .moving, buf := bs, total := some (bs.length + (if c.envOut then 48 else 0)) })
  else
    b.setWork c.id (.tier { w with
      phase := .moving, total := if c.isPrefetch || c.envIn then none else some (c.tLen + (if c.envOut then 48 else 0)) })

/-- TIER_NOT_BEFORE. -/
def Block.tierNotBefore (ch : Nat) (b : Block) : Block :=
  match b.tierAt ch .waiting with
  | none => b
  | some (c, w) =>
    if c.tNotBefore = 0 || b.timeless || decide (c.tNotBefore ≤ b.now) then b.tierBuild c w else b

/-- TIER_DEADLINE (R305). [log 61 DEDUCED] -/
def Block.tierDeadline (ch : Nat) (b : Block) : Block :=
  match (b.tierQueue ch).head? with
  | none => b
  | some (c, w) =>
    if b.tierLate c w then b.goLate c w else b

/-! ### Moving bytes (R301, R302, R306) -/

/-- Is a command ready for a grant: bytes are left, and an inbound one has no read outstanding? [log 60 DEDUCED] -/
def Block.tierReady (b : Block) (c : Cmd) (w : TierWork) : Bool :=
  w.phase = .moving &&
    (match w.total with | some t => decide (w.moved < t) | none => decide (w.moved < c.tLen)) &&
    (!c.inbound || w.waiting = 0) &&
    (!c.isCopy || c.inbound || (!b.readWaits (c.tSrc + w.moved) 2048 &&
      (isHost c.tDst || isPeer c.tDst || !b.writeWaits (c.tDst + w.moved) 2048)))

/-- Does x go before y on a path (R306)? -/
def tierBefore (x y : Cmd × TierWork) : Bool :=
  let d (c : Cmd) : Nat := if c.tDeadline = 0 then 2 ^ 64 else c.tDeadline
  let kx := (b2n (!x.2.late), x.1.tPrio, d x.1, x.2.channel)
  let ky := (b2n (!y.2.late), y.1.tPrio, d y.1, y.2.channel)
  decide (kx.1 < ky.1) || (kx.1 = ky.1 && (decide (kx.2.1 < ky.2.1) || (kx.2.1 = ky.2.1 &&
    (decide (kx.2.2.1 < ky.2.2.1) || (kx.2.2.1 = ky.2.2.1 && decide (kx.2.2.2 < ky.2.2.2))))))

/-- The tier command that a path's next grant goes to, marked late if it is. [log 64 DESIGN CHOICE] -/
def Block.tierNext (b : Block) (path : Nat) : Option (Cmd × TierWork) :=
  ((((List.range 64).filterMap (fun ch => (b.tierQueue ch).head?)).filter (fun x =>
      decide (x.1.tPath = path) && b.tierReady x.1 x.2)).map (fun x => (x.1, { x.2 with late := b.tierLate x.1 x.2 }))).foldl
    (fun (a : Option (Cmd × TierWork)) x =>
      match a with
      | none => some x
      | some y => if tierBefore x y then some x else some y) none

/-- Bytes of a command reach a place at or after its destination: local memory, host memory or a peer window. The block, and
the status of a local write that failed. [log 62 DEDUCED] -/
def Block.tierPut (c : Cmd) (da : Nat) (bs : List Byte) (b : Block) : Block × Option Nat :=
  match regionOf da with
  | .host addr =>
    ({ b with tier.outBytes := (b.tier.outBytes + bs.length) % 2 ^ 64 }.emit (.hostWrite addr bs), none)
  | .peer ex rank off =>
    let b := b.post { Msg.zero with
      kind := Kind.peerWrite, src := b.primaryRank, dest := rank, vl := 7, length := bs.length, offset := off, exp := ex,
      data := bs } (some (.cmd c.id (da - c.tDst) bs.length))
    (b.setWork c.id (match b.cmd c.id with
      | some x => (match x.work with | .tier w => .tier { w with waiting := w.waiting + 1 } | y => y)
      | none => .none), none)
  | _ =>
    match b.daWrite da bs with
    | (b, some st) => if statusClass st ≤ 1 then (b.acquire c.id st, none) else (b, some st)
    | (b, none) => (b, none)

/-- Ask for the next bytes of an inbound command. -/
def Block.tierAsk (c : Cmd) (w : TierWork) (n : Nat) (b : Block) : Block :=
  let da := c.tSrc + w.moved
  let b := b.setWork c.id (.tier { w with moved := w.moved + n, waiting := w.waiting + 1 })
  match regionOf da with
  | .host addr => b.askHost addr n (.tier c.id w.moved n)
  | .peer ex rank off => b.post { Msg.zero with
      kind := Kind.readReq, src := b.primaryRank, dest := rank, vl := 7, length := n, offset := off, exp := ex }
      (some (.cmd c.id w.moved n))
  | _ => b

/-- The bytes [lo, hi) of the transfer an outgoing command writes: head, ciphertext and tag of an envelope, or plain bytes. -/
def Block.tierOut (b : Block) (c : Cmd) (w : TierWork) (len lo hi : Nat) : List Byte :=
  if !c.envOut then (w.buf.drop lo).take (hi - lo)
  else
    let key := b.trust.tierKey.getD 0
    let head := envHead c.tSet w.ctr len (if c.isOffload then 0 else 1)
    let ks := Config.gcmStream key (gcmIv b.trust.tierSalt w.ctr) len
    let ct := xorBytes w.buf ks
    let all := head ++ ct ++ (if w.buf.length = len then gcmTagBytes key b.trust.tierSalt w.ctr head ct else [])
    (all.drop lo).take (hi - lo)

/-- A grant of 2 KiB to a command whose source is local. -/
def Block.tierSend (c : Cmd) (w : TierWork) (b : Block) : Block :=
  let total := w.total.getD 0
  let n := Nat.min 2048 (total - w.moved)
  let len := if c.envOut then total - 48 else total
  let need := if c.envOut then Nat.min len (w.moved + n - 32) else w.moved + n
  let r : Acc × Block :=
    if c.isCopy ∧ w.buf.length < need then b.daRead (c.tSrc + w.buf.length) (need - w.buf.length) else (.ok [] false, b)
  match r with
  | (.fail st d _, b) => b.tierEnd c.id st d 0
  | (.ok more corrected, b) =>
    let b := if corrected then b.acquireLogged c.id Status.memCorrected else b
    let w1 := { w with buf := w.buf ++ more }
    let out := b.tierOut c w1 len w.moved (w.moved + n)
    let b := b.setWork c.id (.tier { w1 with moved := w.moved + n })
    match b.tierPut c (c.tDst + w.moved) out with
    | (b, some st) => b.tierEnd c.id st 0 0
    | (b, none) => b

/-- The tier part of PATH_GRANT. [log 65 DEDUCED] -/
def Block.tierGrant (path : Nat) (b : Block) : Block :=
  match b.tierNext path with
  | none => b
  | some (c, w) =>
    -- a command found late here counts as late from here on
    let b := match c.work with
      | .tier w0 => if w.late then b.goLate c w0 else b
      | _ => b
    if c.inbound then
      b.tierAsk c w (Nat.min 2048 ((w.total.getD c.tLen) - w.moved))
    else b.tierSend c w

/-! ### Bytes that come back (R300, R303) -/

/-- Is the head of an envelope acceptable (R303)? -/
def Block.envOk (b : Block) (c : Cmd) (h : Nat) : Bool :=
  let kind := bits h 87 86
  let ctr := bits h 191 128
  bits h 255 224 = 0x45504954 && bits h 223 208 = 1 && bits h 207 192 = c.tSet && ctr ≠ 0 &&
    decide (48 + bits h 127 88 ≤ c.tLen) &&
    (if c.isPrefetch then kind = 0 && ctr = b.tier.ledger.get 0 c.tSet
     else if kind = 0 then false
     else if kind = 1 then ctr = b.tier.ledger.get 0 c.tSet
     else kind = 2 && b.trust.secretSet)

/-- Keys to try on an envelope of a kind, with their salts: current before previous (R415). -/
def Block.envKeys (b : Block) (kind : Nat) : List (Nat × Nat) :=
  if kind = 2 then (b.trust.prk.toList ++ b.trust.prkPrev.toList).map dataKey
  else b.trust.tierKey.toList.map (fun k => (k, b.trust.tierSalt))

/-- The plaintext of a whole envelope whose tag verifies under one of the keys. -/
def Block.envPlain (b : Block) (bs : List Byte) : Option (List Byte) :=
  let h := leNat (bs.take 32)
  let len := bits h 127 88
  let ct := (bs.drop 32).take len
  ((b.envKeys (bits h 87 86)).find? (fun k =>
    gcmTagBytes k.1 k.2 (bits h 191 128) (bs.take 32) ct = (bs.drop (32 + len)).take 16)).map
    (fun k => gcmCrypt k.1 k.2 (bits h 191 128) ct)

/-- What of the set an inbound command can read already: the plaintext of a prefix, before any tag. -/
def Block.tierPeek (b : Block) (c : Cmd) (bs : List Byte) : List Byte :=
  if !c.envIn then bs
  else
    let h := leNat (bs.take 32)
    match (b.envKeys (bits h 87 86)).head? with
    | some k =>
      xorBytes (bs.drop 32) (Config.gcmStream k.1 (gcmIv k.2 (bits h 191 128)) (bits h 127 88))
    | none => []

/-- After bytes of an inbound command have come: the head checks, and the length once it is known. -/
def Block.tierCheck (c : Cmd) (w : TierWork) (b : Block) : Block :=
  let n := w.buf.length
  if c.envIn && w.total.isNone then
    if n < 32 then b
    else if !b.envOk c (leNat (w.buf.take 32)) then b.tierEnd c.id Status.badParam 8 0
    else b.setWork c.id (.tier { w with total := some (48 + bits (leNat (w.buf.take 32)) 127 88) })
  else if c.isPrefetch then
    match b.mapNum c.tMap with
    | none => b.tierEnd c.id Status.badParam 9 0
    | some m =>
      let set := b.tierPeek c w.buf
      if m.setStartLen ≤ set.length && !m.setOk c.tFirst c.tCount set then b.tierEnd c.id Status.badParam 9 0
      else if w.total.isSome then b
      else
        match m.parseSet c.tCount set with
        | some (_, rest) => b.setWork c.id (.tier { w with total := some (n - rest.length), moved := n - rest.length })
        | none => if c.tLen ≤ n then b.tierEnd c.id Status.badParam 9 0 else b
  else b

/-- Bytes of a plain inbound copy land at their destination; a write that is held back keeps them, and the next read is asked
for once they have landed (R384). -/
def Block.tierLand (c : Cmd) (w : TierWork) (off : Nat) (bs : List Byte) (b : Block) : Block :=
  if !isHost c.tDst && !isPeer c.tDst && b.writeWaits (c.tDst + off) bs.length then
    b.setWork c.id (.tier { w with buf := bs, waiting := w.waiting + 1 })
  else
    let b := b.setWork c.id (.tier { w with buf := [] })
    match b.tierPut c (c.tDst + off) bs with
    | (b, some st) => b.tierEnd c.id st 0 0
    | (b, none) => (b.tallyData 0 w.channel c.id (c.tSrc + off) bs).tallyData 1 w.channel c.id (c.tDst + off) bs

/-- Bytes held back are tried again. -/
def Block.tierRetry (b : Block) : Block :=
  b.mer.running.foldl (fun (b : Block) c =>
    match c.work with
    | .tier w =>
      if c.isCopy && c.inbound && !c.envIn && !w.buf.isEmpty then
        b.tierLand c { w with waiting := w.waiting - 1 } (w.moved - w.buf.length) w.buf
      else b
    | _ => b) b

/-- Bytes at an offset of an inbound command have come. [log 62 DEDUCED] -/
def Block.tierArrive (id off : Nat) (bs : List Byte) (b : Block) : Block :=
  match b.cmd id with
  | none => b
  | some c =>
    match c.work with
    | .tier w =>
      let b := if isHost c.tSrc then { b with tier.inBytes := (b.tier.inBytes + bs.length) % 2 ^ 64 } else b
      let w := { w with waiting := w.waiting - 1 }
      if c.isCopy && !c.envIn then b.tierLand c w off bs
      else
        let w := { w with buf := w.buf ++ bs }
        let b := b.setWork id (.tier w)
        -- the length may be known only now: the check of the set header follows the check of the envelope head
        let b := b.tierCheck c w
        match b.cmd id with
        | some c => (match c.work with | .tier w => b.tierCheck c w | _ => b)
        | none => b
    | _ => b

/-- A write to a peer is acknowledged, or the flushing read has come. -/
def Block.tierAck (id : Nat) (flush : Bool) (b : Block) : Block :=
  match b.cmd id with
  | some c =>
    match c.work with
    | .tier w => b.setWork id (.tier (if flush then { w with flushed := true } else { w with waiting := w.waiting - 1 }))
    | _ => b
  | none => b

/-- Host memory answers a tier read, or fails it (R309). -/
def Block.tierHostData (id off : Nat) (r : Option (List Byte)) (b : Block) : Block :=
  match r with
  | some bs => b.tierArrive id off bs
  | none => b.tierEnd id Status.hostAccessFail 0 0

/-- A peer answers (R309). -/
def Block.tierPeerAns (id off rank : Nat) (a : PeerAns) (b : Block) : Block :=
  match b.cmd id with
  | none => b
  | some c =>
    match c.work with
    | .tier w =>
      match a with
      | .data bs => if w.flushAsked then b.tierAck id true else b.tierArrive id off bs
      | .ack => b.tierAck id false
      | .refused => b.tierEnd id Status.addrUnmapped 0 0
      | .unreachable => b.tierEnd id Status.rankLost rank 0
    | _ => b

/-! ### The commit (R298 to R301) -/

/-- The transfer is complete but for its commit: MOVING becomes COMMIT, an OFFLOAD asking its flushing read first. -/
def Block.tierDone (w : TierWork) : Bool := (match w.total with | some t => decide (t ≤ w.moved) | none => false) && w.waiting = 0

def Block.tierFlush (c : Cmd) (w : TierWork) (b : Block) : Block :=
  let b := b.setWork c.id (.tier { w with flushAsked := true })
  match regionOf c.tDst with
  | .host addr => b.askHost addr 64 (.flush c.id)
  | .peer ex rank off => b.post { Msg.zero with
      kind := Kind.readReq, src := b.primaryRank, dest := rank, vl := 7, length := 64, offset := off, exp := ex }
      (some (.cmd c.id 0 64))
  | _ => b

def Block.setLedgerOf (set ctr : Nat) (b : Block) : Block := { b with tier.ledger := b.tier.ledger.set 0 set ctr }

/-- The commit of an OFFLOAD: the ledger entry, the release, the completion. -/
def Block.commitOffload (c : Cmd) (w : TierWork) (m : CMap) (b : Block) : Block :=
  let total := w.total.getD 0
  let range := m.da + 4096 * c.tFirst
  let b := if c.envOut then b.setLedgerOf c.tSet w.ctr else b
  let b := (b.tallyData 0 w.channel c.id range w.buf).tallyData 1 w.channel c.id (c.tDst + (if c.envOut then 32 else 0)) w.buf
  let b := if c.tRelease then
      match b.discardRange m c.tFirst c.tCount with
      | (b, some st) => b.acquire c.id st
      | (b, none) => b
    else b
  b.tierEnd c.id Status.ok 0 (fields [(24, total), (0, if c.envOut then w.ctr % 2 ^ 24 else 0)])

/-- The commit of a PREFETCH: the tag, the sectors, the switch of every entry. [log 60 DEDUCED] -/
def Block.commitPrefetch (c : Cmd) (w : TierWork) (m : CMap) (b : Block) : Block :=
  let plain := if c.envIn then b.envPlain w.buf else some w.buf
  match plain with
  | none => (b.logCmd c Status.codecStreamBad 4 w.channel 4 0).tierEnd c.id Status.codecStreamBad 4 0
  | some set =>
    match m.parseSet c.tCount set with
    | none => b.tierEnd c.id Status.badParam 9 0
    | some (rs, _) =>
      if rs.zipIdx.any (fun x => decide (x.1.page ≠ c.tFirst + x.2) || decide (4096 < x.1.stream.length)) then b.tierEnd c.id Status.badParam 9 0
      else if (b.freeSectors m).length < recSectors rs then b.tierEnd c.id Status.codecSpaceFull 0 0
      else
        let r := b.commitSet m c.tFirst c.tCount rs
        let b := match r.2 with | some st => r.1.acquire c.id st | none => r.1
        ((b.tallyData 0 w.channel c.id (c.tSrc + (if c.envIn then 32 else 0)) set).tallyData 1 w.channel c.id
          (m.da + 4096 * c.tFirst) set).tierEnd c.id Status.ok 0 0

/-- The commit of a DMA_COPY: an envelope's plaintext is written, or its ledger entry is. -/
def Block.commitCopy (c : Cmd) (w : TierWork) (b : Block) : Block :=
  if c.envIn then
    match b.envPlain w.buf with
    | none => (b.logCmd c Status.codecStreamBad 4 w.channel 4 0).tierEnd c.id Status.codecStreamBad 4 0
    | some plain =>
      if isPeer c.tDst && !w.flushAsked then
        -- the plaintext goes to the peer in writes of 2 KiB, and the commit waits until all are acknowledged
        ((List.range (ceilDiv plain.length 2048)).foldl (fun (b : Block) i =>
            (b.tierPut c (c.tDst + 2048 * i) ((plain.drop (2048 * i)).take 2048)).1)
          (b.setWork c.id (.tier { w with phase := .commit, flushAsked := true })))
      else
      match (if isPeer c.tDst then (b, none) else b.tierPut c c.tDst plain) with
      | (b, some st) => b.tierEnd c.id st 0 0
      | (b, none) => ((b.tallyData 0 w.channel c.id (c.tSrc + 32) plain).tallyData 1 w.channel c.id c.tDst plain).tierEnd c.id
          Status.ok 0 0
  else if c.inbound then b.tierEnd c.id Status.ok 0 0
  else
    let b := if c.envOut then b.setLedgerOf c.tSet w.ctr else b
    ((b.tallyData 0 w.channel c.id c.tSrc w.buf).tallyData 1 w.channel c.id (c.tDst + (if c.envOut then 32 else 0)) w.buf).tierEnd
      c.id Status.ok 0 0

/-- May the commit be made now: no write-protected page in the way (R290, R384)? -/
def Block.tierMayCommit (b : Block) (c : Cmd) (w : TierWork) (m : Option CMap) : Bool :=
  if c.isCopy then
    !(c.envIn && !isPeer c.tDst) || !b.writeWaits c.tDst (bits (leNat (w.buf.take 32)) 127 88)
  else
    match m with
    | some m => (c.isOffload && !c.tRelease) ||
        (b.rangeClosable m c.tFirst c.tCount &&
          ((List.range c.tCount).all (fun i => decide (m.pages ≤ c.tFirst + i + m.fs) || b.closable m (c.tFirst + i + m.fs))))
    | none => true

/-- TIER_COMMIT. -/
def Block.tierCommit (ch : Nat) (b : Block) : Block :=
  match (b.tierQueue ch).head? with
  | none => b
  | some (c, w) =>
    if (w.phase ≠ .moving && w.phase ≠ .commit) || !Block.tierDone w then b
    else if c.isOffload && !w.flushAsked then b.tierFlush c { w with phase := .commit }
    else if c.isOffload && !w.flushed then b
    else
      let m := b.mapNum c.tMap
      if !b.tierMayCommit c w m then b.setWork c.id (.tier { w with phase := .commit })
      else if c.isCopy then b.commitCopy c w
      else
        match m with
        | none => b.tierEnd c.id Status.badParam 3 0
        | some m => if c.isOffload then b.commitOffload c w m else b.commitPrefetch c w m

def execTierHead (ch : Nat) (s : State) : Host.Outcome State Fault Refusal := s.run (Block.tierHead ch)
def execTierNotBefore (ch : Nat) (s : State) : Host.Outcome State Fault Refusal := s.run (Block.tierNotBefore ch)
def execTierDeadline (ch : Nat) (s : State) : Host.Outcome State Fault Refusal := s.run (Block.tierDeadline ch)
def execTierCommit (ch : Nat) (s : State) : Host.Outcome State Fault Refusal := s.run (Block.tierCommit ch)

end Sys2Proof.Machine
end

