-- ==== Sys2Proof/Machine/Snap.lean ====
section
/-!
DEFINITION. The snapshot engine (R376 to R394): SNAP_CFG, PARITY_SET, LEDGER_READ and SNAP_DRAIN; cuts and their images; the
copies a write-protected page needs; checkpoint streams; and peer parity.
-/

namespace Sys2Proof.Machine

/-! ### Regions, the reserve and parity areas -/

/-- First management page and number of pages that a region protects: of a SCALE region the pages that hold its records (R377). -/
def Block.snapPages (b : Block) (r : SnapRegion) : Nat × Nat :=
  if r.method = 2 then
    match b.train.table with
    | some (base, _) =>
      let lo := scaleAddr base r.pages
      (pageOf lo, pageOf (lo + 128 * r.records - 1) + 1 - pageOf lo)
    | none => (0, 0)
  else (pageOf r.da, r.pages)

def Block.snapPageList (b : Block) (r : SnapRegion) : List Nat :=
  (List.range (b.snapPages r).2).map (· + (b.snapPages r).1)

def SnapRegion.isParity (r : SnapRegion) : Bool := r.method = 1

/-- The region a page lies in. -/
def Block.snapRegionOf (b : Block) (page : Nat) : Option SnapRegion :=
  b.snap.regions.find? (fun r => decide ((b.snapPages r).1 ≤ page) && decide (page < (b.snapPages r).1 + (b.snapPages r).2))

def parityPages (rs : List SnapRegion) : Nat := ((rs.filter SnapRegion.isParity).map (fun r => r.pages)).sum

/-- Reserve pages of the parity part and of the snapshot part (R378). -/
def Block.parityPart (b : Block) : List Nat :=
  match b.snap.cfg with
  | some c => (List.range (Nat.min c.resPages (2 * parityPages b.snap.regions))).map (· + pageOf c.resDa)
  | none => []

def Block.snapPart (b : Block) : List Nat :=
  match b.snap.cfg with
  | some c =>
    let n := 2 * parityPages b.snap.regions
    (List.range (c.resPages - n)).map (· + (pageOf c.resDa + n))
  | none => []

/-- Free reserve pages of the snapshot part, ascending. -/
def Block.snapFree (b : Block) : List Nat :=
  b.snapPart.filter (fun p => !(b.snap.copies.any (fun c => c.2 = p)) && !b.snap.packPages.contains p)

/-- A free reserve page of the parity part. -/
def Block.parityFree (b : Block) : Option Nat :=
  b.parityPart.find? (fun p => !(b.snap.bases.any (fun x => x.res = some p)))

/-- Clear WP of a page. -/
def Block.clearWp (page : Nat) (b : Block) : Block :=
  let a := b.attr page
  if attrWp a then b.setAttr page (a - 0x80) else b

def Block.setWp (page : Nat) (b : Block) : Block :=
  let a := b.attr page
  if attrWp a then b else b.setAttr page (a + 0x80)

/-- Does a FAILOVER or RESTORE run (SNAP_STAT.RECOVERY)? -/
def Block.recovering (b : Block) : Bool := b.mer.running.any (fun c => c.pkt.opcode = 0x0B02 || c.pkt.opcode = 0x0B05)

/-- Is a cut in progress: OPEN, STALLED or DONE? -/
def Block.cutHeld (b : Block) : Bool := b.snap.st = .opened || b.snap.st = .stalled || b.snap.st = .done

/-- The engine takes a configuration: UNCONFIGURED or IDLE, and no recovery (R378). -/
def Block.snapConfigurable (b : Block) : Bool := (b.snap.st = .unconfigured || b.snap.st = .idle) && !b.recovering

/-! ### SNAP_CFG (R376 to R378) -/

/-- Region descriptor i of a CONFIG. -/
def snapDesc (p : Packet) (i : Nat) : SnapRegion :=
  let f (hi lo : Nat) : Nat := p.f (512 + 256 * i + hi) (512 + 256 * i + lo)
  { da := f 255 204, pages := f 203 180, region := f 179 164, method := f 163 162, hidx := f 161 159, records := f 158 135,
    cuts := 0, dcut := 0xFFFF, dstep := 0xFFFF, stepAt := 0 }

/-- Do two page ranges share a page? -/
def overlap (x y : Nat × Nat) : Bool := decide (x.1 < y.1 + y.2) && decide (y.1 < x.1 + x.2) && decide (0 < x.2) && decide (0 < y.2)

/-- The refusal of one descriptor, if any, given those before it (R377, R378). -/
def Block.descFault (b : Block) (earlier : List SnapRegion) (res : Nat × Nat) (append : Bool) (r : SnapRegion) : Option Nat :=
  let bad := some Status.badParam
  let range := b.snapPages r
  let sane : Bool :=
    r.method ≠ 3 && (if r.method = 2 then r.da = 0 && decide (0 < r.records) else r.records = 0 && decide (0 < r.pages) && r.da % 0x10000 = 0)
  if !sane || decide (b.hosted.length ≤ r.hidx) then bad
  else if append && b.snap.regions.any (fun x => x.hidx = r.hidx) then bad
  else if earlier.any (fun x => x.hidx = r.hidx && x.region = r.region) then bad
  else if r.method = 2 && (match b.train.table with | some (_, n) => decide (n < r.pages + r.records) | none => true) then bad
  else if !inHbm (0x10000 * range.1) (0x10000 * range.2) then some Status.addrUnmapped
  else
    let as := (b.snapPageList r).map b.attr
    let plain (a : Nat) : Bool := (attrClass a = 2 || attrClass a = 3) && !attrCodec a
    let ok : Bool := if r.method = 0 then as.all (fun a => plain a || (attrCodec a && attrClass a ≠ 4)) else as.all plain
    let clash : Bool := earlier.any (fun x => !(x.method = 2 && r.method = 2) && overlap (b.snapPages x) range) ||
      overlap res range || b.snap.areas.any (fun a => overlap (pageOf a.da, a.pages) range)
    if !ok || clash then bad else none

/-- The refusal of a CONFIG's head (R378). [log 98 DEDUCED] -/
def Block.headFault (b : Block) (p : Packet) (rs : List SnapRegion) : Option Nat :=
  let bad := some Status.badParam
  let da := p.f 507 456
  let n := p.f 455 432
  let dest := p.f 431 380
  let bytes := p.f 379 340
  let mask := p.f 315 300
  if da % 0x10000 ≠ 0 ∨ dest % 64 ≠ 0 ∨ bytes % 64 ≠ 0 ∨ bytes < 4096 ∨ p.f 339 332 = 0 ∨ p.f 331 316 = 0 ∨ mask = 0 then bad
  else if !(isHost dest || isPeer dest) then bad
  else if !inHbm da (0x10000 * n) then some Status.addrUnmapped
  else if !b.pagesAll da (0x10000 * n) (fun a => attrClass a = 3 && !attrWp a && !attrCodec a) then bad
  else if b.snap.areas.any (fun a => overlap (pageOf a.da, a.pages) (pageOf da, n)) then bad
  else if n < 2 * parityPages rs + 16 then bad
  else if (maskList 16 mask).any (fun t => (b.codec.tables.get [] t).isEmpty) then bad
  else none

/-- The first failing descriptor: its position from 1, and the status. [log 98 DEDUCED] -/
def Block.descsFault (b : Block) (res : Nat × Nat) (append : Bool) : Nat → List SnapRegion → List SnapRegion → Option (Nat × Nat)
  | _, _, [] => none
  | i, earlier, r :: rs =>
    match b.descFault earlier res append r with
    | some st => some (i, st)
    | none => b.descsFault res append (i + 1) (earlier ++ [r]) rs

/-- The all-zero bases that make a region's pages dirty (R378, R391). [log 98 DEDUCED] -/
def Block.zeroBases (b : Block) (r : SnapRegion) : List ParBase :=
  if r.isParity then (b.snapPageList r).map (fun g => { page := g, cut := b.snap.last, res := none }) else []

/-- Zero a parity area. -/
def Block.zeroArea (a : ParArea) (b : Block) : Block :=
  { (List.range a.pages).foldl (fun b i => b.memWrite (a.da + 0x10000 * i) (zeros 0x10000)) b with
    snap.areas := b.snap.areas.map (fun x => if x.hidx = a.hidx then { a with halves := [], touched := [], cut := 0 } else x) }

/-- CONFIG. [log 98 DEDUCED] -/
def Block.snapConfig (c : Cmd) (b : Block) : Block :=
  let p := c.pkt
  let n := p.f 264 258
  let append := p.f 257 257 = 1
  let rs := (List.range n).map (snapDesc p)
  if 124 < n || !b.snapConfigurable then b.refuse c Status.badParam 0
  else if b.trust.job ≠ 0 && b.trust.sealedReq && !b.trust.secretSet then b.refuse c Status.badParam 0x22
  else if append then
    match b.snap.cfg with
    | none => b.refuse c Status.badParam 0
    | some g =>
      if b.snap.st ≠ .idle || decide (g.resPages < 2 * parityPages (b.snap.regions ++ rs) + 16) then b.refuse c Status.badParam 0
      else
        match b.descsFault (pageOf g.resDa, g.resPages) true 1 b.snap.regions rs with
        | some (i, st) => b.refuse c st i
        | none => Block.done c 0 { b with
            snap.regions := b.snap.regions ++ rs, snap.bases := b.snap.bases ++ (rs.map b.zeroBases).flatten }
  else
    match b.headFault p rs with
    | some st => b.refuse c st 0
    | none =>
      let mask := p.f 315 300
      let g : SnapCfg := {
        resDa := p.f 507 456, resPages := p.f 455 432, destDa := p.f 431 380, destBytes := p.f 379 340,
        destSlots := p.f 339 332, fullEvery := p.f 331 316, mask := mask,
        tables := (maskList 16 mask).map (fun t => (t, b.codec.tables.get [] t)) }
      match b.descsFault (pageOf g.resDa, g.resPages) false 1 [] rs with
      | some (i, st) => b.refuse c st i
      | none =>
        let b := (b.snap.regions.map b.snapPageList).flatten.foldl (fun b g => b.clearWp g) b
        let b := b.snap.areas.foldl (fun b a => b.zeroArea a) b
        let b := b.onLedgers (fun l => { l with lastComplete := 0 })
        Block.done c 0 { b with
          snap.st := .idle, snap.cfg := some g, snap.regions := rs, snap.bases := (rs.map b.zeroBases).flatten,
          snap.kept := [], snap.rolled := none }

/-- LEDGER_SET (R379). -/
def Block.ledgerSet (c : Cmd) (b : Block) : Block :=
  let da := c.pkt.f 507 456
  let k := c.pkt.f 267 265
  match b.ledger k with
  | none => b.refuse c Status.badParam 0
  | some old =>
    if (b.snap.st ≠ .unconfigured && b.snap.st ≠ .idle) || b.stepIsOpen || old.openStep ≠ 0 then b.refuse c Status.badParam 0
    else
      match localStatus da 2048 with
      | some st => b.refuse c st 0
      | none =>
        b.cmdRead c.id da 2048 (fun bs b =>
          let l := Ledger.ofBytes bs
          if !ledgerImageOk bs || l.rank ≠ old.rank || l.openStep ≠ 0 || decide (16 < l.ncur) || decide (16 < l.nstr) then
            b.refuse c Status.badParam 0
          else Block.done c 0 (b.setLedger k (some { l with
            lastComplete := old.lastComplete, lastCut := old.lastCut, cutSc := old.cutSc, gated := old.gated })))

/-- The recommended methods of ADVISE (R392), by position: PARITY in ascending DCUT while the parity areas hold it.
[log 106 DEDUCED] -/
def Block.advised (b : Block) : List Nat :=
  let room := (b.snap.areas.map (fun a => a.pages)).sum
  let able := b.snap.regions.zipIdx.filter (fun x =>
    x.1.method ≠ 2 && decide (x.1.dcut ≤ 0x4000) &&
      (b.snapPageList x.1).all (fun g => (attrClass (b.attr g) = 2 || attrClass (b.attr g) = 3) && !attrCodec (b.attr g)))
  let order := (List.range 0x4001).foldl (fun acc d => acc ++ able.filter (fun x => x.1.dcut = d)) ([] : List (SnapRegion × Nat))
  (order.foldl (fun (acc : Nat × List Nat) (x : SnapRegion × Nat) =>
    let need := acc.1 + 2 * ceilDiv x.1.pages 7
    if need ≤ room then (need, x.2 :: acc.2) else acc) (0, [])).2

/-- ADVISE (R392). [log 106 DEDUCED] -/
def Block.advise (c : Cmd) (b : Block) : Block :=
  let da := c.pkt.f 507 456
  let parity := b.advised
  let bs := (b.snap.regions.zipIdx.map (fun x =>
    leBytes 16 (fields [(96, x.1.dcut), (64, x.1.dstep), (40, x.1.pages), (0, b2n (parity.contains x.2))]))).flatten
  if da % 16 ≠ 0 then b.refuse c Status.badParam 0
  else if bs.isEmpty then b.done c 0
  else
    match localStatus da bs.length with
    | some st => b.refuse c st 0
    | none => if b.writeWaits da bs.length then b.setWork c.id .scaleWait else b.cmdWrite c.id da bs (fun b => b.done c 0)

/-- COMMIT (R393): the tables of the cut become the committed ones. -/
def Block.snapCommit (c : Cmd) (b : Block) : Block :=
  let n := c.pkt.f 299 268
  if b.snap.st ≠ .done || b.snap.cut ≠ n then b.refuse c Status.badParam 0
  else
    let b := b.onLedgers (fun l => { l with lastComplete := n })
    Block.done c 0 { b with snap := { b.snap with
      st := .idle, kept := b.snap.images, images := [], bases := b.snap.bases.filter (fun x => x.cut = n),
      streams := [], dones := b.snap.dones.filter (fun d => d.1 ≠ n),
      areas := b.snap.areas.map (fun a =>
        if a.cut = n then { a with
          halves := a.touched.foldl (fun (m : Sparse Nat) i => m.upd 0 i (fun h => 1 - h)) a.halves, touched := [], cut := 0 }
        else a) } }

/-- The actions of SNAP_CFG. -/
def Block.startSnapCfg (c : Cmd) (b : Block) : Block :=
  let a := c.pkt.f 511 508
  if a ≠ 0 ∧ c.pkt.f 264 258 ≠ 0 then b.refuse c Status.badParam 0
  else
    match a with
    | 0 => b.snapConfig c
    | 1 => b.snapCommit c
    | 2 => b.ledgerSet c
    | 3 => b.advise c
    | _ => b.refuse c Status.badParam 0

/-! ### PARITY_SET and LEDGER_READ (R381, R390) -/

/-- Positions of a hosted index's PARITY regions: region and its first position (R389). -/
def Block.unitBases (b : Block) (hidx : Nat) : List (SnapRegion × Nat) :=
  ((b.snap.regions.filter (fun r => r.isParity && r.hidx = hidx)).foldl
    (fun (acc : List (SnapRegion × Nat) × Nat) r => (acc.1 ++ [(r, acc.2)], acc.2 + ceilDiv r.pages 7)) ([], 0)).1

/-- All unit positions of a hosted index. -/
def Block.unitCount (b : Block) (hidx : Nat) : Nat :=
  ((b.snap.regions.filter (fun r => r.isParity && r.hidx = hidx)).map (fun r => ceilDiv r.pages 7)).sum

/-- [log 98 DEDUCED] -/
def Block.startParitySet (c : Cmd) (b : Block) : Block :=
  let p := c.pkt
  let da := p.f 255 204
  let n := p.f 203 180
  let k := p.f 175 173
  match b.hosted[k]?, b.tree (p.f 179 176) with
  | some rank, some t =>
    let range := (pageOf da, n)
    let res : Nat × Nat := match b.snap.cfg with | some g => (pageOf g.resDa, g.resPages) | none => (0, 0)
    if !b.snapConfigurable || da % 0x10000 ≠ 0 || n = 0 || t.members.length ≠ 8 || !t.members.contains rank ||
        decide (n < 2 * b.unitCount k) then b.refuse c Status.badParam 0
    else if !inHbm da (0x10000 * n) then b.refuse c Status.addrUnmapped 0
    else if !b.pagesAll da (0x10000 * n) (fun a => attrClass a = 3) || overlap range res ||
        b.snap.regions.any (fun r => overlap (b.snapPages r) range) ||
        b.snap.areas.any (fun a => a.hidx ≠ k && overlap (pageOf a.da, a.pages) range) then b.refuse c Status.badParam 0
    else
      let a : ParArea := { hidx := k, da := da, pages := n, tree := t.num, halves := [], touched := [], cut := 0 }
      let mine := (b.snap.regions.filter (fun r => r.isParity && r.hidx = k))
      let pages := (mine.map b.snapPageList).flatten
      let b := pages.foldl (fun b g => b.clearWp g) b
      let areas := b.snap.areas.filter (fun (x : ParArea) => x.hidx ≠ k) ++ [a]
      let bases := b.snap.bases.filter (fun (x : ParBase) => !pages.contains x.page) ++ (mine.map b.zeroBases).flatten
      let b : Block := { b with snap.areas := areas, snap.bases := bases }
      (b.zeroArea a).done c 0
  | _, _ => b.refuse c Status.badParam 0

/-- The 8,336 bytes of the update section (R379). -/
def Block.updSection (b : Block) : List Byte :=
  leBytes 8 b.train.updStep ++ leBytes 4 b.train.updStarted ++ leBytes 4 b.train.updFinal ++
    (List.range 0x2080).map (fun i => BitVec.ofNat 8 (fields ((List.range 8).map (fun j => (j, b2n (b.train.finals.get false (8 * i + j)))))))

def Block.startLedgerRead (c : Cmd) (b : Block) : Block :=
  let da := c.pkt.f 127 76
  let k := c.pkt.f 75 73
  let image := c.pkt.f 72 72 = 1
  let live : Option (List Byte) := if k = 7 then (if image then none else some b.updSection) else (b.ledger k).map Ledger.bytes
  let kept := if b.snap.st = .done then b.snap.images else b.snap.kept
  let bytes := if image && k ≠ 7 then
      (match b.ledger k with
       | some _ => (kept.find? (fun x => x.hidx = k)).map (fun x => x.led)
       | none => none)
    else live
  match bytes with
  | none => b.refuse c Status.badParam 0
  | some bs =>
    match rspStatus da bs.length with
    | some st => b.refuse c st 0
    | none =>
      b.respond c da bs 0 bs.length

/-! ### Reading a page as it stood at the cut (R384, R387) -/

/-- Where the content of a page at the open cut stands: its reserve copy, its base of this cut, or the page. -/
def Block.cutPage (b : Block) (page : Nat) : Nat :=
  match b.snap.copies.find? (fun c => c.1 = page) with
  | some c => c.2
  | none =>
    match b.snap.bases.find? (fun x => x.page = page && x.cut = b.snap.cut) with
    | some x => x.res.getD page
    | none => page

/-- Bytes at the cut; none where a word cannot be read. [log 102 DEDUCED] -/
def Block.cutRead (da n : Nat) (b : Block) : Option (List Byte) × Block :=
  (pagesOf da n).foldl (fun (acc : Option (List Byte) × Block) g =>
    let lo := Nat.max da (0x10000 * g)
    let hi := Nat.min (da + n) (0x10000 * (g + 1))
    let src := 0x10000 * acc.2.cutPage g + lo % 0x10000
    match acc.1, acc.2.memRead src (hi - lo) with
    | some bs, (.data more _, b) => (some (bs ++ more), b)
    | _, (_, b) => (none, b)) (some [], b)

/-- Packed record bytes at an offset of the pack pages. [log 99 DEDUCED] -/
def Block.packPieces (b : Block) (off n : Nat) : List (Nat × Nat) :=
  (pagesOf off n).map (fun g =>
    let lo := Nat.max off (0x10000 * g)
    let hi := Nat.min (off + n) (0x10000 * (g + 1))
    (0x10000 * b.snap.packPages.getD g 0 + lo % 0x10000, hi - lo))

def Block.packRead (off n : Nat) (b : Block) : Option (List Byte) × Block :=
  (b.packPieces off n).foldl (fun (acc : Option (List Byte) × Block) x =>
    match acc.1, acc.2.memRead x.1 x.2 with
    | some bs, (.data more _, b) => (some (bs ++ more), b)
    | _, (_, b) => (none, b)) (some [], b)

def Block.packWrite (off : Nat) (bs : List Byte) (b : Block) : Block :=
  ((b.packPieces off bs.length).foldl (fun (acc : Block × List Byte) x =>
    (acc.1.memWrite x.1 (acc.2.take x.2), acc.2.drop x.2)) (b, bs)).1

/-- The view a page belongs to, and the index of its first codec page. -/
def Block.viewOf (b : Block) (page : Nat) : Option (CMap × Nat) :=
  if attrCodec (b.attr page) then (b.mapOf (0x10000 * page)).map (fun m => (m, (0x10000 * page - m.da) / 4096)) else none

/-- The map that a page outside a view is encoded with (R387). -/
def SnapCfg.plainMap (g : SnapCfg) : CMap :=
  { num := 0, da := 0, count := 1, entryDa := 0, mode := 0, elem := 0, fs := 0, key := 1, m := 0, floor := 0,
    tableMask := g.mask, tables := g.tables }

/-- The record of a 4 KiB chunk (R283, R288). -/
def chunkRec (m : CMap) (v : Nat) (page : List Byte) : Rec :=
  if page.all (· = 0) then { page := v, crc := 0, kind := 0, xform := 0, stream := [] }
  else
    let s := encodeStream m 0 page
    if 3584 < s.length then { page := v, crc := crc32c page, kind := 2, xform := 0, stream := page }
    else { page := v, crc := crc32c page, kind := 1, xform := 0, stream := s }

/-- The record set of a page outside a view (R387). -/
def plainSet (g : SnapCfg) (index : Nat) (bs : List Byte) : List Byte :=
  let m := g.plainMap
  m.setStart (16 * index) 16 ++ ((List.range 16).map (fun i =>
    (chunkRec m (16 * index + i) ((bs.drop (4096 * i)).take 4096)).bytes)).flatten

/-- The demand reads of a view management page's records: what is correctable in them is corrected and scrubbed (R259). -/
def Block.scrubView (m : CMap) (v : Nat) (b : Block) : Block :=
  (List.range 16).foldl (fun b i => (b.scrubPage m (v + i)).2) b

/-- The body of a page's segment. -/
def Block.pageSet (g : SnapCfg) (page index : Nat) (b : Block) : Option (List Byte) × Block :=
  match b.snap.packs.find? (fun x => x.1 = page) with
  | some x => b.packRead x.2.1 x.2.2
  | none =>
    match b.viewOf page with
    | some (m, v) =>
      let b := b.scrubView m v
      match b.recordSet m v 16 with
      | .ok bs => (some bs, b)
      | .error (st, _, da) => (none, if st = Status.memUncorrectable then b.memFault (da / 16) else b)
    | none =>
      match b.cutRead (0x10000 * page) 0x10000 with
      | (some bs, b) => (some (plainSet g index bs), b)
      | (none, b) => (none, b)

/-! ### The first write of a protected page (R384) -/

/-- Copy a page, its unreadable blocks poisoned in the copy. [log 99 DEDUCED] -/
def Block.copyPage (src dst : Nat) (b : Block) : Block :=
  let r := (List.range 32).foldl (fun (acc : Block × List Nat) i =>
    let da := 0x10000 * src + 2048 * i
    let s := acc.1.sweep da false false
    (s.1, acc.2 ++ s.2)) (b, [])
  let b := r.1.memWrite (0x10000 * dst) (r.1.peek (0x10000 * src) 0x10000)
  r.2.foldl (fun b x => b.poisonBlock ((x - 0x10000 * src + 0x10000 * dst) / 16)) b

/-- No reserve page is free for a page that a write waits on: it waits until DONE. [log 100 DEDUCED] -/
def Block.snapStarve (page : Nat) (b : Block) : Block :=
  if b.snap.starved.contains page then b
  else { b with snap.starved := b.snap.starved ++ [page], snap.waits := Nat.min (b.snap.waits + 1) (2 ^ 32 - 1) }

/-- WP_COPY_DONE. [log 100 DEDUCED] -/
def Block.wpCopy (page : Nat) (b : Block) : Block :=
  match b.snapRegionOf page with
  | none => b
  | some r =>
    if !attrWp (b.attr page) then b
    else if r.isParity then
      match b.parityFree with
      | none => b
      | some dst =>
        let b := b.copyPage page dst
        { b.clearWp page with snap.bases := b.snap.bases ++ [{ page := page, cut := b.snap.last, res := some dst }] }
    else
      match b.viewOf page with
      | some (m, v) =>
        let b := b.scrubView m v
        match b.recordSet m v 16 with
        | .error (st, _, da) => if st = Status.memUncorrectable then b.memFault (da / 16) else b
        | .ok bs =>
          let need := ceilDiv (b.snap.packBytes + bs.length) 0x10000 - b.snap.packPages.length
          if b.snapFree.length < need then b.snapStarve page
          else
            let off := b.snap.packBytes
            let b := { b with snap.packPages := b.snap.packPages ++ b.snapFree.take need, snap.packBytes := off + bs.length,
                              snap.packs := b.snap.packs ++ [(page, off, bs.length)] }
            (b.packWrite off bs).clearWp page
      | none =>
        match b.snapFree.head? with
        | none => b.snapStarve page
        | some dst =>
          let b := b.copyPage page dst
          { b.clearWp page with snap.copies := b.snap.copies ++ [(page, dst)] }

/-! ### Opening a cut (R382, R383, R385, R392) -/

def Block.snapError (status hidx detail info : Nat) (b : Block) : Block := b.logError status 9 hidx detail info

/-- The images of a ledger and of the step record that a cut captures (R383). -/
def Block.capture (b : Block) (cut k : Nat) (l : Ledger) : SnapImage :=
  let r := b.stepRec
  let l := { l with cutSc := b.now, lastCut := cut }
  let x : Ledger × Nat :=
    if l.openStep = 0 then (l, r)
    else if b.train.updStarted = 0 then
      (l.unopen, putBits (setBit (setBit b.train.before stepOpenBit false) stepLocalBit true) 431 430 0)
    else ({ l with openStep := 0 }, stepClosed r)
  { hidx := k, cut := cut, led := x.1.bytes, stepImg := x.2 }

/-- The segments of a hosted index's stream (R387). -/
def Block.segList (b : Block) (full : Bool) (k : Nat) : List SegTodo :=
  let rs := b.snap.regions.zipIdx.filter (fun x => x.1.hidx = k)
  let scale := (rs.filter (fun x => x.1.method = 2)).map (fun x =>
    (List.range (ceilDiv x.1.records 8191)).map (fun i => ({ kind := 1, pos := x.2, index := x.1.pages + 8191 * i } : SegTodo)))
  let pages := (rs.filter (fun x => x.1.method = 0 || (full && x.1.isParity))).map (fun x =>
    (List.range x.1.pages).map (fun i => ({ kind := 2, pos := x.2, index := i } : SegTodo)))
  { kind := 0, pos := 0, index := 0 } :: (scale.flatten ++ pages.flatten)

/-- REGION_CRC: CRC-32C over a hosted index's descriptors (R385). -/
def regionCrc (rs : List SnapRegion) (k : Nat) : Nat :=
  crc32c (((rs.filter (fun r => r.hidx = k)).map (fun r =>
    leBytes 32 (fields [(204, r.da), (180, r.pages), (164, r.region), (162, r.method), (159, r.hidx), (135, r.records)]))).flatten)

/-- The preamble (R385). [log 104 DEDUCED] -/
def Block.preamble (b : Block) (k wrap step sc rank : Nat) : List Byte :=
  leBytes 128 (fields [(704, wrap % 2 ^ 320), (640, sc), (576, step), (512, Config.deviceId % 2 ^ 64),
    (480, regionCrc b.snap.regions k), (448, b.snap.cut), (432, rank), (431, b2n b.snap.full), (32, 1), (0, 0x50534E53)])

/-- Start the stream of each captured image, with a new data key, at a base and a spacing of destinations. [log 104 DEDUCED] -/
def Block.startStreams (base spacing : Nat) (b : Block) : Block :=
  b.snap.images.foldl (fun (b : Block) im =>
    let key := b.draw 256
    let b := key.2
    let wrap : Nat × Block := match b.trust.prk with
      | some prk => (Config.keyWrap (ckptKey prk) key.1, b)
      | none => b.free 320
    let b := wrap.2
    let l := Ledger.ofBytes im.led
    let s : SnapStream := {
      hidx := im.hidx, base := base + spacing * im.hidx, cap := spacing, key := key.1,
      pre := b.preamble im.hidx wrap.1 l.stepNext l.cutSc l.rank, todo := b.segList b.snap.full im.hidx, frame := 0, segs := 0,
      off := 0, buf := b.preamble im.hidx wrap.1 l.stepNext l.cutSc l.rank, acks := 0, trailer := false, complete := false }
    { b with snap.streams := b.snap.streams ++ [s] }) { b with snap.streams := [] }

/-- What R392 measures at a cut. [log 106 DEDUCED] -/
def Block.measure (b : Block) : List SnapRegion :=
  b.snap.regions.map (fun r =>
    let ps := b.snapPageList r
    let n := (ps.filter (fun g => if attrCodec (b.attr g) then b.codec.touched.get false g else b.mem.touched.get false g)).length
    let step := match b.ledger r.hidx with | some l => l.stepNext | none => 0
    let total := Nat.max 1 ps.length
    let steps := step - r.stepAt
    if r.cuts = 0 then { r with cuts := 1, stepAt := step }
    else { r with cuts := 2, stepAt := step, dcut := Nat.min 0xFFFF (65536 * n / total),
                  dstep := Nat.min 0xFFFF (65536 * n / (total * Nat.max 1 steps)) })

/-- The own parity deltas of a cut: pages with a base of the previous cut, of hosted indices in a parity group (R391). -/
def Block.deltaList (b : Block) (previous : Nat) : List (Nat × Nat) :=
  (b.snap.regions.map (fun r =>
    if r.isParity && b.snap.areas.any (fun a => a.hidx = r.hidx) then
      ((b.snapPageList r).filter (fun g => b.snap.bases.any (fun x => x.page = g && x.cut = previous))).map (fun g => (r.hidx, g))
    else [])).flatten

/-- Close the open codec pages of the views among some pages, before they are read (R289). [log 99 DEDUCED] -/
def Block.closeViews (pages : List Nat) (b : Block) : Block :=
  pages.foldl (fun b g =>
    match b.viewOf g with
    | some (m, v) => (b.closePages m ((List.range 16).map (· + v))).1
    | none => b) b

/-- R383: a cut opens. -/
def Block.openCut (g : SnapCfg) (cut : Nat) (b : Block) : Block :=
  let pages := (b.snap.regions.map b.snapPageList).flatten
  let b := b.closeViews pages
  let images := b.ledgerList.map (fun x => b.capture cut x.1 x.2)
  let b := b.onLedgers (fun l => { l with lastCut := cut })
  let previous := b.snap.last
  let full : Bool := cut % g.fullEvery = 0
  let b := { b with snap := { b.snap with
    st := .opened, cut := cut, full := full, images := images, regions := b.measure, before := previous, last := cut,
    copies := [], packs := [], packPages := [], packBytes := 0, starved := [], deltas := b.deltaList previous, deltaOut := 0,
    doneSent := false, bytes := 0 } }
  let b := { pages.foldl (fun b g => b.setWp g) b with mem.touched := [], codec.touched := [] }
  b.startStreams (g.destDa + g.destBytes * (8 * (cut % g.destSlots))) g.destBytes

/-- SNAP_CUT: none where the event stays due (R382). [log 1 DESIGN CHOICE; 101 DEDUCED] -/
def Block.snapCut (cut : Nat) (b : Block) : Option Block :=
  let refuse (why : Nat) : Option Block := some (b.snapError Status.badParam 0 why cut)
  let greatest := b.ledgerList.foldl (fun a l => Nat.max a l.2.lastCut) 0
  match b.snap.st, b.snap.cfg with
  | .idle, some g =>
    if b.mer.running.any (fun c => c.pkt.opcode = 0x0800) || b.recovering then none
    else if cut ≤ greatest then refuse 2
    else if !b.train.invalid.isEmpty then refuse 3
    else if b.ledgerList.any (fun l => l.2.gated) then refuse 4
    else if b.train.updFinal < b.train.updStarted then refuse 5
    else some (b.openCut g cut)
  | .unconfigured, _ => refuse 1
  | .idle, none => refuse 1
  | _, _ => none

/-! ### The end of a cut -/

/-- The members of a hosted index's parity group. -/
def Block.groupOf (b : Block) (a : ParArea) : List Nat := match b.tree a.tree with | some t => t.members | none => []

/-- The own place of a hosted index in its group. -/
def Block.groupIndex (b : Block) (a : ParArea) : Nat :=
  match b.hosted[a.hidx]? with | some r => (b.groupOf a).findIdx (· = r) | none => 8

/-- PARITY_DONE is held from every peer of every group. -/
def Block.allDone (b : Block) : Bool :=
  b.snap.areas.all (fun a => (List.range 8).all (fun j =>
    j = b.groupIndex a || b.snap.dones.contains (b.snap.cut, a.tree, j)))

/-- OPEN becomes DONE when nothing is left (R382, R388): the drains that wait complete. [log 101 DEDUCED] -/
def Block.cutTest (b : Block) : Block :=
  if b.snap.st = .opened && b.snap.streams.all (fun s => s.complete) && b.snap.deltas.isEmpty && b.snap.deltaOut = 0 &&
      b.snap.doneSent && b.allDone then
    let pages := ((b.snap.regions.filter (fun r => !r.isParity)).map b.snapPageList).flatten
    let b := pages.foldl (fun b g => b.clearWp g) b
    let b := { b with snap.st := .done, snap.copies := [], snap.packs := [], snap.packPages := [], snap.packBytes := 0, snap.starved := [] }
    (b.mer.running.filter (fun c => c.pkt.opcode = 0x0B01)).foldl (fun b c => b.completeId c.id Status.ok 0 b.snap.bytes) b
  else b

/-- What the engine forgets of an abandoned cut. -/
def SnapS.abandon (x : SnapS) : SnapS :=
  { x with
    st := .idle, images := [], copies := [], packs := [], packPages := [], packBytes := 0, starved := [], streams := [],
    deltas := [], deltaOut := 0, bases := x.bases.filter (fun y => y.cut ≠ x.cut), last := x.before,
    dones := x.dones.filter (fun d => d.1 ≠ x.cut),
    areas := x.areas.map (fun (a : ParArea) => if a.cut = x.cut then { a with touched := [], cut := 0 } else a) }

/-- The open cut is abandoned (R382, R399): its WP bits, copies, bases and pending halves go; drains that wait have no cut.
[log 105 DEDUCED] -/
def Block.abandonCut (b : Block) : Block :=
  if !b.cutHeld then b
  else
    let b := ((b.snap.regions.map b.snapPageList).flatten).foldl (fun b g => b.clearWp g) b
    let b : Block := { b with snap := b.snap.abandon }
    (b.mer.running.filter (fun c => c.pkt.opcode = 0x0B01)).foldl (fun b c => b.completeId c.id Status.badParam 0 0) b

/-- A stream stops (R382): the cut is STALLED, its protection and copies kept. [log 102 DEDUCED] -/
def Block.streamFail (k status : Nat) (b : Block) : Block :=
  if b.snap.st = .opened then
    { b with snap.st := .stalled,
             fab.reqs := b.fab.reqs.filter (fun r => match r.2.2 with | .stream _ _ _ => false | _ => true),
             host.reqs := b.host.reqs.filter (fun r => match r.2 with | .stream _ => false | _ => true) }.snapError status k 0 b.snap.cut
  else b

/-! ### SNAP_DRAIN (R388) -/

/-- [log 105 DEDUCED] -/
def Block.startSnapDrain (c : Cmd) (b : Block) : Block :=
  let cut := c.pkt.f 255 224
  let da := c.pkt.f 223 172
  let n := c.pkt.f 171 132
  if b.snap.cut ≠ cut || !b.cutHeld then b.refuse c Status.badParam 0
  else if b.snap.st = .done then b.done c b.snap.bytes
  else if b.snap.st = .opened then b.setWork c.id (.await 4 cut 0 0)
  else if !(isHost da || isPeer da) || da % 64 ≠ 0 || n % 64 ≠ 0 then b.refuse c Status.badParam 0
  else ({ b with snap.st := .opened, snap.bytes := 0 }.startStreams da n).setWork c.id (.await 4 cut 0 0)

/-! ### Writing streams (R386, R387) -/

def Block.setStream (s : SnapStream) (b : Block) : Block :=
  { b with snap.streams := b.snap.streams.map (fun x => if x.hidx = s.hidx then s else x) }

/-- The next frame of a stream: head, ciphertext and tag. -/
def SnapStream.frameBytes (s : SnapStream) (kind : Nat) (body : List Byte) : List Byte :=
  let head := leBytes 32 (fields [(224, 0x4D415246), (192, s.frame), (168, body.length), (166, kind)])
  let ct := xorBytes body (Config.gcmStream s.key s.frame body.length)
  head ++ ct ++ leBytes 16 (Config.gcmTag s.key s.frame (s.pre ++ head) ct)

/-- A segment: head, body, padding. -/
def segBytes (kind region index : Nat) (body : List Byte) : List Byte :=
  leBytes 16 (fields [(96, body.length), (64, index), (48, region), (40, kind)]) ++ body ++ zeros (pad16 body.length - body.length)

/-- The body of the next segment. -/
def Block.segBody (g : SnapCfg) (s : SnapStream) (t : SegTodo) (b : Block) : Option (List Byte) × Block :=
  match t.kind with
  | 0 => ((b.snap.images.find? (fun x => x.hidx = s.hidx)).map (fun x => x.led ++ leBytes 128 x.stepImg), b)
  | 1 =>
    match b.snap.regions[t.pos]?, b.train.table with
    | some r, some (base, _) => b.cutRead (scaleAddr base t.index) (128 * Nat.min 8191 (r.pages + r.records - t.index))
    | _, _ => (none, b)
  | _ =>
    match b.snap.regions[t.pos]? with
    | some r => b.pageSet g (pageOf r.da + t.index) t.index
    | none => (none, b)

/-- The segment a stream takes next: one whose page a write waits on, or else the first. -/
def Block.nextSeg (b : Block) (s : SnapStream) : Option SegTodo :=
  (s.todo.find? (fun t => t.kind = 2 && (match b.snap.regions[t.pos]? with
    | some r => b.snap.starved.contains (pageOf r.da + t.index)
    | none => false))).or s.todo.head?

/-- Form the next frame of a stream whose bytes have all left. -/
def Block.formFrame (g : SnapCfg) (s : SnapStream) (b : Block) : Option (SnapStream × Block) :=
  match b.nextSeg s with
  | none =>
    let body := leBytes 32 (fields [(64, regionCrc b.snap.regions s.hidx), (32, s.segs), (0, s.frame + 1)])
    some ({ s with buf := s.frameBytes 1 body, trailer := true, frame := s.frame + 1 }, b)
  | some t =>
    let region := if t.kind = 0 then 0 else match b.snap.regions[t.pos]? with | some r => r.region | none => 0
    match b.segBody g s t with
    | (some body, b) =>
      some ({ s with buf := s.frameBytes 0 (segBytes t.kind region t.index body), frame := s.frame + 1, segs := s.segs + 1,
                     todo := s.todo.erase t }, b)
    | (none, _) => none

/-- Is a stream ready on a path: bytes are left to write? -/
def SnapStream.ready (s : SnapStream) (path : Nat) : Bool :=
  decide (path = if isHost s.base then 0 else 2) && !s.complete && !(s.trailer && s.buf.isEmpty)

/-- After the trailer: the flushing read of a host destination. -/
def Block.streamFlush (s : SnapStream) (b : Block) : Block :=
  match regionOf s.base with
  | .host addr => if s.trailer && s.buf.isEmpty then b.askHost addr 64 (.stream s.hidx) else b
  | _ => b

/-- One grant of 2 KiB to a stream. -/
def Block.streamGrant (g : SnapCfg) (s : SnapStream) (b : Block) : Block :=
  match (if s.buf.isEmpty then b.formFrame g s else some (s, b)) with
  | none => b.streamFail s.hidx Status.memUncorrectable
  | some (s, b) =>
    let n := Nat.min 2048 s.buf.length
    if s.cap < s.off + n then (b.setStream s).streamFail s.hidx Status.hostAccessFail
    else
      let out := s.buf.take n
      let s1 := { s with buf := s.buf.drop n, off := s.off + n }
      let b := { b with snap.bytes := b.snap.bytes + n }
      match regionOf (s.base + s.off) with
      | .host addr => ((b.setStream s1).emit (.hostWrite addr out)).streamFlush s1
      | .peer ex rank off =>
        (b.setStream { s1 with acks := s1.acks + 1 }).post { Msg.zero with
          kind := Kind.peerWrite, src := b.primaryRank, dest := rank, vl := 6, length := n, offset := off, exp := ex, data := out }
          (some (.stream s.hidx s.off n))
      | _ => (b.setStream s).streamFail s.hidx Status.hostAccessFail

/-- STREAM_COMPLETE: the flushing read has completed, or the last WRITE_ACK has come. -/
def Block.streamComplete (k : Nat) (b : Block) : Block :=
  match b.snap.streams.find? (fun s => s.hidx = k) with
  | none => b
  | some s =>
    if b.snap.st = .opened && s.trailer && s.buf.isEmpty && s.acks = 0 && !s.complete then
      ({ b with host.reqs := b.host.reqs.filter (fun r => r.2 ≠ HostReq.stream k) }.setStream { s with complete := true }).cutTest
    else b

/-- STREAM_WRITE_FAIL. [log 102 DEDUCED] -/
def Block.streamWriteFail (k : Nat) (b : Block) : Block :=
  if b.snap.streams.any (fun s => s.hidx = k && !s.complete) then b.streamFail k Status.hostAccessFail else b

/-- A peer acknowledges stream bytes, or does not take them. [log 102 DEDUCED] -/
def Block.streamAnswer (k rank : Nat) (a : PeerAns) (b : Block) : Block :=
  let _ := rank
  match b.snap.streams.find? (fun s => s.hidx = k), a with
  | some s, .ack => b.setStream { s with acks := s.acks - 1 }
  | some _, .refused => b.streamFail k Status.addrUnmapped
  | some _, .unreachable => b.streamFail k Status.rankLost
  | _, _ => b

/-! ### Peer parity (R389, R391) -/

namespace Kind
def parityDelta : Nat := 8
def parityDone : Nat := 9
def fetch : Nat := 10
def fetchData : Nat := 11
end Kind

/-- After the last own delta is acknowledged: PARITY_DONE to the seven peers of every group. [log 107 DEDUCED] -/
def Block.parityTest (b : Block) : Block :=
  if b.cutHeld && b.snap.st ≠ .done && b.snap.deltas.isEmpty && b.snap.deltaOut = 0 && !b.snap.doneSent then
    (b.snap.areas.foldl (fun (b : Block) (a : ParArea) =>
      let l := b.groupIndex a
      ((b.groupOf a).zipIdx.filter (fun m => m.2 ≠ l)).foldl (fun (b : Block) (m : Nat × Nat) =>
        b.post { Msg.zero with
          kind := Kind.parityDone, src := (b.hosted[a.hidx]?).getD 0, dest := m.1, vl := 6, tree := a.tree, seq := b.snap.cut,
          node := l } none) b) { b with snap.doneSent := true }).cutTest
  else b

/-- Send one own delta: base of the previous cut XOR content at this one. [log 102, 103 DEDUCED] -/
def Block.sendDelta (hidx page : Nat) (b : Block) : Block :=
  match b.snap.areas.find? (fun a => a.hidx = hidx), b.snapRegionOf page with
  | some a, some r =>
    let x := page - pageOf r.da
    let l := b.groupIndex a
    let dest := (b.groupOf a).getD ((l + 1 + x % 7) % 8) 0
    let base := (b.snap.bases.find? (fun y => y.page = page && y.cut = b.snap.before)).bind (fun y => y.res)
    let old : Option (List Byte) × Block := match base with
      | none => (some (zeros 0x10000), b)
      | some g => (match b.memRead (0x10000 * g) 0x10000 with | (.data bs _, b) => (some bs, b) | (_, b) => (none, b))
    match old.1, old.2.cutRead (0x10000 * page) 0x10000 with
    | some o, (some n, b) =>
      { b with snap.deltas := b.snap.deltas.erase (hidx, page), snap.deltaOut := b.snap.deltaOut + 1 }.post { Msg.zero with
        kind := Kind.parityDelta, src := (b.hosted[hidx]?).getD 0, dest := dest, vl := 6, tree := a.tree, seq := b.snap.cut,
        shard := r.region, offset := 0x10000 * (x / 7), node := l, length := 0x10000, data := xorBytes o n } (some (.parity hidx))
    | _, (_, b) => b.streamFail hidx Status.memUncorrectable
  | _, _ => { b with snap.deltas := b.snap.deltas.erase (hidx, page) }.parityTest

/-- The area of a rank, and the position of a region's page row in it. -/
def Block.unitAt (b : Block) (rank region y : Nat) : Option (ParArea × Nat) :=
  let k := b.hosted.findIdx (· = rank)
  match b.snap.areas.find? (fun a => a.hidx = k), (b.unitBases k).find? (fun x => x.1.region = region) with
  | some a, some (r, base) => if y < ceilDiv r.pages 7 ∧ 2 * (base + y) + 1 < a.pages then some (a, base + y) else none
  | _, _ => none

/-- DA of a half of a position. -/
def Block.halfDa (b : Block) (a : ParArea) (pos half : Nat) : Nat := a.da + 0x10000 * (half * b.unitCount a.hidx + pos)

def Block.unreach (m : Msg) (b : Block) : Block :=
  b.post { Msg.zero with kind := Kind.unreach, src := m.dest, dest := m.src, vl := 6, rval := m.no } none

/-- PARITY_DELTA at a holder (R391). A delta of a later cut than the one whose half is pending waits for its COMMIT.
[log 107 DEDUCED] -/
def Block.parityDelta (src no : Nat) (b : Block) : Block :=
  match b.inMsg Kind.parityDelta src no with
  | none => b
  | some m =>
    match b.unitAt m.dest m.shard (m.offset / 0x10000) with
    | none => (b.dropMsg m).unreach m
    | some (a, pos) =>
      if !a.touched.isEmpty && a.cut ≠ m.seq then b
      else
        let h := a.halves.get 0 pos
        let first := !a.touched.contains pos
        let src := b.halfDa a pos (if first then h else 1 - h)
        match b.memRead src 0x10000 with
        | (.bad _, b) => (b.dropMsg m).unreach m
        | (.data bs _, b) =>
          let b := (b.dropMsg m).memWrite (b.halfDa a pos (1 - h)) (xorBytes bs m.data)
          let b : Block := { b with snap.areas := b.snap.areas.map (fun (x : ParArea) => if x.hidx = a.hidx then
            { x with cut := m.seq, touched := if first then pos :: x.touched else x.touched } else x) }
          b.ackMsg m true

/-- PARITY_DONE (R391). [log 107 DEDUCED] -/
def Block.parityDone (src no : Nat) (b : Block) : Block :=
  match b.inMsg Kind.parityDone src no with
  | none => b
  | some m =>
    let b := b.dropMsg m
    let d := (m.seq, m.tree, m.node)
    { b with snap.dones := if b.snap.dones.contains d then b.snap.dones else b.snap.dones ++ [d] }.cutTest

/-- An own delta is acknowledged. A refused one is never, and the cut cannot reach DONE. -/
def Block.deltaAnswer (a : PeerAns) (b : Block) : Block :=
  match a with
  | .ack => { b with snap.deltaOut := b.snap.deltaOut - 1 }.parityTest
  | _ => b

/-! ### PATH_GRANT (R306, R388) -/

/-- The stream that a grant on a path goes to: the first that is ready, in order of hosted index; a STALLED cut's streams have
stopped (R382). -/
def Block.streamTurn (b : Block) (path : Nat) : Option SnapStream :=
  if b.snap.st = .opened then b.snap.streams.find? (fun s => s.ready path) else none

/-- Is the snapshot drain ready on a path: a stream, or on the fabric path a parity delta, of the open or stalled cut?
[log 103 DEDUCED] -/
def Block.drainReady (b : Block) (path : Nat) : Bool :=
  (b.streamTurn path).isSome ||
    ((b.snap.st = .opened || b.snap.st = .stalled) && path = 2 && !b.snap.deltas.isEmpty)

/-- [log 64 DESIGN CHOICE; 65, 103 DEDUCED] -/
def Block.drainGrant (path : Nat) (b : Block) : Block :=
  match b.snap.cfg, b.streamTurn path with
  | some g, some s => b.streamGrant g s
  | _, _ => match b.snap.deltas with
    | d :: _ => if path = 2 then b.sendDelta d.1 d.2 else b
    | [] => b

/-- PATH_GRANT: a path grants 2 KiB to the snapshot drain or to the first ready tier command. A drain past its share with no
tier command ready gets nothing, and the run of the procedure counts as a grant it did not receive. [log 13, 64 DESIGN CHOICE] -/
def Block.pathGrant (path : Nat) (b : Block) : Block :=
  let last := b.tier.grants.get [] path
  let note (x : Bool) (b : Block) : Block := { b with tier.grants := b.tier.grants.set [] path ((x :: last).take 16) }
  if b.drainReady path && decide ((last.filter id).length < b.tier.share) then (b.drainGrant path) |> note true
  else if (b.tierNext path).isSome then (b.tierGrant path) |> note false
  else if b.drainReady path then note false b
  else b

def execPathGrant (path : Nat) (s : State) : Host.Outcome State Fault Refusal := s.run (Block.pathGrant path)
def execWpCopyDone (page : Nat) (s : State) : Host.Outcome State Fault Refusal := s.run (Block.wpCopy page)
def execStreamComplete (k : Nat) (s : State) : Host.Outcome State Fault Refusal := s.run (Block.streamComplete k)
def execStreamWriteFail (k : Nat) (s : State) : Host.Outcome State Fault Refusal := s.run (Block.streamWriteFail k)
def execParityDelta (src no : Nat) (s : State) : Host.Outcome State Fault Refusal := s.run (Block.parityDelta src no)
def execParityDone (src no : Nat) (s : State) : Host.Outcome State Fault Refusal := s.run (Block.parityDone src no)

end Sys2Proof.Machine
end

