-- ==== Sys2Proof/Machine/Recover.lean ====
section
/-!
DEFINITION. Recovery (R395 to R404): RESTORE of a checkpoint stream, FAILOVER ROLLBACK and REBUILD, and the fetches of
peer parity.
-/

namespace Sys2Proof.Machine

/-- Hosted index k becomes INVALID until a RESTORE of a kind ends it (R396, R399, R400). [log 110 DEDUCED] -/
def Block.invalidate (k why : Nat) (b : Block) : Block :=
  { b with train.invalid := b.train.invalid.filter (fun x => x ≠ (k, why)) ++ [(k, why)] }

/-- What keeps a recovery command from being accepted (R395, R398): a RUN, CONV, ATTN, UPDATE or tier command runs. -/
def Block.recoveryBusy (b : Block) : Bool :=
  b.mer.running.any (fun c => c.pkt.opcode = 0x0201 || c.pkt.cls = 3 || c.pkt.opcode = 0x0400 || c.pkt.opcode = 0x0401 ||
    c.pkt.opcode = 0x0800 || c.pkt.cls = 6)

/-! ### Corrections of a restored ledger (R397) -/

/-- The corrections of a ledger: the ledger, and the DETAILs of what was corrected, in order. [log 108 DEDUCED] -/
def Ledger.corrected (l : Ledger) : Ledger × List Nat :=
  let n := u64 (l.stepNext + 2 ^ 64 - l.stepBase)
  let detail (cursor : Bool) (i stored want : Nat) : Nat :=
    fields [(8, wrap 24 (sx 64 (stored + 2 ^ 64 - want))), (5, b2n cursor), (0, i)]
  let wantC (c : Cursor) : Nat := u64 (c.base + c.stride * n)
  let wantS (s : Stream) : Nat := u64 (s.base + s.draws * n)
  let cs := l.cursors.zipIdx
  let ss := l.streams.zipIdx
  ({ l with
      cursors := cs.map (fun x => if x.2 < l.ncur then { x.1 with pos := wantC x.1 } else x.1),
      streams := ss.map (fun x => if x.2 < l.nstr then { x.1 with ctr := wantS x.1 } else x.1) },
   ((cs.filter (fun x => decide (x.2 < l.ncur) && x.1.pos ≠ wantC x.1)).map (fun x => detail true x.2 x.1.pos (wantC x.1))) ++
   ((ss.filter (fun x => decide (x.2 < l.nstr) && x.1.ctr ≠ wantS x.1)).map (fun x => detail false x.2 x.1.ctr (wantS x.1))))

/-- Make a ledger live for a hosted index, corrected, with an error record for each correction. [log 108 DEDUCED] -/
def Block.restoreLedger (k : Nat) (l : Ledger) (b : Block) : Block × List Nat :=
  let r := l.corrected
  (r.2.foldl (fun b d => b.logError Status.ledgerCorrected 9 k d 0) (b.setLedger k (some r.1)), r.2)

/-! ### RESTORE: segments (R387, R395, R396) -/

def Cmd.rsCut (c : Cmd) : Nat := c.pkt.f 419 388
def Cmd.rsHidx (c : Cmd) : Nat := c.pkt.f 371 369
def Cmd.rsLedger (c : Cmd) : Bool := bit c.pkt.pnum 368
def Cmd.rsSnap (c : Cmd) : Bool := bit c.pkt.pnum 367
def Cmd.rsParity (c : Cmd) : Bool := bit c.pkt.pnum 366

/-- The page a record of a page outside a view spells. -/
def Rec.content (m : CMap) (r : Rec) : Option (List Byte) :=
  match r.kind with
  | 0 => some (zeros 4096)
  | 2 => if crc32c r.stream = r.crc && r.stream.length = 4096 then some r.stream else none
  | 1 =>
    match decodeStream m r.stream with
    | some (0, page) => if crc32c page = r.crc then some page else none
    | _ => none
  | _ => none

/-- Restore the records of a view page: dependents outside are decoded first, the old sectors freed, then the records put (R289,
R395). -/
def Block.restoreView (m : CMap) (v : Nat) (rs : List Rec) (b : Block) : Block :=
  let deps := ((List.range 16).map (fun i => v + i + m.fs)).filter (fun d =>
    m.fs ≠ 0 && decide (v + 16 ≤ d) && decide (d < m.pages) && (b.entry m d).kind = 1 && (b.entry m d).xform = 1)
  let kept := deps.map (fun d => (d, b.storedPage m d))
  let b := { b with codec.slots := b.codec.slots.filter (fun s => !(s.map = m.num && decide (v ≤ s.page) && decide (s.page < v + 16))) }
  let b := (List.range 16).foldl (fun b i => b.setEntry m (v + i) CEntry.zeroE) b
  let r := rs.foldl (fun (acc : Block × List Nat) r =>
    if acc.2.length < ceilDiv r.stream.length 512 then (acc.1.losePage m r.page, acc.2) else acc.1.putRec m r acc.2) (b, b.freeSectors m)
  kept.foldl (fun (b : Block) k =>
    match k.2 with
    | .ok bs _ =>
      let ref := match b.storedPage m (k.1 - m.fs) with | .ok x _ => some x | .fail _ _ _ => none
      (b.putPage m k.1 bs ref).1
    | .fail _ _ _ => b.losePage m k.1) r.1

/-- A page's segment: the DETAIL of its failure, or the block with its content where `take` says that it is selected. -/
def Block.restorePage (take : Bool) (page index : Nat) (body : List Byte) (b : Block) : Except Nat Block :=
  match b.viewOf page with
  | some (m, v) =>
    if !m.setOk v 16 body then .error 7
    else
      match m.parseSet 16 body with
      | some (rs, []) => if rs.map (fun r => r.page) ≠ (List.range 16).map (· + v) then .error 7
        else .ok (if take then (b.restoreView m v rs).clearWp page else b)
      | _ => .error 7
  | none =>
    match b.snap.cfg with
    | none => .error 6
    | some g =>
      let m := g.plainMap
      if !m.setOk (16 * index) 16 body then .error 7
      else
        match m.parseSet 16 body with
        | some (rs, []) =>
          match rs.mapM (Rec.content m) with
          | some ps => .ok (if take then (b.memWrite (0x10000 * page) ps.flatten).clearWp page else b)
          | none => .error 7
        | _ => .error 7

/-- One segment. The second part of the answer lists corrections of a restored ledger. [log 108 DEDUCED] -/
def Block.restoreSeg (c : Cmd) (kind region index : Nat) (body : List Byte) (b : Block) : Except Nat (Block × List Nat) :=
  let k := c.rsHidx
  match kind with
  | 0 =>
    if region ≠ 0 ∨ index ≠ 0 ∨ body.length ≠ 2176 then .error 6
    else if c.rsLedger then
      let r := b.restoreLedger k (Ledger.ofBytes (body.take 2048))
      .ok (r.1.setStepRec (leNat (body.drop 2048)), r.2)
    else .ok (b, [])
  | 1 =>
    match b.snap.regions.find? (fun r => r.hidx = k && r.region = region && r.method = 2), b.train.table with
    | some r, some (base, _) =>
      if body.length % 128 ≠ 0 ∨ index < r.pages ∨ r.pages + r.records < index + body.length / 128 then .error 6
      else if c.rsSnap then
        let da := scaleAddr base index
        .ok ((pagesOf da body.length).foldl (fun b g => b.clearWp g) (b.memWrite da body), [])
      else .ok (b, [])
    | _, _ => .error 6
  | 2 =>
    match b.snap.regions.find? (fun r => r.hidx = k && r.region = region && r.method ≠ 2) with
    | some r =>
      if r.pages ≤ index then .error 6
      else (b.restorePage (if r.isParity then c.rsParity else c.rsSnap) (pageOf r.da + index) index body).map (fun b => (b, []))
    | none => .error 6
  | _ => .error 6

/-- The segments of a data frame, in order: their number, the block and the corrections. -/
def Block.restoreSegs (c : Cmd) : Nat → List Byte → Block → Except Nat (Nat × Block × List Nat)
  | 0, _, _ => .error 6
  | fuel + 1, bs, b =>
    if bs.isEmpty then .ok (0, b, [])
    else
      let h := leNat (bs.take 16)
      let n := bits h 127 96
      if bs.length < 16 + pad16 n then .error 6
      else
        match b.restoreSeg c (bits h 47 40) (bits h 63 48) (bits h 95 64) ((bs.drop 16).take n) with
        | .error d => .error d
        | .ok (b, f1) =>
          match b.restoreSegs c fuel (bs.drop (16 + pad16 n)) with
          | .error d => .error d
          | .ok (m, b, f2) => .ok (m + 1, b, f1 ++ f2)

/-! ### RESTORE: preamble and frames (R385, R386, R396) -/

/-- The preamble's check: DETAIL of a failure, or the data key. -/
def Block.preambleKey (b : Block) (c : Cmd) (bs : List Byte) : Except Nat Nat :=
  let h := leNat bs
  if bits h 31 0 ≠ 0x50534E53 ∨ bits h 47 32 ≠ 1 ∨ bits h 479 448 ≠ c.rsCut ∨ bits h 447 432 ≠ c.pkt.f 387 372 ∨
      bits h 511 480 ≠ regionCrc b.snap.regions c.rsHidx then .error 1
  else if c.rsParity && !bit h 431 then .error 9
  else
    match (b.trust.prk.toList ++ b.trust.prkPrev.toList).filterMap (fun p => Config.keyUnwrap (ckptKey p) (bits h 1023 704)) with
    | key :: _ => .ok key
    | [] => .error 2

/-- A RESTORE fails (R396): its hosted index is INVALID. [log 108 DEDUCED] -/
def Block.restFail (c : Cmd) (status detail : Nat) (b : Block) : Block :=
  (b.invalidate c.rsHidx 0).completeId c.id status detail 0

/-- A RESTORE completes (R395 to R397). -/
def Block.restDone (c : Cmd) (w : RestWork) (b : Block) : Block :=
  let k := c.rsHidx
  let rolled : Bool := match b.snap.rolled with | some (n, _) => n = c.rsCut | none => false
  let b := { b with train.invalid := b.train.invalid.filter (fun x =>
    !(x.1 = k && (x.2 = 0 || (x.2 = 1 && c.rsSnap && rolled) || (x.2 = 2 && c.rsParity)))) }
  let b := if w.fixes = 0 then b else b.acquireLogged c.id Status.ledgerCorrected
  let b := if c.pkt.f 365 365 = 1 then b.acquire c.id Status.snapshotFallback else b
  b.completeId c.id Status.ok w.firstFix w.fixes

/-- Consume what has come of the stream, frame by frame. -/
def Block.restParse (c : Cmd) : Nat → RestWork → Block → Block
  | 0, w, b => b.setWork c.id (.restore w)
  | fuel + 1, w, b =>
    match w.key with
    | none =>
      if w.buf.length < 128 then b.setWork c.id (.restore w)
      else
        match b.preambleKey c (w.buf.take 128) with
        | .error d => b.restFail c Status.restoreBad d
        | .ok key => b.restParse c fuel { w with key := some key, pre := w.buf.take 128, buf := w.buf.drop 128 }
    | some key =>
      if w.buf.length < 32 then b.setWork c.id (.restore w)
      else
        let head := w.buf.take 32
        let h := leNat head
        let n := bits h 191 168
        if bits h 223 192 ≠ w.frame then b.restFail c Status.restoreBad 4
        else if bits h 255 224 ≠ 0x4D415246 ∨ 2 ≤ bits h 167 166 ∨ bits h 165 0 ≠ 0 ∨ n % 16 ≠ 0 ∨ n = 0 ∨ 1048576 < n then
          b.restFail c Status.restoreBad 3
        else if w.buf.length < 48 + n then b.setWork c.id (.restore w)
        else
          let ct := (w.buf.drop 32).take n
          if (w.buf.drop (32 + n)).take 16 ≠ leBytes 16 (Config.gcmTag key w.frame (w.pre ++ head) ct) then
            b.restFail c Status.restoreBad 3
          else
            let plain := xorBytes ct (Config.gcmStream key w.frame n)
            let w1 := { w with buf := w.buf.drop (48 + n), frame := w.frame + 1 }
            if bits h 167 166 = 1 then
              let t := leNat plain
              if n ≠ 32 ∨ bits t 95 64 ≠ regionCrc b.snap.regions c.rsHidx ∨ bits t 63 32 ≠ w.segs ∨ bits t 31 0 ≠ w1.frame then
                b.restFail c Status.restoreBad 5
              else b.restDone c w1
            else
              match b.restoreSegs c (n / 16 + 1) plain with
              | .error d => b.restFail c Status.restoreBad d
              | .ok (m, b, fs) =>
                b.restParse c fuel { w1 with
                  segs := w.segs + m, fixes := w.fixes + fs.length,
                  firstFix := if w.fixes = 0 then fs.headD 0 else w.firstFix }

/-- Ask for the next bytes of a stream; past SRC_BYTES the stream ends without its trailer, or in the midst of a frame. -/
def Block.restAsk (c : Cmd) (b : Block) : Block :=
  match b.cmd c.id with
  | none => b
  | some x =>
    match x.work with
    | .restore w =>
      let n := Nat.min 2048 (c.pkt.f 459 420 - w.got)
      let da := c.pkt.f 511 460 + w.got
      if n = 0 then b.restFail c Status.restoreBad (if w.key.isSome && w.buf.isEmpty then 5 else 8)
      else
        match regionOf da with
        | .host addr => b.askHost addr n (.restore c.id w.got n)
        | .peer ex rank off => b.post { Msg.zero with
            kind := Kind.readReq, src := b.primaryRank, dest := rank, vl := 6, length := n, offset := off, exp := ex }
            (some (.cmd c.id w.got n))
        | _ => b.restFail c Status.addrUnmapped 0
    | _ => b

/-- Bytes of the stream have come. -/
def Block.restArrive (id : Nat) (bs : List Byte) (b : Block) : Block :=
  match b.cmd id with
  | none => b
  | some c =>
    match c.work with
    | .restore w =>
      let w := { w with buf := w.buf ++ bs, got := w.got + bs.length }
      (b.restParse c (w.buf.length / 48 + 3) w).restAsk c
    | _ => b

def Block.restHostData (id : Nat) (r : Option (List Byte)) (b : Block) : Block :=
  match r, b.cmd id with
  | some bs, _ => b.restArrive id bs
  | none, some c => b.restFail c Status.hostAccessFail 0
  | none, none => b

def Block.restPeerAns (id rank : Nat) (a : PeerAns) (b : Block) : Block :=
  match b.cmd id with
  | none => b
  | some c =>
    match c.work, a with
    | .restore _, .data bs => b.restArrive id bs
    | .restore _, .refused => b.restFail c Status.addrUnmapped 0
    | .restore _, .unreachable => b.restFail c Status.rankLost rank
    | _, _ => b

/-- A RESTORE begins. [log 108 DEDUCED] -/
def Block.restBegin (c : Cmd) (b : Block) : Block :=
  let da := c.pkt.f 511 460
  if (b.snap.st ≠ .unconfigured && b.snap.st ≠ .idle) || b.stepIsOpen || b.recoveryBusy || b.hosted[c.rsHidx]? ≠ some (c.pkt.f 387 372) ||
      !(isHost da || isPeer da) then b.refuse c Status.badParam 0
  else
    (b.setWork c.id (.restore { buf := [], got := 0, key := none, pre := [], frame := 0, segs := 0, fixes := 0, firstFix := 0 })).restAsk c

/-! ### ROLLBACK (R399) -/

def Cmd.foCut (c : Cmd) : Nat := c.pkt.f 507 476
def Cmd.foLost (c : Cmd) : List Nat := (List.range (c.pkt.f 411 409)).map (fun k => c.pkt.f (16 * k + 427) (16 * k + 412))
def Cmd.foHidx (c : Cmd) : Nat := c.pkt.f 408 406

/-- Step 1: what waits on the fabric ends; recorded releases are dropped. [log 109 DEDUCED] -/
def Block.rollFabric (rank : Nat) (b : Block) : Block :=
  let b := b.fab.colls.foldl (fun b x => b.collEnd x Status.rankLost rank 0) b
  let b := (b.mer.running.filter (fun c => c.pkt.opcode = 0x0905 || c.pkt.opcode = 0x0906)).foldl (fun b c =>
    b.completeId c.id Status.rankLost rank 0) b
  { b with fab.releases := [] }.reap

/-- What step 3 writes: PARITY pages written since CUT, with the reserve page that holds them as they stood at it: the base of
CUT, or where there is none the base of the later cut that is abandoned. [log 109 DEDUCED] -/
def Block.rollPages (b : Block) (cut : Nat) : List (Nat × Nat) :=
  ((b.snap.regions.filter SnapRegion.isParity).map b.snapPageList).flatten.filterMap (fun g =>
    let at_ (n : Nat) : Option Nat := (b.snap.bases.find? (fun x => x.page = g && x.cut = n)).bind (fun x => x.res)
    ((at_ cut).or (if b.cutHeld then at_ b.snap.cut else none)).map (fun r => (g, r)))

/-- The cut in state DONE becomes what its holders keep: its halves are the committed ones, its images the retained ones.
[log 109 DEDUCED] -/
def SnapS.keepDone (x : SnapS) : SnapS :=
  { x with
    st := .idle, kept := x.images, images := [], streams := [], dones := x.dones.filter (fun d => d.1 ≠ x.cut),
    areas := x.areas.map (fun (a : ParArea) => if a.cut = x.cut then { a with
      halves := a.touched.foldl (fun (m : Sparse Nat) i => m.upd 0 i (fun h => 1 - h)) a.halves, touched := [], cut := 0 } else a) }

/-- [log 109 DEDUCED] -/
def Block.rollback (c : Cmd) (b : Block) : Block :=
  let cut := c.foCut
  let here : Bool := b.snap.st = .done && b.snap.cut = cut
  let images := if here then b.snap.images else b.snap.kept.filter (fun x => x.cut = cut)
  let committed : Bool := b.ledgerList.any (fun l => l.2.lastComplete = cut)
  if b.recoveryBusy || cut = 0 || !(here || committed) || images.isEmpty then b.refuse c Status.badParam 0
  else
    let b := b.rollFabric (c.foLost.headD 0)
    let pages := b.rollPages cut
    let b := if here then { b with snap := b.snap.keepDone } else b.abandonCut
    let b := pages.foldl (fun b x => b.memWrite (0x10000 * x.1) (b.peek (0x10000 * x.2) 0x10000)) b
    let b := { b with snap.bases := [] }
    let r := images.foldl (fun (acc : Block × List Nat) im =>
      match acc.1.ledger im.hidx with
      | none => acc
      | some old =>
        let x := acc.1.restoreLedger im.hidx { Ledger.ofBytes im.led with lastCut := old.lastCut, lastComplete := cut }
        (x.1, acc.2 ++ x.2)) (b, ([] : List Nat))
    let b := match images.head? with | some im => r.1.setStepRec im.stepImg | none => r.1
    let ks := ((b.snap.regions.filter (fun x => !x.isParity)).map (fun x => x.hidx)).eraseDups
    let b := ks.foldl (fun b k => b.invalidate k 1) b
    let step := match b.ledger 0 with | some l => l.stepNext | none => 0
    let b := { b with snap.rolled := some (cut, step) }
    let b := if r.2.isEmpty then b else b.acquireLogged c.id Status.ledgerCorrected
    b.completeId c.id Status.ok (r.2.headD 0) r.2.length

/-! ### Fetches (R391, R400) -/

/-- A page, or a committed unit, of a member that this module hosts, as it stands at a cut: none where it has opened a step
since its ROLLBACK to it, holds no such page, or cannot read it. -/
def Block.fetchLocal (rank cut level region off : Nat) (b : Block) : Option (List Byte) × Block :=
  let k := b.hosted.findIdx (· = rank)
  let ready : Bool := match b.snap.rolled, b.ledger k with
    | some (n, s), some l => n = cut && l.stepNext = s
    | _, _ => false
  let da : Option Nat :=
    if level = 1 then (b.unitAt rank region off).map (fun x => b.halfDa x.1 x.2 (x.1.halves.get 0 x.2))
    else (b.snap.regions.find? (fun r => r.isParity && r.hidx = k && r.region = region && decide (off < r.pages))).map (fun r =>
      r.da + 0x10000 * off)
  match ready, da with
  | true, some da =>
    match b.memRead da 0x10000 with
    | (.data bs _, b) => (some bs, b)
    | (.bad _, b) => (none, b)
  | _, _ => (none, b)

/-- FETCH at a member: FETCH_DATA, or UNREACH. -/
def Block.fetchMsg (src no : Nat) (b : Block) : Block :=
  match b.inMsg Kind.fetch src no with
  | none => b
  | some m =>
    match (b.dropMsg m).fetchLocal m.dest m.seq m.level m.shard (m.offset / 0x10000) with
    | (some bs, b) => b.post { Msg.zero with
        kind := Kind.fetchData, src := m.dest, dest := m.src, vl := 6, tree := m.tree, seq := m.seq, shard := m.shard,
        level := m.level, offset := m.offset, length := bs.length, data := bs } none
    | (none, b) => b.unreach m

/-! ### REBUILD (R400) -/

/-- What a chunk of a position is the XOR of: member, LEVEL, and page index or position (R389, R400). [log 110 DEDUCED] -/
def rebuildSources (l pages y c : Nat) : List (Nat × Nat × Nat) :=
  let page (p j : Nat) : Option (Nat × Nat × Nat) :=
    let x := 7 * y + (p + 7 - j) % 8
    if x < pages then some (j, 0, x) else none
  if c = 7 then ((List.range 8).filter (· ≠ l)).filterMap (page l)
  else
    let p := (l + 1 + c) % 8
    (p, 1, y) :: ((List.range 8).filter (fun j => j ≠ p && j ≠ l)).filterMap (page p)

/-- A REBUILD ends because a member is lost: the PARITY regions of its hosted index are INVALID. [log 110 DEDUCED] -/
def Block.rebuildLost (c : Cmd) (rank : Nat) (b : Block) : Block :=
  ((b.invalidate c.foHidx 2).completeId c.id Status.rankLost rank 0).reap

/-- Write the finished chunk of a position. -/
def Block.rebuildWrite (c : Cmd) (a : ParArea) (region y ch : Nat) (bs : List Byte) (b : Block) : Block :=
  match b.snap.regions.find? (fun r => r.isParity && r.hidx = c.foHidx && r.region = region) with
  | none => b
  | some r =>
    if ch = 7 then
      match b.unitAt ((b.hosted[c.foHidx]?).getD 0) region y with
      | some (_, pos) => b.memWrite (b.halfDa a pos (a.halves.get 0 pos)) bs
      | none => b
    else b.memWrite (r.da + 0x10000 * (7 * y + ch)) bs

/-- Go on to the next chunk: members hosted here are read at once, the others are asked. -/
def Block.rebuildNext (c : Cmd) (a : ParArea) : Nat → List (Nat × Nat × Nat) → Block → Block
  | 0, _, b => b
  | fuel + 1, todo, b =>
    match todo with
    | [] => b.completeId c.id Status.ok 0 0
    | (region, y, ch) :: rest =>
      let pages := match b.snap.regions.find? (fun r => r.isParity && r.hidx = c.foHidx && r.region = region) with
        | some r => r.pages | none => 0
      let members := b.groupOf a
      let srcs := rebuildSources (b.groupIndex a) pages y ch
      let here := srcs.filter (fun s => b.hosts (members.getD s.1 0))
      let far := srcs.filter (fun s => !b.hosts (members.getD s.1 0))
      let r := here.foldl (fun (acc : Except Nat (List Byte) × Block) s =>
        match acc.1 with
        | .error e => (.error e, acc.2)
        | .ok bs =>
          match acc.2.fetchLocal (members.getD s.1 0) c.foCut s.2.1 region s.2.2 with
          | (some x, b) => (.ok (xorBytes bs x), b)
          | (none, b) => (.error (members.getD s.1 0), b)) (.ok (zeros 0x10000), b)
      match r with
      | (.error rank, b) => (b.completeId c.id Status.badParam rank 0).reap
      | (.ok bs, b) =>
        if far.isEmpty then (b.rebuildWrite c a region y ch bs).rebuildNext c a fuel rest
        else
          let b := b.setWork c.id (.rebuild { todo := todo, acc := bs, waits := far, since := b.now })
          far.foldl (fun b s => b.post { Msg.zero with
            kind := Kind.fetch, src := (b.hosted[c.foHidx]?).getD 0, dest := members.getD s.1 0, vl := 6, tree := a.tree,
            seq := c.foCut, shard := region, level := s.2.1, offset := 0x10000 * s.2.2 } (some (.fetch c.id))) b

def Block.rebuildBegin (c : Cmd) (b : Block) : Block :=
  let k := c.foHidx
  match b.hosted[k]?, b.snap.areas.find? (fun a => a.hidx = k) with
  | some rank, some a =>
    if b.recoveryBusy || !c.foLost.contains rank || decide (8 ≤ b.groupIndex a) then b.refuse c Status.badParam 0
    else
      let b := if c.pkt.f 405 405 = 1 then b.logYield Status.rankLost rank 0 4 5 3 0 0 else b
      let todo := (b.snap.regions.filter (fun r => r.isParity && r.hidx = k)).map (fun r =>
        (List.range (ceilDiv r.pages 7)).map (fun y =>
          ((List.range 8).filter (fun ch => ch = 7 || decide (7 * y + ch < r.pages))).map (fun ch => (r.region, y, ch))))
      b.rebuildNext c a (todo.flatten.flatten.length + 1) todo.flatten.flatten
  | _, _ => b.refuse c Status.badParam 0

/-- FETCH_DATA (R400). -/
def Block.fetchData (src no : Nat) (b : Block) : Block :=
  match b.inMsg Kind.fetchData src no with
  | none => b
  | some m =>
    let b := b.dropMsg m
    match b.mer.running.find? (fun c => match c.work with | .rebuild _ => c.foCut = m.seq | _ => false) with
    | none => b
    | some c =>
      match c.work, b.snap.areas.find? (fun a => a.hidx = c.foHidx) with
      | .rebuild w, some a =>
        let member := (b.groupOf a).findIdx (· = m.src)
        let key := (member, m.level, m.offset / 0x10000)
        let mine : Bool := match w.todo with | (region, _, _) :: _ => region = m.shard | [] => false
        if !mine || !w.waits.contains key || m.tree ≠ a.tree then b
        else
          let b := { b with fab.reqs := b.fab.reqs.filter (fun r => !(r.2.2 = .fetch c.id && r.2.1 = m.src)) }
          let acc := xorBytes w.acc m.data
          let waits := w.waits.erase key
          match w.todo with
          | (region, y, ch) :: rest =>
            if waits.isEmpty then (b.rebuildWrite c a region y ch acc).rebuildNext c a (rest.length + 1) rest
            else b.setWork c.id (.rebuild { w with acc := acc, waits := waits })
          | [] => b
      | _, _ => b

/-- A fetch is refused by its member, or its rank is lost (R400). [log 110 DEDUCED] -/
def Block.fetchUnreach (id member src : Nat) (b : Block) : Block :=
  match b.cmd id with
  | none => b
  | some c =>
    if src = member then (b.completeId id Status.badParam member 0).reap else b.rebuildLost c member

/-- REBUILD_FETCH_TIMEOUT (R400). [log 12 DESIGN CHOICE] -/
def Block.rebuildTimeout (b : Block) : Block :=
  match b.mer.running.find? (fun c => match c.work with | .rebuild w => !w.waits.isEmpty && decide (w.since + 25000000 ≤ b.now) | _ => false) with
  | none => b
  | some c =>
    match c.work, b.snap.areas.find? (fun a => a.hidx = c.foHidx) with
    | .rebuild w, some a => b.rebuildLost c ((b.groupOf a).getD ((w.waits.head?).getD (0, 0, 0)).1 0)
    | _, _ => b

/-! ### One recovery at a time (R398) -/

def Block.recoverBegin (c : Cmd) (b : Block) : Block :=
  if c.pkt.opcode = 0x0B02 then b.restBegin c
  else
    let n := c.pkt.f 411 409
    if n = 0 ∨ 4 < n then b.refuse c Status.badParam 0
    else
      match c.pkt.f 511 508 with
      | 0 => b.rollback c
      | 1 => b.rebuildBegin c
      | _ => b.refuse c Status.badParam 0

/-- Begin the recovery commands that wait, while none runs. -/
def Block.recoverKick : Nat → Block → Block
  | 0, b => b
  | fuel + 1, b =>
    let runs (c : Cmd) : Bool := match c.work with | .restore _ => true | .rebuild _ => true | _ => false
    if b.mer.running.any runs then b
    else
      match b.mer.running.find? (fun c => c.work = .await 6 0 0 0) with
      | some c => (b.recoverBegin c).recoverKick fuel
      | none => b

/-- RESTORE and FAILOVER at dispatch. -/
def Block.startRecovery (c : Cmd) (b : Block) : Block :=
  (b.setWork c.id (.await 6 0 0 0)).recoverKick (b.mer.running.length + 1)

def execFetch (src no : Nat) (s : State) : Host.Outcome State Fault Refusal := s.run (Block.fetchMsg src no)
def execFetchData (src no : Nat) (s : State) : Host.Outcome State Fault Refusal := s.run (Block.fetchData src no)
def execRebuildFetchTimeout (s : State) : Host.Outcome State Fault Refusal := s.run Block.rebuildTimeout

/-! ### Answers to this module's messages (R353, R364) -/

/-- Hand an answer to who waits for it. -/
def Block.peerAnswer (dest : Nat) (r : PeerReq) (a : PeerAns) (b : Block) : Block :=
  match r with
  | .move t x g => b.movePeerAns t x g a
  | .cmd id off _ => ((b.tierPeerAns id off dest a).p2pAnswer id off dest a).restPeerAns id dest a
  | .coll id d =>
    match a with
    | .ack => b.collAck id d
    | .data _ => b
    | _ => b.collUnreach id d
  | .stream k _ _ => b.streamAnswer k dest a
  | .parity _ => b.deltaAnswer a
  | .fetch _ => b

/-- WRITE_ACK. -/
def Block.writeAck (src no : Nat) (b : Block) : Block :=
  match b.inMsg Kind.writeAck src no with
  | none => b
  | some m =>
    match (b.dropMsg m).takeReq m.rval with
    | (some (dest, r), b) => b.peerAnswer dest r (if m.rop = 1 then .ack else .refused)
    | (none, b) => b

/-- READ_RSP: no data is a refusal. -/
def Block.readRsp (src no : Nat) (b : Block) : Block :=
  match b.inMsg Kind.readRsp src no with
  | none => b
  | some m =>
    match (b.dropMsg m).takeReq m.rval with
    | (some (dest, r), b) => b.peerAnswer dest r (if m.data.isEmpty then .refused else .data m.data)
    | (none, b) => b

/-- UNREACH. -/
def Block.unreachMsg (src no : Nat) (b : Block) : Block :=
  match b.inMsg Kind.unreach src no with
  | none => b
  | some m =>
    match (b.dropMsg m).takeReq m.rval with
    | (some (dest, .fetch id), b) => b.fetchUnreach id dest m.src
    | (some (dest, r), b) => b.peerAnswer dest r .unreachable
    | (none, b) => b

def execWriteAck (src no : Nat) (s : State) : Host.Outcome State Fault Refusal := s.run (Block.writeAck src no)
def execReadRsp (src no : Nat) (s : State) : Host.Outcome State Fault Refusal := s.run (Block.readRsp src no)
def execUnreach (src no : Nat) (s : State) : Host.Outcome State Fault Refusal := s.run (Block.unreachMsg src no)

end Sys2Proof.Machine
end

