-- ==== Sys2Proof/Machine/Job.lean ====
section
/-!
DEFINITION. The job (R254, R414, R415, R420, R62): what JOB_BIND and JOB_RESET clear, draw and destroy; and what a trust
failure does (R423).
-/

namespace Sys2Proof.Machine

/-! ### What ends with a job -/

/-- Does a byte of storage belong to a CLASS 4 page, which JOB_BIND and JOB_RESET leave alone (R254)? -/
def Block.inRingPage (b : Block) (da : Nat) : Bool := decide (da < hbmTop) && attrClass (b.attr (pageOf da)) = 4

/-- The Filter Wheel's user slots and CHANGES return to 0 (R106); a change of FW_TABLE_REV is an Almanac change (R67). -/
def Block.clearWheel (b : Block) : Block :=
  let changed := b.fw.changes ≠ 0
  let b : Block := { b with fw := { slots := [], changes := 0 } }
  if changed then b.almanacChange Status.ok 0 0 0 0 else b

/-- Memory, views, pool, tables, trees, windows, Tally units, ledgers and counters of a job go (R62, R66, R106, R136, R234,
R254, R273, R293, R303, R311, R364, R366, R379, R456). [log 117 DEDUCED] -/
def Block.clearJob (b : Block) : Block :=
  let b : Block := { b with
    mem := { b.mem with
      attrs := b.mem.attrs.filter (fun e => attrClass e.2 = 4),
      bytes := b.mem.bytes.filter (fun e => b.inRingPage e.1),
      errs := b.mem.errs.filter (fun e => b.inRingPage (16 * e.1)), walks := [], touched := [] },
    codec := { Codec.zero with clock := b.codec.clock },
    pool := none, train := Train.zero, tier := { b.tier with ledger := [], ctr := 1, grants := [] },
    csu := [], mer := { b.mer with sync := [], syncPending := [] }, sid.timeDue := [],
    snap := { SnapS.zero with waits := b.snap.waits, bytes := b.snap.bytes },
    fab := { b.fab with primary := none, emul := [], routes := [], trees := [], exports := [], colls := [], releases := [],
                        reqs := [], inbox := [], partials := [], doneMsgs := [] } }
  b.clearWheel

/-- The port keys go: ports carry only IDLE and SHUTTER flits (R354, R420). -/
def Port.dropKeys (p : Port) : Port :=
  { p with txKey := none, rxKey := none, txNext := none, keyCmd := none, queues := [], replay := [], resend := none }

/-- Every key of a job goes: domains 0 to 14, tier key, job secret, port keys (R420). [log 118 DEDUCED] -/
def Block.dropKeys (b : Block) : Block :=
  { b with
    trust := { b.trust with
      domainKeys := b.trust.domainKeys.filter (fun e => e.1 = 15), tierKey := none, tierSalt := 0, secretSet := false,
      generation := 0, prk := none, prkPrev := none, sessions := [] },
    fab.ports := b.fab.ports.map (fun (e : Nat × Port) => (e.1, e.2.dropKeys)) }

/-- Every counter operation issued takes effect (R62). [log 117 DEDUCED] -/
def Block.flushSync (b : Block) : Block :=
  (b.mer.syncPending.map (fun o => o.ctr)).eraseDups.foldl (fun b c => b.syncEffect c) b

/-- TDISP and what moves it to ERROR (R436). [log 135 DEDUCED] -/
def Block.tdispError (b : Block) : Block :=
  if b.host.tdisp = Tdisp.locked || b.host.tdisp = Tdisp.run then { b with host.tdisp := .error } else b

/-! ### JOB_RESET (R420) -/

/-- The effects of JOB_RESET in the cycle it is validated; `me` is the command itself. [log 117 DEDUCED] -/
def Block.jobReset (me : Option Nat) (b : Block) : Block :=
  let b := b.haltWhere (fun c => c.isPreempt && some c.id ≠ me) Status.jobHalt
  let b := b.haltWhere (fun c => some c.id ≠ me) Status.jobHalt
  let b := (b.abortAllHeld Status.jobHalt).reap
  let b := b.flushSync.dropKeys.clearJob.tdispError
  { b with trust := { b.trust with job := 0, sealedReq := false, ownerDigest := 0 } }

/-! ### JOB_BIND (R414) -/

def bindOwner (p : Packet) : Nat := p.f 511 128
def bindSecret (p : Packet) : Nat := p.f 895 512

/-- The first condition that refuses a JOB_BIND, as its DETAIL. -/
def Block.bindBar (b : Block) (p : Packet) : Option Nat :=
  let sealed_ := bit p.pnum 32
  if b.sid.state ≠ SidState.locked then some b.sid.state.code
  else if p.f 31 0 = 0 then some 0x10
  else if sealed_ && bindOwner p = 0 then some 0x11
  else if sealed_ && bindSecret p ≠ 0 then some 0x12
  else if b.trust.debugLevel = 2 || (b.trust.debugLevel = 1 && sealed_) then some 0x13
  else if b.jtag.ir = 0 || (decide (4 ≤ b.jtag.ir) && decide (b.jtag.ir ≤ 7)) then some 0x14
  else none

/-- New keys of memory domains 0 to 14 (R414). -/
def Block.drawDomains (b : Block) : Block :=
  (List.range 15).foldl (fun (b : Block) d =>
    let r := b.draw 512
    { r.2 with trust.domainKeys := r.2.trust.domainKeys.set none d (some r.1) }) b

/-- UP ports train anew after a change of generation (R415). -/
def Block.retrainPorts (b : Block) : Block :=
  { b with fab.ports := b.fab.ports.map (fun (e : Nat × Port) => (e.1, if e.2.st.isUp then { e.2 with st := .train } else e.2)) }

/-- [log 117 DEDUCED] -/
def Block.startJobBind (c : Cmd) (b : Block) : Block :=
  let p := c.pkt
  match b.bindBar p with
  | some d => b.refuse c Status.badParam d
  | none =>
    let b := b.flushSync.clearJob.dropKeys.drawDomains
    let k := b.draw 256
    let s := k.2.draw 32
    let b := s.2
    let secret := bindSecret p
    let b : Block := { b with
      trust := { b.trust with
        job := p.f 31 0, sealedReq := bit p.pnum 32, ownerDigest := bindOwner p, tierKey := some k.1, tierSalt := s.1,
        secretSet := secret ≠ 0, generation := if secret = 0 then 0 else 1,
        prk := if secret = 0 then none else some (jobPrk (p.f 31 0) 1 (leBytes 48 secret)) },
      mem := { b.mem with ceCount := 0, ueCount := 0, scrubPasses := 0, passEpochs := 4096, patrolEn := true },
      tier := { b.tier with late := 0, outBytes := 0, inBytes := 0 },
      fab.ports := b.fab.ports.map (fun (e : Nat × Port) => (e.1, { e.2 with replays := 0, corr := 0, unc := 0 })) }
    (if secret = 0 then b else b.retrainPorts).done c 0

/-! ### Trust failure (R423) -/

/-- In the cycle it is latched: every key but those of domain 15 and the system area, the per-boot tree and the sessions go;
then Shutter. An open cut is given up (R34). The time of the PHASE change is a free value. [log 118 DEDUCED] -/
def Block.trustFailure (b : Block) : Block :=
  let plainC (c : Cmd) : Cmd := { c with sealedOk := none }
  let b := b.dropKeys.tdispError
  let t := b.free 32
  let b : Block := if b.boot.phase = Phase.trustFailed then b else { t.2 with boot.timeUs := t.1 }
  let b : Block := { b with
    trust := { b.trust with bootSeed := none, bootUsed := 1024, pbCert := [], bootState := 4, spdmSessions := 0 },
    boot.phase := .trustFailed,
    host := { b.host with ideKeys := [], ideSel := false, ideLink := false },
    mer := { b.mer with
      running := b.mer.running.map plainC,
      rings := b.mer.rings.map (fun (e : Nat × Ring) => (e.1, { e.2 with held := e.2.held.map plainC })) } }
  let cut := b.snap.st = SnapState.opened || b.snap.st = SnapState.stalled
  let b := if cut then b.abandonCut.snapError Status.trustFail 0 0 b.snap.cut else b
  let b := b.haltWhere (fun c => c.pkt.opcode = 0x0B01) Status.inShutter
  b.latchCause 2 Status.trustFail

def execTrustFailure (s : State) : Host.Outcome State Fault Refusal := s.run Block.trustFailure
/-- The trust engine's known-answer self-test, with its outcome. -/
def execTrustKat (ok : Bool) (s : State) : Host.Outcome State Fault Refusal :=
  s.run (fun b => if ok || !b.hubUp then b else b.trustFailure)

end Sys2Proof.Machine
end

