-- ==== Sys2Proof/Machine/Trust.lean ====
section
/-!
DEFINITION. The trust engine (spec/17): signed objects and boot verification (R406 to R409), measurements (R411), attestation
(R413), sealed sessions (R416, R417), key rotation (R419), debug unlock (R421, R422).
-/

namespace Sys2Proof.Machine

/-- Bytes brought to a length. -/
def fit (n : Nat) (bs : List Byte) : List Byte := (bs ++ zeros n).take n

/-! ### Signed objects (R406 to R408) -/

/-- A little-endian field of an object. -/
def oField (bs : List Byte) (off n : Nat) : Nat := leNat ((bs.drop off).take n)
def oBodyLen (bs : List Byte) : Nat := oField bs 0x8 4
def oSigLen (bs : List Byte) : Nat := oField bs 0xC 4
def oLen (bs : List Byte) : Nat := 256 + oBodyLen bs + oSigLen bs
def oHead (bs : List Byte) : List Byte := bs.take 256
def oBody (bs : List Byte) : List Byte := (bs.drop 256).take (oBodyLen bs)
def oSig (bs : List Byte) : List Byte := (bs.drop (256 + oBodyLen bs)).take (oSigLen bs)
def oSvn (bs : List Byte) : Nat := oField bs 0x10 1
def oRaise (bs : List Byte) : Bool := bit (oField bs 0x11 1) 0

/-- Is the header of a KIND well formed (check 1 of R408)? -/
def oHeadOk (kind sigLen : Nat) (bs : List Byte) : Bool :=
  decide (oLen bs ≤ bs.length) && oField bs 0 4 = 0x4A424F53 && oField bs 4 2 = 1 && oField bs 6 2 = kind &&
    oBodyLen bs ≠ 0 && oBodyLen bs % 64 = 0 && oSigLen bs = sigLen && decide (oSvn bs ≤ 63) &&
    oField bs 0x11 1 / 2 = 0 && (kind = 1 || !oRaise bs) && oField bs 0x12 6 = 0 && oField bs 0x24 28 = 0 && oField bs 0x70 144 = 0

/-- The two signatures over the header. -/
def oEcdsaOk (pub bs : List Byte) : Bool := Config.ecdsaVerify pub ((oSig bs).take 96) (oHead bs)
def oLmsOk (pub bs : List Byte) : Bool := Config.lmsVerify pub ((oSig bs).drop 96) (oHead bs)
def oDigestOk (bs : List Byte) : Bool := oField bs 0x40 48 = Config.sha384 (oBody bs)
def oBindOk (bs : List Byte) : Bool := oField bs 0x18 8 = 0 || oField bs 0x18 8 = Config.deviceId

/-! The body of a signing certificate (R407). -/
def cKeyId (cert : List Byte) : Nat := oField (oBody cert) 0 4
def cPermit (cert : List Byte) : Nat := oField (oBody cert) 4 4
def cMinSvn (cert : List Byte) : Nat := oField (oBody cert) 8 1
def cEcdsa (cert : List Byte) : List Byte := ((oBody cert).drop 0x28).take 96
def cLms (cert : List Byte) : List Byte := ((oBody cert).drop 0x88).take 56

/-- The certificate and the image of a boot bundle (R482). -/
def bundleCert (bs : List Byte) : List Byte := bs.take (oLen bs)
def bundleImage (bs : List Byte) : List Byte :=
  let rest := bs.drop (64 * ceilDiv (oLen bs) 64)
  rest.take (oLen rest)

/-- The first failing check of R408 on a bundle, none where every check passes. -/
def Block.bootCheck (b : Block) (bs : List Byte) : Option Nat :=
  let cert := bundleCert bs
  let image := bundleImage bs
  let root := oField cert 0x20 4
  let checks : List (Nat × Bool) := [
    (1, oHeadOk 2 5172 cert && oHeadOk 1 2764 image),
    (2, decide (root < 4) && !bit b.trust.rootRevoke root),
    (3, oEcdsaOk (Config.vendorRootEcdsa root) cert),
    (4, oLmsOk (Config.vendorRootHss root) cert),
    (5, oDigestOk cert && oBindOk cert),
    (6, oField image 0x20 4 = cKeyId cert && bit (cPermit cert) 1),
    (7, oEcdsaOk (cEcdsa cert) image),
    (8, oLmsOk (cLms cert) image),
    (9, oDigestOk image && oBindOk image),
    (10, decide (b.trust.svnFused ≤ oSvn image) && decide (cMinSvn cert ≤ oSvn image))]
  (checks.find? (fun x => !x.2)).map (fun x => x.1)

/-! ### Measurements (R411) -/

/-- Per-boot leaves left (R410). -/
def Trust.bootLeft (t : Trust) : Nat := if t.bootSeed.isSome then 1024 - t.bootUsed else 0

/-- The value of measurement i. [log 119 DEDUCED] -/
def Trust.measure (t : Trust) (i : Nat) : List Byte :=
  match i with
  | 1 => leBytes 48 Config.romDigest
  | 2 => leBytes 48 t.certDigest
  | 3 => leBytes 48 t.imageDigest
  | 4 => leBytes 1 t.svnFused ++ leBytes 1 t.svnImage
  | 5 => [0]
  | 6 => if t.pbCert.isEmpty then zeros 2788 else leBytes 4 t.bootQ ++ t.pbCert
  | _ => if t.job = 0 then leBytes 1 t.debugLevel ++ zeros 55
         else leBytes 1 t.debugLevel ++ leBytes 4 t.job ++ leBytes 1 (b2n t.sealedReq) ++ leBytes 48 t.ownerDigest ++
           leBytes 1 (b2n t.secretSet) ++ [0]

/-- A signature by the next leaf of the per-boot tree, which is then used. -/
def Block.pbSign (msg : List Byte) (b : Block) : List Byte × Block :=
  (fit 2508 (Config.lmsSign (b.trust.bootSeed.getD 0) b.trust.bootUsed msg), { b with trust.bootUsed := b.trust.bootUsed + 1 })

def deviceSign (msg : List Byte) : List Byte := fit 96 (Config.ecdsaSign Config.deviceEcdsaKey msg)

/-! ### ATTEST (R413) -/

/-- Bytes +0x000 to +0x197 of a report. -/
def Block.reportHead (b : Block) (nonce : List Byte) : List Byte :=
  let t := b.trust
  leBytes 4 0x54535441 ++ leBytes 4 1 ++ leBytes 8 Config.deviceId ++ leBytes 8 b.now ++ leBytes 4 t.job ++
    leBytes 4 (fields [(2, t.debugLevel), (1, b2n t.secretSet), (0, b2n t.sealedReq)]) ++ fit 32 nonce ++
    ([1, 2, 3, 4, 5, 6, 7].map (fun i => leBytes 48 (Config.sha384 (t.measure i)))).flatten ++
    leBytes 4 t.bootQ ++ leBytes 4 t.bootUsed

def Block.startAttest (c : Cmd) (b : Block) : Block :=
  let da := c.pkt.f 307 256
  if da % 64 ≠ 0 then b.refuse c Status.badParam 0
  else match rspStatus da 5796 with
  | some st => b.refuse c st 0
  | none =>
    if b.trust.bootLeft = 0 then b.refuse c Status.badParam 0x21
    else
      let head := b.reportHead (c.pkt.params.take 32)
      let lms := b.pbSign head
      lms.2.respond c da (head ++ deviceSign head ++ lms.1 ++ fit 2784 b.trust.pbCert) 0 5796

/-! ### Sealed sessions (R416, R417) -/

/-- The first condition that refuses a SESSION_OPEN. -/
def Block.sessionBar (b : Block) (p : Packet) : Option Nat :=
  let num := p.f 47 32
  let pub := (p.params.drop 0x140).take 96
  if p.f 31 0 ≠ b.trust.job || Config.sha384 pub ≠ b.trust.ownerDigest then some 1
  else if num = 0 || (b.session num).isSome || decide (8 ≤ b.trust.sessions.length) then some 2
  else if !Config.ecdsaVerify pub ((p.params.drop 0xA0).take 96) (p.params.take 0xA0 ++ pub ++ leBytes 8 Config.deviceId) then some 3
  else if b.trust.bootLeft = 0 then some 4
  else none

def Block.startSessionOpen (c : Cmd) (b : Block) : Block :=
  let p := c.pkt
  let da := p.f 127 76 * 0x1000
  match b.sessionBar p with
  | some d => b.refuse c Status.badParam d
  | none =>
    match rspStatus da 5852 with
    | some st => b.refuse c st 0
    | none =>
      let eph := b.draw 384
      let non := eph.2.draw 256
      let nonce := leBytes 32 non.1
      let ownerEph := (p.params.drop 0x40).take 96
      let ownerNonce := (p.params.drop 0x20).take 32
      let prk := Config.hkdfExtract (ownerNonce ++ nonce) (Config.ecdhX eph.1 ownerEph)
      let num := leBytes 2 (p.f 47 32)
      let head := fit 96 (Config.ecdsaPub eph.1) ++ nonce ++ num ++ zeros 6
      let msg := head ++ ownerEph ++ ownerNonce
      let lms := non.2.pbSign msg
      let s : Session := {
        num := p.f 47 32, key := Config.hkdfExpand prk (ascii "A9 seal" ++ num) 32,
        salt := Config.hkdfExpand prk (ascii "A9 salt" ++ num) 4, last := 0, fails := 0 }
      let b : Block := { lms.2 with trust.sessions := lms.2.trust.sessions ++ [s] }
      b.respond c da (head ++ deviceSign msg ++ lms.1 ++ fit 2784 b.trust.pbCert ++ leBytes 48 (Config.sha384 p.params) ++ zeros 280)
        0 5852

def Block.closeSession (n : Nat) (b : Block) : Block :=
  { b with trust.sessions := b.trust.sessions.filter (fun s => s.num ≠ n) }

/-- May a SESSION_CLOSE close: is it sealed in the session it names? [log 27 DEDUCED] -/
def Cmd.closesOwn (c : Cmd) : Bool := c.sealedOk.isSome && c.pkt.session = c.pkt.f 15 0

/-- SESSION_CLOSE, whose close took effect at its validation. [log 27 DEDUCED] -/
def Block.startSessionClose (c : Cmd) (b : Block) : Block :=
  if c.closesOwn then b.done c 0
  else if c.sealedOk.isNone then b.refuse c Status.notSealed 0
  else b.refuse c Status.badParam 0

/-! ### KEY_ROTATE (R419) -/

/-- TARGET 0: NEW is drawn and the domain's walker runs. [log 120 DEDUCED] -/
def Block.rotateDomain (c : Cmd) (b : Block) : Block :=
  let d := c.pkt.f 123 120
  if d = 15 then b.refuse c Status.badParam 0
  else
    let k := b.draw 512
    let b := k.2
    let w : Walk := {
      domain := d, cmd := c.id, touches := [d], pos := 0, last := pageOf hbmTop, gran := 0, move := none,
      old := some ((b.trust.domainKeys.get none d).getD 0) }
    { b with trust.domainKeys := b.trust.domainKeys.set none d (some k.1), mem.walks := b.mem.walks ++ [w] }

/-- TARGET 1: each named UP port sends KEYCHG with a fresh NONCE. [log 120 DEDUCED] -/
def Block.rotatePorts (c : Cmd) (b : Block) : Block :=
  let ms := (maskList 8 (c.pkt.f 119 112)).filter (fun m => (b.port m).st.isUp && (b.port m).txKey.isSome && !(b.port m).failed)
  match b.trust.prk with
  | none => b.done c 0
  | some prk =>
    if ms.isEmpty then b.done c 0
    else if ms.any (fun m => (b.port m).keyCmd.isSome) then b.setWork c.id .scaleWait
    else
      ms.foldl (fun (b : Block) m =>
        let r := b.draw 256
        let k := portKey prk Config.deviceId (b.port m).peerId (leBytes 32 r.1)
        (r.2.onPort m (fun p => { p with txNext := some k, keyCmd := some c.id })).queueLocal m 4 r.1 2)
        (b.setWork c.id (.await 8 0 0 0))

/-- TARGET 2: a new generation of the job secret. [log 120 DEDUCED] -/
def Block.rotateSecret (c : Cmd) (b : Block) : Block :=
  let t := b.trust
  let g := if t.secretSet then t.generation + 1 else 1
  let b : Block := { b with trust := { t with
    prkPrev := t.prk, prk := some (jobPrk t.job g (leBytes 48 (c.pkt.f 511 128))), generation := g, secretSet := true } }
  b.retrainPorts.done c (g % 2 ^ 32 * 2 ^ 32)

/-- [log 120 DEDUCED] -/
def Block.startKeyRotate (c : Cmd) (b : Block) : Block :=
  match c.pkt.f 127 124 with
  | 0 => b.rotateDomain c
  | 1 => b.rotatePorts c
  | 2 => b.rotateSecret c
  | _ => b.refuse c Status.badParam 0

/-! ### DEBUG_UNLOCK (R421, R422) -/

/-- Does a grant verify under the certificate of this boot, for this device and this nonce? [log 121 DEDUCED] -/
def Block.grantOk (b : Block) (bs : List Byte) : Bool :=
  let cert := b.trust.certBody
  oHeadOk 3 2764 bs && oField bs 0x20 4 = cKeyId cert && bit (cPermit cert) 3 && oEcdsaOk (cEcdsa cert) bs && oLmsOk (cLms cert) bs &&
    oDigestOk bs && oField bs 0x18 8 = Config.deviceId && decide (b.trust.svnFused ≤ oSvn bs) && decide (cMinSvn cert ≤ oSvn bs) &&
    oField (oBody bs) 32 32 = b.trust.debugNonce

/-- May a level be granted now (R422)? [log 121 DEDUCED] -/
def Block.levelOk (b : Block) (l : Nat) : Bool :=
  (l = 1 && (b.trust.job = 0 || !b.trust.sealedReq)) || (l = 2 && b.trust.job = 0)

/-- [log 121 DEDUCED] -/
def Block.startDebugUnlock (c : Cmd) (b : Block) : Block :=
  let bs := c.pkt.params
  let l := oField (oBody bs) 0 1
  let ok := b.grantOk bs && b.levelOk l
  let r := b.draw 256
  let b : Block := { r.2 with trust.debugNonce := r.1 }
  if ok then ({ b with trust.debugLevel := Nat.max b.trust.debugLevel l } : Block).done c 0
  else b.refuse c Status.debugLocked 0

/-- PLEN that a DEBUG_UNLOCK must have: its own header's sum, none below 256 bytes. -/
def grantLen (bs : List Byte) : Option Nat := if bs.length < 256 then none else some (oLen bs)

end Sys2Proof.Machine
end

