-- ==== Sys2Proof/Machine/Boot.lean ====
section
/-!
DEFINITION. Resets and start-up (spec/21, R434): what each reset keeps, the boot ROM's phases, self-test and tile numbering.
-/

namespace Sys2Proof.Machine

/-! ### Module resets (R262, R358, R478) -/

/-- Physical tile k of Qq, as one number. -/
def physNo (n phys : Nat) : Nat := 38 * (n / 36) + phys

/-- The pseudo-channels after a reset: MIGRATING and QUEUED ones are RETIRED in queue order, the ninth and later FENCED; erasure
pins stay. [log 49 DEDUCED] -/
def MemSys.kept (m : MemSys) : Sparse Pc × List Nat :=
  let pcs := m.pcs.map (fun (e : Nat × Pc) =>
    (e.1, { e.2 with counts := [], st := if e.2.st = .migrating then .retired else e.2.st }))
  m.migQueue.foldl (fun (acc : Sparse Pc × List Nat) h =>
    if acc.2.length < 8 then (acc.1.upd Pc.zero h (fun p => { p with st := .retired }), acc.2 ++ [h])
    else (acc.1.upd Pc.zero h (fun p => { p with st := .fenced }), acc.2)) (pcs, m.retired)

/-- A port after a reset: retired lanes and a retired port stay so. -/
def Port.kept (p : Port) : Port :=
  { Port.zero with retiredLanes := p.retiredLanes, st := if p.st = .retired then .retired else .down }

/-- The retired physical tiles and failed cube rows to retain. -/
def Block.keptTiles (b : Block) : List Nat × Sparse Nat :=
  b.tiles.foldl (fun (acc : List Nat × Sparse Nat) (e : Nat × Tile) =>
    let k := physNo e.1 e.2.phys
    (if e.2.st = 2 && !acc.1.contains k then acc.1 ++ [k] else acc.1,
     if e.2.badRow < 12 then acc.2.set 12 k e.2.badRow else acc.2)) (b.boot.deadTiles, b.boot.badRows)

/-- A module reset (R476, R478): every domain but the always-on island. Kept are the fuses, the retirement state, the TAP, the
I3C address and the recognition of THROTTLE#; DEBUG_NONCE is drawn anew (R410). [log 2 DESIGN CHOICE; 126 DEDUCED] -/
def Block.moduleReset (b : Block) : Block :=
  let r := b.draw 256
  let b := r.2
  let z := Block.powerOn
  let pcs := b.mem.kept
  let tiles := b.keptTiles
  { z with
    mer := { z.mer with draws := b.mer.draws, frees := b.mer.frees },
    mem := { z.mem with pcs := pcs.1, retired := pcs.2 },
    trust := { z.trust with lmsUsed := b.trust.lmsUsed, svnFused := b.trust.svnFused, rootRevoke := b.trust.rootRevoke,
                            debugNonce := r.1 },
    fab.ports := b.fab.ports.map (fun (e : Nat × Port) => (e.1, e.2.kept)),
    host := { z.host with i3cAddr := b.host.i3cAddr, eidI3c := b.host.eidI3c },
    pow := { PowerS.zero with throttle := b.pow.throttle, held := b.pow.held, wakeIgnored := b.pow.wakeIgnored }.retarget,
    boot := { z.boot with perst := b.boot.perst, brown := b.boot.brown, dark := b.boot.dark, deadTiles := tiles.1,
                          badRows := tiles.2 },
    jtag := b.jtag, out := b.out }

/-- A trigger of a module reset: in COMMIT it waits for the fuse steps (R479). What holds the module in reset then: bit 0 of `hold`
PERST#, bit 1 a brownout; neither for RESET_MODULE. [log 125 DEDUCED] -/
def Block.resetBy (hold : Nat) (b : Block) : Block :=
  if b.boot.phase = Phase.commit then { b with boot.due := some (b.boot.due.getD 0 ||| hold) }
  else
    let b := b.moduleReset
    { b with boot.perst := b.boot.perst || bit hold 0, boot.brown := b.boot.brown || bit hold 1, boot.dark := false }

/-- What held the module, or was to hold it once a reset that waits takes effect, ends: PERST# for bit 0, a brownout for bit 1. -/
def Boot.unhold (i : Nat) (t : Boot) : Boot :=
  { t with perst := t.perst && i ≠ 0, brown := t.brown && i ≠ 1, due := t.due.map (fun m => setBit m i false) }

/-- A power-on reset keeps the fuses only. -/
def execPowerOnReset (s : State) : Host.Outcome State Fault Refusal :=
  s.run (fun b =>
    let r := b.draw 256
    let z := Block.powerOn
    { z with
      mer := { z.mer with draws := r.2.mer.draws, frees := b.mer.frees },
      trust := { z.trust with lmsUsed := b.trust.lmsUsed, svnFused := b.trust.svnFused, rootRevoke := b.trust.rootRevoke,
                              debugNonce := r.1 },
      out := b.out })
def execPerstAssert (s : State) : Host.Outcome State Fault Refusal := s.run (Block.resetBy 1)
def execPerstDeassert (s : State) : Host.Outcome State Fault Refusal := s.run (fun b => { b with boot := b.boot.unhold 0 })
def execBrownout (s : State) : Host.Outcome State Fault Refusal := s.run (Block.resetBy 2)
def execBrownoutRecovery (s : State) : Host.Outcome State Fault Refusal :=
  s.run (fun b => if b.boot.perst then b else { b with boot := b.boot.unhold 1 })

/-! ### Function Level Reset (R434) -/

/-- FLR: work halts with no record, message or request; JOB_RESET's effects; rings, device registers and the MSI-X table
return to reset. The time base, the trust state, Shutter and the retirement state stay. [log 127 DEDUCED] -/
def Block.flr (b : Block) : Block :=
  let b1 := b.jobReset none
  { b1 with
    out := b.out, mem.bytes := b.mem.bytes.filter (fun e => b.inRingPage e.1),
    mer := { b1.mer with rings := [], tileQ := [], tileFailed := [] },
    host := { b1.host with apertureBase := 0, msix := [], reqs := [] },
    boot := { b1.boot with
      addr := 0, len := 0, phase := if b.boot.phase = Phase.fetch then .waitImage else b.boot.phase,
      fetchErr := if b.boot.phase = Phase.fetch then 3 else b.boot.fetchErr } }

/-- Configuration space returns to its reset values. -/
def HostIf.clearConfig (h : HostIf) : HostIf :=
  { h with memEnable := false, busMaster := false, bar0 := 0, bar2 := 0, bar4 := 0, cfgRegs := [], msixEnable := false,
           funcMask := false }

def execFunctionLevelReset (s : State) : Host.Outcome State Fault Refusal := s.run (fun b => if b.hubUp then b.flr else b)
def execHotReset (s : State) : Host.Outcome State Fault Refusal :=
  s.run (fun b => if b.hubUp then { b.flr with host := b.flr.host.clearConfig } else b)
/-- The link is lost: as an FLR; the link trains again. -/
def execLinkDown (s : State) : Host.Outcome State Fault Refusal := s.run (fun b => if b.hubUp then b.flr else b)

/-! ### The boot ROM (R482, R483, R408, R409) -/

/-- A PHASE change, at so many microseconds from PERST# deassertion (R480). -/
def Block.toPhase (p : Phase) (us : Nat) (b : Block) : Block :=
  { b with boot.phase := p, boot.timeUs := Nat.min us (2 ^ 32 - 1) }

/-- ROM_INIT ends: `agree` tells whether the two fuse reads agree. [log 124 DEDUCED] -/
def Block.romInitDone (agree : Bool) (us : Nat) (b : Block) : Block :=
  if !b.hubUp || b.boot.phase ≠ Phase.romInit then b
  else if !agree then (b.toPhase .trustFailed us).trustFailure
  else
    let k := b.draw 512
    let y := k.2.draw 512
    ({ y.2 with trust.domainKeys := [(15, some k.1)], trust.sysKey := y.1, host.linkUp := true } : Block).toPhase .waitImage us

/-- The next piece of the bundle is asked of the host, in increasing address order. -/
def Block.askBundle (b : Block) : Block :=
  let off := b.boot.bundle.length
  let n := Nat.min 4096 (b.boot.len - off)
  if n = 0 then b else b.askHost (b.boot.addr + off) n (.boot off n)

/-- BOOT_GO with GO = 1 (R482). [log 128, 130 DEDUCED] -/
def Block.bootGo (us : Nat) (b : Block) : Block :=
  if !b.hubUp || b.boot.phase ≠ Phase.waitImage then b
  else if !b.host.busMaster then { b with boot.fetchErr := 1 }
  else if b.boot.len < 64 ∨ 8388608 < b.boot.len ∨ b.boot.len % 64 ≠ 0 ∨ 2 ^ 64 < b.boot.addr + b.boot.len then
    { b with boot.fetchErr := 2 }
  else (({ b with boot.fetchErr := 0, boot.bundle := [] } : Block).toPhase .fetch us).askBundle

/-- Bytes of the bundle arrive, or the access fails; then how long that took is not known. [log 129 DEDUCED] -/
def Block.bootData (r : Option (List Byte)) (b : Block) : Block :=
  if b.boot.phase ≠ Phase.fetch then b
  else match r with
  | some bs => ({ b with boot.bundle := b.boot.bundle ++ bs } : Block).askBundle
  | none =>
    let t := b.free 32
    ({ t.2 with boot.fetchErr := 3 } : Block).toPhase .waitImage t.1

def Block.bootFetchDone (us : Nat) (b : Block) : Block :=
  if b.boot.phase = Phase.fetch && b.boot.bundle.length = b.boot.len then
    ({ b with trust.bootState := 1 } : Block).toPhase .verify us
  else b

/-- Verification ends: a refusal returns to WAIT_IMAGE, the eighth locks; a pass starts COMMIT. -/
def Block.bootVerifyDone (us : Nat) (b : Block) : Block :=
  if b.boot.phase ≠ Phase.verify then b
  else match b.bootCheck b.boot.bundle with
  | some n =>
    let tries := b.trust.bootTries + 1
    let b : Block := { b with boot.bundle := [], trust.bootErr := n, trust.bootTries := tries, trust.bootState := if 8 ≤ tries then 3 else 0 }
    b.toPhase (if 8 ≤ tries then .locked else .waitImage) us
  | none => ({ b with trust.bootErr := 0 } : Block).toPhase .commit us

/-- The certificate message of the per-boot tree: 116 bytes (R409). -/
def Block.pbMessage (b : Block) (seed q : Nat) : List Byte :=
  fit 56 (Config.lmsPub seed) ++ leBytes 8 Config.deviceId ++ leBytes 4 q ++
    leBytes 48 (Config.sha384 (([1, 2, 3, 4, 5].map (fun i => b.trust.measure i)).flatten))

/-- The steps of R409: SVN, LMS leaf, per-boot tree, certificate, measurements. `readback` tells whether the counters read back
as written. [log 125 DEDUCED] -/
def Block.commitSteps (b : Block) : Block :=
  let cert := bundleCert b.boot.bundle
  let image := bundleImage b.boot.bundle
  let t := b.trust
  let svn := if oRaise image && decide (t.svnFused < oSvn image) then oSvn image else t.svnFused
  let b : Block := { b with trust := { t with
    svnFused := svn, svnImage := oSvn image, certBody := cert, certDigest := Config.sha384 cert,
    imageDigest := Config.sha384 image } }
  let q := t.lmsUsed
  if q < 32768 then
    let r := b.draw 384
    let b := r.2
    let msg := b.pbMessage r.1 q
    { b with trust := { b.trust with
      lmsUsed := q + 1, bootSeed := some r.1, bootUsed := 0, bootQ := q,
      pbCert := msg ++ fit 2668 (Config.lmsSign Config.longTermLms q msg) } }
  else b

/-- [log 125 DEDUCED] -/
def Block.bootCommitDone (readback : Bool) (us : Nat) (b : Block) : Block :=
  if b.boot.phase ≠ Phase.commit then b
  else
    let due := b.boot.due
    let b := b.commitSteps
    let b : Block := { b with boot.due := none, trust.bootState := 2 }
    match due with
    | some hold => (b.toPhase .merlenInit us).resetBy hold
    | none => if readback then b.toPhase .merlenInit us else (b.toPhase .trustFailed us).trustFailure

def Block.merlenInitDone (us : Nat) (b : Block) : Block :=
  if b.boot.phase = Phase.merlenInit then b.toPhase .selfTest us else b

/-! ### Self-test (R484 to R486) -/

/-- The status of the step that failed. -/
def stepStatus : Nat → Nat
  | 1 => Status.linkFailed
  | 2 => Status.checkWord
  | 3 => Status.memUncorrectable
  | 6 => Status.codecStreamBad
  | 7 => Status.checkWord
  | _ => Status.programFault

/-- Pseudo-channels found faulty, ascending (step 3). -/
def Block.testPcs (faulty : List Nat) (b : Block) : Block :=
  ((List.range 768).filter faulty.contains).foldl (fun b h =>
    if (b.pc h).st = .retired || (b.pc h).st = .fenced then b
    else if b.mem.retired.length < 8 then
      ({ b with mem.retired := b.mem.retired ++ [h] } : Block).setPc h { b.pc h with st := .retired }
    else b.setPc h { b.pc h with st := .fenced }) b

/-- Physical tiles found failed, and failed cube rows (step 4): a second failed row fails the tile. -/
def Boot.testTiles (failed : List Nat) (rows : List (Nat × Nat)) (t : Boot) : Boot :=
  let t : Boot := { t with deadTiles := t.deadTiles ++ failed.filter (fun k => !t.deadTiles.contains k) }
  rows.foldl (fun (t : Boot) (r : Nat × Nat) =>
    let old := t.badRows.get 12 r.1
    if t.deadTiles.contains r.1 then t
    else if old = 12 then { t with badRows := t.badRows.set 12 r.1 r.2 }
    else if old = r.2 then t
    else { t with deadTiles := t.deadTiles ++ [r.1] }) t

/-- The physical tile of every tile number (R485): none where no spare is left. -/
def Boot.numbering (t : Boot) : List (Nat × Option Nat) :=
  let ok (q k : Nat) : Bool := !t.deadTiles.contains (38 * q + k)
  [0, 1, 2, 3].flatMap (fun q =>
    let spares := [36, 37].filter (ok q)
    let bad := (List.range 36).filter (fun k => !ok q k)
    (List.range 36).map (fun k => (36 * q + k, if ok q k then some k else spares[bad.findIdx (· = k)]?)))

/-- A tile as it starts with its physical tile. -/
def Boot.startTile (t : Boot) (n : Nat) : Option Nat → Tile
  | some p =>
    let row := t.badRows.get 12 (physNo n p)
    { Tile.zero with phys := p, badRow := row, st := if row < 12 then 1 else 0 }
  | none => { Tile.zero with phys := n % 36, st := 2 }

/-- Where Merlen reserves the 32 MiB of the ring window: the last of populated HBM (log entry 8). [log 8 DESIGN CHOICE] -/
def ringArea : Nat := hbmTop - 0x2000000

/-- Step 8 and the Almanac: the ring window is set up, generation 1 published, READY set (R486). [log 8 DESIGN CHOICE] -/
def Block.publish (us : Nat) (b : Block) : Block :=
  let pages := (List.range 512).map (· + pageOf ringArea)
  let b : Block := pages.foldl (fun b g => b.setAttr g (mkAttr 15 4 false false false)) b
  let b : Block := { b with alm := { published := true, generation := 0, ringAreaDa := ringArea } }
  let b := (b.toPhase .selfTest us).almanacChange Status.ok 0 0 0 us
  { b.toPhase .ready us with boot.ready := true }

/-- Self-test ends: `step` names the step that failed, 0 for none, with its reporter; faulty pseudo-channels, failed physical
tiles (38 q + k) and failed cube rows. -/
def Block.selfTestDone (step unit index : Nat) (pcs phys : List Nat) (rows : List (Nat × Nat)) (us : Nat) (b : Block) : Block :=
  if b.boot.phase ≠ Phase.selfTest then b
  else
    let b : Block := if step = 1 then b
      else { b with fab.ports := (List.range 8).foldl (fun (m : Sparse Port) k =>
              m.upd Port.zero k (fun p => if p.st = .down then { p with st := .train } else p)) b.fab.ports }
    if step = 2 && unit = 11 then (b.toPhase .trustFailed us).trustFailure
    else if step ≠ 0 then
      let b := b.logError (stepStatus step) unit index 0 0
      { b.toPhase .failed us with boot.step := step }
    else
      let b := b.testPcs pcs
      let b : Block := { b with boot := b.boot.testTiles phys rows }
      let b := b.boot.numbering.foldl (fun b x => b.setTile x.1 (b.boot.startTile x.1 x.2)) b
      b.publish us

def execRomInitDone (agree : Bool) (us : Nat) (s : State) : Host.Outcome State Fault Refusal := s.run (Block.romInitDone agree us)
def execBootGo (us : Nat) (s : State) : Host.Outcome State Fault Refusal := s.run (Block.bootGo us)
def execBootFetchDone (us : Nat) (s : State) : Host.Outcome State Fault Refusal := s.run (Block.bootFetchDone us)
def execBootVerifyDone (us : Nat) (s : State) : Host.Outcome State Fault Refusal := s.run (Block.bootVerifyDone us)
def execBootCommitDone (readback : Bool) (us : Nat) (s : State) : Host.Outcome State Fault Refusal :=
  s.run (Block.bootCommitDone readback us)
def execMerlenInitDone (us : Nat) (s : State) : Host.Outcome State Fault Refusal := s.run (Block.merlenInitDone us)
def execSelfTestDone (step unit index : Nat) (pcs phys : List Nat) (rows : List (Nat × Nat)) (us : Nat) (s : State) :
    Host.Outcome State Fault Refusal := s.run (Block.selfTestDone step unit index pcs phys rows us)

/-! ### Entry into sleep (R471) -/

/-- SLEEP_ENTRY_DONE: Idle-gate and Stow are entered, Stow once every SLEEP has left; in Dark every domain but the always-on
island is off. -/
def Block.sleepEntryDone (b : Block) : Block :=
  match b.pow.sleep with
  | .entering t =>
    if t = 3 then
      let wake := b.pow.darkWake
      let b := b.moduleReset
      if wake then { b with pins.wakeDriven := true } else { b with boot.dark := true }
    else if t = 2 && b.sleepUnsent then b
    else b.enterSleep t
  | _ => b

def execSleepEntryDone (s : State) : Host.Outcome State Fault Refusal := s.run Block.sleepEntryDone

end Sys2Proof.Machine
end

