-- ==== Sys2Proof/Machine/Ctrl.lean ====
section
/-!
DEFINITION. The commands of classes CTRL and SYNC (R35, R50, R51, R66, R67, R450, R451), the Almanac's record and the log as it
is read.
-/

namespace Sys2Proof.Machine

/-! ### Usable capacity (R249, R262, R263) -/

/-- Populated locations of a pseudo-channel before any remap: the lines of the interleave that hold populated granules. -/
def baseLocs (p : Nat) : Nat :=
  if (List.range 96).any (fun g => (place (2048 * (768 * 1220703 + g))).1 = p) then 1220704 else 1220703

/-- Populated locations of a pseudo-channel under retirements, the latest first, as ranges. -/
def popLocs : List Nat → Nat → List (Nat × Nat)
  | [], p => [(0, baseLocs p)]
  | x :: earlier, p =>
    if p = x then []
    else
      let r := earlier.length + 1
      let n := 768 - r
      let idx := ((List.range 768).filter (fun y => !(x :: earlier).contains y)).findIdx (· = p)
      popLocs earlier p ++ (popLocs earlier x).filterMap (fun (v : Nat × Nat) =>
        let k0 := ceilDiv (v.1 - idx) n
        let k1 := ceilDiv (v.2 - idx) n
        let dstTo := 1220704 + (r - 1) * 1632
        if k0 < k1 then some (dstTo + k0, dstTo + k1) else none)

/-- Usable bytes: 1,920 GB less the granules homed on FENCED pseudo-channels. -/
def Block.usableBytes (b : Block) : Nat :=
  let gone := b.mem.retired.reverse
  let fenced : List Nat := (b.mem.pcs.filter (fun (e : Nat × Pc) => e.2.st = .fenced)).map (fun e => e.1)
  1920000000000 - 2048 * (fenced.map (fun p => ((popLocs gone p).map (fun v => v.2 - v.1)).sum)).sum

/-! ### The Almanac (R66) -/

/-- PORT_STATE of a port. -/
def Port.almanac (p : Port) : Nat :=
  match p.st with
  | .retired => 2
  | .nc => 3
  | .up4 => 1
  | .up8 => 0
  | _ => if p.retiredLanes = 0 then 0 else 1

/-- Is spare TSk unused and sound? -/
def Block.spareFree (b : Block) (k : Nat) : Bool :=
  !((List.range 36).any (fun i => (b.tile (36 * (k / 2) + i)).phys = 36 + k % 2)) &&
    !b.boot.deadTiles.contains (38 * (k / 2) + 36 + k % 2)

/-- The 384 bytes of the Almanac. -/
def Block.almanac (b : Block) : List Byte :=
  let top := fields ([
    (128, Config.merlenVersion % 2 ^ 32), (160, b.fwRev),
    (176, ((List.range 144).filter (fun t => (b.tile t).st ≤ 1)).length), (192, b.mem.retired.length), (208, 28),
    (256, b.trust.imageDigest % 2 ^ 384), (640, Config.deviceId % 2 ^ 64), (704, b.alm.ringAreaDa),
    (2768, ((List.range 8).map (fun k => if b.spareFree k then 2 ^ k else 0)).sum), (2816, b.usableBytes)] ++
    (List.range 144).map (fun t => (768 + 8 * t, 64 * (b.tile t).st + (b.tile t).phys)) ++
    ((List.range 768).filter (fun h => (b.pc h).st = .retired)).map (fun h => (1920 + h, 1)) ++
    (List.range 8).map (fun m => (2688 + 8 * m, (b.port m).retiredLanes % 256)) ++
    (List.range 8).map (fun m => (2752 + 2 * m, (b.port m).almanac)))
  let body := (leBytes 384 top).drop 16
  leBytes 16 (fields [(0, 0x4E4D4C41), (32, 1), (48, 384), (64, b.alm.generation), (96, crc32c body)]) ++ body

/-- A buffer of ALMANAC_READ: HBM or the host window, 64-byte aligned (R51). -/
def almanacBar (da : Nat) : Option Nat :=
  if da % 64 ≠ 0 then some Status.badParam
  else match regionOf da with
  | .host _ => none
  | .hbm => if inHbm da 384 then none else some Status.addrUnmapped
  | .tile _ off => if off + 384 ≤ tileBytes then some Status.badParam else some Status.addrUnmapped
  | .peer _ _ _ => some Status.badParam
  | .reserved => some Status.addrUnmapped

def Block.startAlmanacRead (c : Cmd) (b : Block) : Block :=
  let da := c.pkt.f 127 76
  match almanacBar da with
  | some st => b.refuse c st 0
  | none => b.respond c da b.almanac 0 b.alm.generation

/-! ### The log as it is read (R443, R450, R451) -/

/-- The 64 bytes of an entry. -/
def LogEntry.bytes (e : LogEntry) : List Byte :=
  leBytes 32 (fields [(192, e.sc), (160, e.seq), (144, e.status), (140, e.kind), (135, b2n e.almanac), (112, e.unit), (96, e.index),
    (64, e.detail), (0, e.info)]) ++ leBytes 32 e.body

/-- An entry masked in a sealed job. -/
def LogEntry.masked (e : LogEntry) : LogEntry :=
  let m : LogEntry := { sc := e.sc, seq := 0, status := e.status, kind := 0, almanac := false, unit := 0, index := 0, detail := 0,
                        info := 0, body := 0 }
  if e.kind = 4 then { m with sc := 0, status := 0 } else m

/-- The entries held, oldest first. -/
def Log.oldestFirst (l : Log) : List LogEntry := l.entries.reverse

/-- Entries from FIRST onward, at most n: those held, and how many older ones were asked for and are gone. -/
def Log.from_ (l : Log) (first n : Nat) : List LogEntry × Nat :=
  let after (a b : Nat) : Int := sx 32 (a + 2 ^ 32 - b)
  let held := l.oldestFirst.filter (fun e => decide (0 ≤ after e.seq first))
  let skipped := match l.oldestFirst with
    | e :: _ => (after e.seq first).toNat
    | [] => 0
  (held.take n, skipped)

/-- LOG_READ (R450): FIRST older than the oldest entry starts there, with the entries skipped in DETAIL. -/
def Block.startLogRead (c : Cmd) (b : Block) : Block :=
  let da := c.pkt.f 127 76
  let n := c.pkt.f 43 30
  if da % 64 ≠ 0 ∨ n = 0 ∨ 8192 < n then b.refuse c Status.badParam 0
  else
    let r := b.log.from_ (c.pkt.f 75 44) n
    let mask := b.trust.sealedReq && c.sealedOk.isNone
    let bs := (r.1.map (fun e => (if mask then e.masked else e).bytes)).flatten
    match rspStatus da bs.length with
    | some st => b.refuse c st 0
    | none =>
      let result := match r.1 with
        | e :: _ => fields [(32, r.1.length), (0, e.seq)]
        | [] => 0
      b.respond c da bs (if r.1.isEmpty then 0 else r.2) result

/-! ### CTRL (R35, R50, R51) -/

/-- RESULT of STATUS. -/
def Block.statusWord (b : Block) : Nat :=
  fields [(32, b.log.newest), (26, b.shut.active), (25, b2n b.shut.shut), (24, b2n (b.trust.job ≠ 0)), (21, b.pow.eff),
    (18, b.sid.state.code), (15, b.snap.st.code)]

def Block.startNop (c : Cmd) (b : Block) : Block := b.done c 0
def Block.startStatus (c : Cmd) (b : Block) : Block := b.completeId c.id Status.ok b.trust.job b.statusWord

/-- OPEN (R35, R452). -/
def Block.startOpen (c : Cmd) (b : Block) : Block :=
  if !b.shut.shut then b.done c 0
  else if bit b.shut.active 2 then b.refuse c Status.resetRequired 0
  else if b.shut.active ≠ 0 then b.refuse c Status.shutterCauseActive 0
  else (({ b with shut.shut := false, pins.fault := false } : Block).logState Status.ok 0).done c 0

/-- JOB_RESET, whose effects came with its validation (R420). -/
def Block.startJobReset (c : Cmd) (b : Block) : Block := b.done c 0

/-- FENCE_ALL starts once every packet dispatched before it has completed (R50). -/
def Block.fenceRetry (b : Block) : Block :=
  b.mer.running.foldl (fun b c =>
    match c.work with
    | .list 9 ids => if ids.any (fun i => (b.cmd i).isSome) then b else b.done c 0
    | _ => b) b

def Block.startFenceAll (c : Cmd) (b : Block) : Block :=
  let ids := (b.mer.running.filter (fun x => x.id ≠ c.id && !x.isRegen)).map (fun x => x.id)
  (b.setWork c.id (.list 9 ids)).fenceRetry

/-! ### SYNC (R51, R62 to R65) -/

/-- [log 22 DEDUCED] -/
def Block.startSyncOp (set : Bool) (c : Cmd) (b : Block) : Block :=
  (b.setWork c.id .syncOp).issueSync { ctr := c.pkt.f 95 83, req := 219, set := set, val := c.pkt.f 127 96, cmd := some c.id }

def Block.startSyncWait (c : Cmd) (b : Block) : Block :=
  let ctr := c.pkt.f 95 83
  let cond := c.pkt.f 82 80
  if 4 ≤ cond then b.refuse c Status.badParam 0
  else if condHolds cond (b.syncVal ctr) (c.pkt.f 127 96) then b.done c (b.syncVal ctr)
  else b.setWork c.id (.syncWait ctr cond (c.pkt.f 127 96))

def Block.startSyncRead (c : Cmd) (b : Block) : Block := b.done c (b.syncVal (c.pkt.f 95 83))

end Sys2Proof.Machine
end

