-- ==== Sys2Proof/Machine/Ephem.lean ====
section
/-!
DEFINITION. The Ephemeris entries that fire (R79, R81, R82, R84).
-/

namespace Sys2Proof.Machine

/-- The action of an entry, none where its engine cannot take it and it stays due (R79, R369, R382). In Shutter the events of
the collective and snapshot engines are cancelled (R84). [log 145 DEDUCED] -/
def Block.ephAct (b : Block) (e : EphEntry) : Option Block :=
  if b.shut.shut && decide (e.kind ≤ 3) then some (b.logYield Status.inShutter e.tag 0 1 4 1 e.kind 0)
  else
    match e.kind with
    | 1 => b.collRelease 1 e.arg0 e.tag e.fire.toNat
    | 2 => b.collRelease 2 e.arg0 e.tag e.fire.toNat
    | 3 => b.snapCut e.arg0
    | 4 => some (b.onPower (fun p => { p with requested := e.arg0 % 8 }))
    | 5 => some (b.issueSync { ctr := e.arg0 % 8192, req := 218, set := false, val := e.arg1, cmd := none })
    | 6 => some (b.issueSync { ctr := e.arg0 % 8192, req := 218, set := true, val := e.arg1, cmd := none })
    | _ => none

/-- Does an entry of the same tick, accepted earlier, come first (R81)? -/
def Block.ephBefore (b : Block) (e : EphEntry) : Bool :=
  b.eph.entries.any (fun x => x.fire = e.fire && decide (x.serial < e.serial) && b.ephReady x && (b.ephAct x).isSome)

/-- The yield record of a late event (R82), but of a release that was only recorded (R369) and of a cancelled one.
[log 97, 144 DEDUCED] -/
def Block.lateRecord (b before : Block) (e : EphEntry) : Block :=
  if e.fire.toNat < before.now && b.fab.releases.length ≤ before.fab.releases.length && !(before.shut.shut && decide (e.kind ≤ 3)) then
    b.logYield Status.eventLate e.tag (before.now - e.fire.toNat) 1 4 e.lateBy e.kind 0
  else b

/-- An armed entry of a kind fires: due, its guard true, no earlier one of its tick before it. Asleep, an entry that comes due
wakes the module (R84). [log 1 DESIGN CHOICE] -/
def Block.ephFire (kind serial : Nat) (b : Block) : Block :=
  match b.eph.entries.find? (fun e => e.serial = serial && e.kind = kind) with
  | none => b
  | some e =>
    if decide (e.fire.toNat ≤ b.now) && !b.isAwake then b.wakeBy 4 10 0
    else if !b.ephReady e then b
    else if b.ephBefore e then b
    else match b.ephAct e with
    | none => b
    | some b1 => ({ b1 with eph.entries := b1.eph.entries.filter (fun x => x.serial ≠ serial) } : Block).lateRecord b e

def execEphCollStart (serial : Nat) (s : State) : Host.Outcome State Fault Refusal := s.run (Block.ephFire 1 serial)
def execBucketRelease (serial : Nat) (s : State) : Host.Outcome State Fault Refusal := s.run (Block.ephFire 2 serial)
def execSnapCut (serial : Nat) (s : State) : Host.Outcome State Fault Refusal := s.run (Block.ephFire 3 serial)
def execPlChange (serial : Nat) (s : State) : Host.Outcome State Fault Refusal := s.run (Block.ephFire 4 serial)
def execEphSyncAdd (serial : Nat) (s : State) : Host.Outcome State Fault Refusal := s.run (Block.ephFire 5 serial)
def execEphSyncSet (serial : Nat) (s : State) : Host.Outcome State Fault Refusal := s.run (Block.ephFire 6 serial)

end Sys2Proof.Machine
end

