-- ==== Sys2Proof/Machine/Update.lean ====
section
/-!
DEFINITION. The update engines (spec/14): descriptors, records, recipes, UPDATE, FREEZE_SET and MOMENT_FORMAT, one block at a
time; stochastic rounding and its draws (R99, R100), remainders (R322) and check words (R265).
-/

namespace Sys2Proof.Machine

/-! ### Draws and rounding (R99, R100) -/

def philoxGo : Nat → Nat × Nat × Nat × Nat → Nat → Nat → Nat × Nat × Nat × Nat
  | 0, c, _, _ => c
  | n + 1, (c0, c1, c2, c3), k0, k1 =>
    let x := 0xD2511F53 * c0
    let y := 0xCD9E8D57 * c2
    philoxGo n ((y / 2 ^ 32) ^^^ c1 ^^^ k0, y % 2 ^ 32, (x / 2 ^ 32) ^^^ c3 ^^^ k1, x % 2 ^ 32)
      ((k0 + 0x9E3779B9) % 2 ^ 32) ((k1 + 0xBB67AE85) % 2 ^ 32)

/-- Philox-4×32-10 (R100). -/
def philox (c0 c1 c2 c3 k0 k1 : Nat) : Nat × Nat × Nat × Nat := philoxGo 10 (c0, c1, c2, c3) k0 k1

/-- The draw of element i of a block (R100). [log 78 DEDUCED] -/
def roundDraw (seed tensor block step i : Nat) : Nat :=
  let o := philox (block % 2 ^ 32) (tensor % 2 ^ 32) (step % 2 ^ 32) (i / 8) (seed % 2 ^ 32) (seed / 2 ^ 32 % 2 ^ 32)
  let w := match (i % 8) / 2 with | 0 => o.1 | 1 => o.2.1 | 2 => o.2.2.1 | _ => o.2.2.2
  if i % 2 = 0 then w % 2 ^ 16 else w / 2 ^ 16

/-- An FP32 code rounded to BF16 by a draw (R99): the code, and whether it saturated. -/
def stochRound (code r : Nat) : Nat × Nat :=
  let neg := code / 2 ^ 31 % 2
  let b := code % 2 ^ 31
  if 0x7F800000 ≤ b then ((bf16.enc (fp32.decode code)).1, 0)
  else
    let m := (b + r) / 2 ^ 16
    if 0x7F80 ≤ m then (0x7F7F + 2 ^ 15 * neg, 1) else (m + 2 ^ 15 * neg, 0)

/-! ### FP32 arithmetic with clamping (R336) -/

/-- Round to FP32; past maxfinite the result is ±maxfinite and counts. -/
def clamp32 (v : FV) : StateM Nat FV := fun n =>
  match v with
  | .fin neg m e =>
    let x := fp32.encFin neg m e
    if x.2 then (fp32.decode (fp32.maxCode neg), n + 1) else (fp32.decode x.1, n)
  | v => (v, n)

def uAdd (a b : FV) : StateM Nat FV := clamp32 (a.add b)
def uMul (a b : FV) : StateM Nat FV := clamp32 (a.mul b)
def uFma (a b c : FV) : StateM Nat FV := clamp32 ((a.mul b).add c)
def uDiv (a b : FV) : StateM Nat FV :=
  match a, b with
  | .fin s 0 _, .fin t _ _ => pure (.fin (s != t) 0 0)
  | .fin _ _ _, .fin _ _ _ => clamp32 (FV.ofDy false (a.dy.div b.dy))
  | _, _ => pure .nan
def uSqrt (a : FV) : StateM Nat FV :=
  match a with
  | .fin s 0 _ => pure (.fin s 0 0)
  | .fin false _ _ => clamp32 (FV.ofDy false a.dy.sqrt)
  | _ => pure .nan

def fvOne : FV := .fin false 1 0

/-- β^t: squares and products from the most significant bit of t down, each rounded (R336). -/
def uPow (beta : FV) (t : Nat) : FV :=
  ((List.range (nbits t)).reverse.foldl (fun p i =>
    let q := fp32.round (p.mul p)
    if bit t i then fp32.round (q.mul beta) else q) fvOne)

/-- A hyperparameter set (R332), with what R336 forms from it once for a block. -/
structure Hyper where
  scale : FV
  wd : FV
  eps : FV
  b1 : FV
  b2 : FV
  nlr : FV
  c1 : FV
  c2 : FV
  bc1 : FV
  bc2 : FV
deriving DecidableEq, Repr

def hyperOf (set : Nat) (lsExp : Int) (t : Nat) : Hyper :=
  let f (hi lo : Nat) : FV := fp32.decode (bits set hi lo)
  let b1 := f 95 64
  let b2 := f 127 96
  { scale := (f 223 192).scale (-lsExp), wd := f 191 160, eps := f 159 128, b1 := b1, b2 := b2, nlr := (f 63 32).neg,
    c1 := fp32.round (fvOne.sub b1), c2 := fp32.round (fvOne.sub b2),
    bc1 := fp32.round (fvOne.sub (uPow b1 t)), bc2 := fp32.round (fvOne.sub (uPow b2 t)) }

/-- A set whose values lie within R332. -/
def hyperOk (set : Nat) : Bool :=
  let f (hi lo : Nat) : FV := fp32.decode (bits set hi lo)
  let zero : Dy := ⟨0, 0⟩
  let ge0 (v : FV) : Bool := v.isFin && zero.le v.dy
  let gt0 (v : FV) : Bool := v.isFin && zero.lt v.dy
  gt0 (f 223 192) && ge0 (f 191 160) && gt0 (f 159 128) && ge0 (f 127 96) && (f 127 96).dy.lt ⟨1, 0⟩ &&
    ge0 (f 95 64) && (f 95 64).dy.lt ⟨1, 0⟩ && ge0 (f 63 32)

/-- The ADAMW sequence on (x, m, v) with a gradient and a weight decay (R337). [log 151 DEDUCED] -/
def adamw (h : Hyper) (wd x m v g : FV) : StateM Nat (FV × FV × FV) := do
  let m ← uFma h.b1 m (← uMul h.c1 g)
  let v ← uFma h.b2 v (← uMul h.c2 (← uMul g g))
  let mh ← uDiv m h.bc1
  let vh ← uDiv v h.bc2
  let d ← uDiv mh (← uAdd (← uSqrt vh) h.eps)
  let x ← uFma h.nlr (← uFma wd x d) x
  pure (x, m, v)

/-- sign(c): +1, −1 or +0. -/
def signOf (c : FV) : FV := if c.isZero then .fin false 0 0 else .fin c.isNeg 1 0

/-- One recipe on one element (R337); the gradient is scaled first (R336). [log 151 DEDUCED] -/
def recipeElem (rec : Nat) (h : Hyper) (x m v grad : FV) : StateM Nat (FV × FV × FV) := do
  let g ← uMul grad h.scale
  match rec with
  | 0 => pure (← uFma h.nlr (← uFma h.wd x g) x, m, v)
  | 1 =>
    let m ← uFma h.b1 m g
    pure (← uFma h.nlr (← uFma h.wd x m) x, m, v)
  | 2 => adamw h h.wd x m v g
  | 3 => adamw h (.fin false 0 0) x m v (← uFma h.wd x g)
  | _ =>
    let c ← uFma h.b1 m (← uMul h.c1 g)
    let x ← uFma h.nlr (← uFma h.wd x (signOf c)) x
    pure (x, ← uFma h.b2 m (← uMul h.c2 g), v)

/-- Does a recipe use first moments, second moments? -/
def recipeUsesM (rec : Nat) : Bool := rec ≠ 0
def recipeUsesV (rec : Nat) : Bool := rec = 2 || rec = 3

/-! ### Records (R328, R329, R338, R322) -/

/-- A tensor descriptor, as its 512 bits (R326). -/
abbrev Desc := Nat
def dApplied (d : Desc) : Nat := bits d 447 416
def dSkipped (d : Desc) : Nat := bits d 479 448
def dRec (d : Desc) : Nat := bits d 415 364
def dGrad (d : Desc) : Nat := bits d 363 312
def dTouch (d : Desc) : Nat := bits d 311 260
def dFirst (d : Desc) : Nat := bits d 259 228
def dBlocks (d : Desc) : Nat := bits d 227 204
def dRowBlocks (d : Desc) : Nat := bits d 203 188
def dTensor (d : Desc) : Nat := bits d 187 156
def dRecipe (d : Desc) : Nat := bits d 155 152
def dHset (d : Desc) : Nat := bits d 151 149
def dMfmt (d : Desc) : Nat := bits d 148 148
def dStoch (d : Desc) : Bool := bit d 147
def dFreeze (d : Desc) : Bool := bit d 146
def dSparse (d : Desc) : Bool := bit d 145
def dCheckOk (d : Desc) : Bool := bits d 511 480 = crc32c (leBytes 60 d)
def dSeal (d : Desc) : Desc := putBits d 511 480 (crc32c (leBytes 60 d))
def recSize (mfmt : Nat) : Nat := if mfmt = 0 then 384 else 192

def e4m3 : Fmt := fmtOf (builtinFw.getD 3 0)
def int8 : Fmt := fmtOf (builtinFw.getD 8 0)

/-- The n codes of w bytes from an offset of a record. -/
def recCodes (bs : List Byte) (off n w : Nat) : List Nat :=
  (List.range n).map (fun i => leNat ((bs.drop (off + w * i)).take w))

/-- A record's FORM, ROW_T and check. -/
def recForm (mfmt : Nat) (bs : List Byte) : Nat := leNat ((bs.drop (if mfmt = 0 then 0x161 else 0xA3)).take 1)
def recRowT (mfmt : Nat) (bs : List Byte) : Nat := leNat ((bs.drop (if mfmt = 0 then 0x164 else 0xA4)).take 4)
def recRemScale (mfmt : Nat) (bs : List Byte) : Nat := leNat ((bs.drop (if mfmt = 0 then 0x160 else 0xA2)).take 1)
def recCheck (tensor index : Nat) (body : List Byte) : Nat := crc32c (leBytes 4 tensor ++ leBytes 4 index ++ body)

/-- Check word and FORM of a record (R265, R330). -/
def recOk (mfmt tensor index : Nat) (bs : List Byte) : Bool :=
  let n := recSize mfmt - 4
  leNat (bs.drop n) = recCheck tensor index (bs.take n) && recForm mfmt bs = mfmt

/-- The master values of a record (R338). -/
def recX (mfmt : Nat) (stoch : Bool) (bs : List Byte) : List FV :=
  let sc := recRemScale mfmt bs
  ((recCodes bs 0 32 2).zip (recCodes bs 0x40 32 1)).map (fun pq =>
    let p := bf16.decode pq.1
    if stoch || pq.2 = 0 then p else fp32.round (p.add (decBlockElem int8 sc pq.2)))

/-- The first and second moments of a record, and the saturations of decoding (R328, R329). -/
def recM (mfmt : Nat) (bs : List Byte) : List FV :=
  if mfmt = 0 then (recCodes bs 0x60 32 4).map fp32.decode
  else (recCodes bs 0x60 32 1).map (decBlockElem e4m3 (leNat ((bs.drop 0xA0).take 1)))

def recV (mfmt : Nat) (bs : List Byte) : List FV × Nat :=
  if mfmt = 0 then ((recCodes bs 0xE0 32 4).map fp32.decode, 0)
  else
    let us := (recCodes bs 0x80 32 1).map (decBlockElem e4m3 (leNat ((bs.drop 0xA1).take 1)))
    (us.mapM (fun u => uMul u u)).run 0

/-- A moment block in 8 bits: its scale and its 32 codes, by SCALE_RULE 1. -/
def moment8 (vs : List FV) : Nat × List Byte :=
  let e := encBlock e4m3 1 0 vs
  (e.scale, e.codes.map (BitVec.ofNat 8 ·))

/-- The raw bytes of a record's moments: M or V as they stand, with their scale byte in the 8-bit form. -/
structure Moments where
  m : List Byte
  v : List Byte
  mScale : Nat
  vScale : Nat
deriving DecidableEq, Repr

def momentsOf (mfmt : Nat) (bs : List Byte) : Moments :=
  if mfmt = 0 then { m := (bs.drop 0x60).take 128, v := (bs.drop 0xE0).take 128, mScale := 0, vScale := 0 }
  else { m := (bs.drop 0x60).take 32, v := (bs.drop 0x80).take 32, mScale := leNat ((bs.drop 0xA0).take 1),
         vScale := leNat ((bs.drop 0xA1).take 1) }

/-- The moments encoded in a format. -/
def momentsEnc (mfmt : Nat) (ms vs : List FV) : Moments :=
  let f32 (l : List FV) : List Byte := (l.map (fun v => leBytes 4 (fp32.enc v).1)).flatten
  if mfmt = 0 then { m := f32 ms, v := f32 vs, mScale := 0, vScale := 0 }
  else
    let a := moment8 ms
    let b := moment8 (vs.map (fun v => ((uSqrt v).run 0).1))
    { m := a.2, v := b.2, mScale := a.1, vScale := b.1 }

/-- A whole record with its check word. -/
def recBytes (mfmt tensor index : Nat) (params rem : List Byte) (remScale : Nat) (mo : Moments) (rowT : Nat) : List Byte :=
  let body := params ++ rem ++ mo.m ++ mo.v ++
    (if mfmt = 0 then leBytes 1 remScale ++ leBytes 1 0 ++ zeros 2
     else leBytes 1 mo.mScale ++ leBytes 1 mo.vScale ++ leBytes 1 remScale ++ leBytes 1 1) ++
    leBytes 4 rowT ++ zeros 20
  body ++ leBytes 4 (recCheck tensor index body)

/-- PARAMS, REM, REM_SCALE and saturations in remainder mode (R322). -/
def remainderWrite (xs : List FV) : List Byte × List Byte × Nat × Nat :=
  let ps := xs.map (fun x =>
    match x with
    | .fin neg m e => let c := bf16.encFin neg m e; if c.2 then (bf16.maxCode neg, 1) else (c.1, 0)
    | v => ((bf16.enc v).1, 0))
  let e := encBlock int8 1 0 ((xs.zip ps).map (fun xp => xp.1.sub (bf16.decode xp.2.1)))
  ((ps.map (fun p => leBytes 2 p.1)).flatten, e.codes.map (BitVec.ofNat 8 ·), e.scale, (ps.map (·.2)).sum)

/-- PARAMS and saturations in stochastic mode (R99, R323). -/
def stochWrite (seed tensor index step : Nat) (xs : List FV) : List Byte × Nat :=
  let ps := xs.zipIdx.map (fun x => stochRound (fp32.enc x.1).1 (roundDraw seed tensor index step x.2))
  ((ps.map (fun p => leBytes 2 p.1)).flatten, (ps.map (·.2)).sum)

/-- The new record of a block and its saturations; none where its stored state or gradient is in doubt (R335). -/
def updRecord (d : Desc) (set : Nat) (lsExp : Int) (step seed index : Nat) (bs : List Byte) (gs : List FV) :
    Option (List Byte × Nat) :=
  let mf := dMfmt d
  let xs := recX mf (dStoch d) bs
  let ms := recM mf bs
  let vs := recV mf bs
  if (gs ++ xs ++ ms ++ vs.1).any (fun v => !v.isFin) then none
  else
    let t := (if dSparse d then recRowT mf bs else dApplied d) + 1
    let h := hyperOf set lsExp t
    let r := (((xs.zip ms).zip (vs.1.zip gs)).mapM (fun e =>
      recipeElem (dRecipe d) h e.1.1 e.1.2 e.2.1 e.2.2)).run vs.2
    let old := momentsOf mf bs
    let new := momentsEnc mf (r.1.map (·.2.1)) (r.1.map (·.2.2))
    let mo : Moments :=
      { m := if recipeUsesM (dRecipe d) then new.m else old.m, mScale := if recipeUsesM (dRecipe d) then new.mScale else old.mScale,
        v := if recipeUsesV (dRecipe d) then new.v else old.v, vScale := if recipeUsesV (dRecipe d) then new.vScale else old.vScale }
    if dStoch d then
      let p := stochWrite seed (dTensor d) index step (r.1.map (·.1))
      some (recBytes mf (dTensor d) index p.1 (zeros 32) 0 mo t, r.2 + p.2)
    else
      let p := remainderWrite (r.1.map (·.1))
      some (recBytes mf (dTensor d) index p.1 p.2.1 p.2.2.1 mo t, r.2 + p.2.2.2)

/-! ### Engines and their queues (R325) -/

def UpdWork.start : UpdWork :=
  { phase := .queued, locks := [], lsExp := 0, step := 0, gated := false, begun := false, pos := 0, next := 0, taken := false,
    done := 0, sat := 0, nf := 0, memBad := false, totDone := 0, totSat := 0, entries := [] }

def Cmd.updEngine (c : Cmd) : Nat :=
  match c.pkt.opcode with
  | 0x0800 => c.pkt.f 302 301
  | 0x0801 => c.pkt.f 149 148
  | _ => c.pkt.f 170 169

/-- The commands of an engine in dispatch order, the first running. -/
def Block.updQueue (b : Block) (q : Nat) : List (Cmd × UpdWork) :=
  b.mer.running.filterMap (fun c => match c.work with
    | .upd w => if c.updEngine = q then some (c, w) else none
    | _ => none)

/-- DAs of the descriptors a command names. -/
def Cmd.updDescs (c : Cmd) : List Nat :=
  if c.pkt.opcode = 0x0800 then
    (List.range (c.pkt.f 314 303)).map (fun i => c.pkt.f 434 383 + 64 * (c.pkt.f 330 315 + i))
  else [c.pkt.f 255 204]

def updSet (c : Cmd) (k : Nat) : Nat := c.pkt.f (512 + 256 * k + 255) (512 + 256 * k)

/-- A command of an engine ends, its Tally transfer with it (R454). -/
def Block.updEnd (c : Cmd) (st detail result : Nat) (b : Block) : Block :=
  (b.tallyEnd 5 c.updEngine c.id (decide (statusClass st ≤ 1))).completeId c.id st detail result

/-- A check-word mismatch (R265, R327): the command ends, the module enters Shutter. -/
def Block.updCheckWord (c : Cmd) (b : Block) : Block :=
  (b.updEnd c Status.checkWord 0 0).latchCause 1 Status.checkWord

/-- Read a descriptor or a record: an uncorrectable word ends the command before the read's own consequences (R342). -/
def Block.updRead (c : Cmd) (da n : Nat) (k : List Byte → Block → Block) (b : Block) : Block :=
  match b.badWord da n with
  | some _ => ((b.updEnd c Status.memUncorrectable 0 0).daRead da n).2
  | none => b.cmdRead c.id da n k

/-- Step 6 of R333. -/
def Block.descOk (b : Block) (d : Desc) : Bool :=
  let notFour (a : Nat) : Bool := attrClass a ≠ 4
  decide (dRecipe d ≤ 4) && decide (1 ≤ dBlocks d) &&
    (!dSparse d || (decide (1 ≤ dRowBlocks d) && dBlocks d % dRowBlocks d = 0 &&
      b.pagesAll (dTouch d) (ceilDiv (dBlocks d / dRowBlocks d) 8) notFour)) &&
    dRec d % 64 = 0 && dGrad d % 128 = 0 &&
    b.pagesAll (dRec d) (recSize (dMfmt d) * dBlocks d) (fun a => attrClass a = 2 || attrClass a = 3) &&
    b.pagesAll (dGrad d) (128 * dBlocks d) notFour

/-- Steps 6 and 7 for the descriptors of an UPDATE: a refusal, with DETAIL and RESULT. -/
def Block.updRefusal (b : Block) (c : Cmd) : Option (Nat × Nat × Nat) :=
  let ds := (c.updDescs.map (fun da => b.rd da 64)).zipIdx
  match ds.find? (fun x => !b.descOk x.1) with
  | some x => some (Status.badParam, x.2, 0)
  | none =>
    let expect := c.pkt.f 511 480
    let steps (d : Desc) : Nat := (dApplied d + dSkipped d) % 2 ^ 32
    match ds.find? (fun x => !dFreeze x.1 && steps x.1 ≠ expect) with
    | some x => some (Status.stepMismatch, steps x.1, fields [(0, expect), (32, x.2)])
    | none => none

/-- Is a descriptor's lock held by another command? [log 79 DEDUCED] -/
def Block.updLocked (b : Block) (c : Cmd) (da : Nat) : Bool :=
  b.mer.running.any (fun x => x.id ≠ c.id && (match x.work with | .upd w => w.locks.contains da | _ => false))

/-- FREEZE_SET once its descriptor is locked and checked (R340). -/
def Block.freezeGo (c : Cmd) (d : Desc) (da : Nat) (b : Block) : Block :=
  let want := bit c.pkt.pnum 171
  if want = dFreeze d then b.updEnd c Status.ok 0 (dApplied d)
  else if b.writeWaits da 64 then b
  else
    let d1 := setBit d 146 want
    let d2 := if want then d1 else putBits d1 479 448 (c.pkt.f 203 172 + 2 ^ 32 - dApplied d)
    b.cmdWrite c.id da (leBytes 64 (dSeal d2)) (fun b => b.updEnd c Status.ok 0 (dApplied d))

/-- MOMENT_FORMAT once its descriptor is locked and checked (R343): the new area. -/
def Block.formatGo (c : Cmd) (w : UpdWork) (d : Desc) (b : Block) : Block :=
  let dst := c.pkt.f 203 152
  let n := recSize (c.pkt.f 151 151) * dBlocks d
  let m := recSize (dMfmt d) * dBlocks d
  if !b.pagesAll dst n (fun a => attrClass a = 3) || (decide (dst < dRec d + m) && decide (dRec d < dst + n)) then
    b.updEnd c Status.badParam 0 0
  else (b.setWork c.id (.upd { w with phase := .pass, begun := true })).tallyStart 5 c.updEngine c.id

/-- All locks are held: the checks of every DCHECK, then the command's own (R333 steps 5 to 7, R340, R343). -/
def Block.updLockedGo (c : Cmd) (w : UpdWork) (b : Block) : Block :=
  -- read every descriptor; the first bad one ends the command
  let b := c.updDescs.foldl (fun b da =>
    if (b.cmd c.id).isNone then b
    else b.updRead c da 64 (fun bs b => if dCheckOk (leNat bs) then b else b.updCheckWord c)) b
  if (b.cmd c.id).isNone then b
  else
    let da := c.updDescs.headD 0
    match c.pkt.opcode with
    | 0x0800 =>
      match b.updRefusal c with
      | some (st, detail, result) => b.updEnd c st detail result
      | none => (b.setWork c.id (.upd { w with phase := .pass })).tallyStart 5 c.updEngine c.id
    | 0x0801 => b.formatGo c w (b.rd da 64)
    | _ => b.freezeGo c (b.rd da 64) da

/-- Take the next locks, in ascending descriptor DA, as far as they are free. [log 79 DEDUCED] -/
def Block.takeLocks (b : Block) (c : Cmd) (held : List Nat) : List Nat → List Nat
  | [] => held
  | da :: das => if b.updLocked c da then held else b.takeLocks c (held ++ [da]) das

/-- Bring the running command of an engine forward through steps 3 to 7 of R333, one step a call. -/
def Block.updStep (q : Nat) (b : Block) : Block :=
  match (b.updQueue q).head? with
  | none => b
  | some (c, w) =>
    let go (w : UpdWork) (b : Block) : Block := b.setWork c.id (.upd w)
    match w.phase with
    | .queued => go { w with phase := if c.pkt.opcode = 0x0800 then .gate else .lock } b
    | .gate =>
      if c.pkt.f 300 300 = 0 || condHolds 0 (b.syncVal (c.pkt.f 479 467)) (c.pkt.f 466 435) then
        go { w with phase := .combine } b else b
    | .combine =>
      let r := b.stepRec
      if bits r 431 430 = 0 then b
      else go { w with phase := .lock, lsExp := sx 8 (bits r 455 448), step := bits r 639 576, gated := bits r 431 430 = 2 } b
    | .lock =>
      let locks := b.takeLocks c w.locks (c.updDescs.drop w.locks.length)
      let b := go { w with locks := locks } b
      if locks.length = c.updDescs.length then b.updLockedGo c { w with locks := locks } else b
    | .pass => b

/-- Every engine goes forward, the lower requester index first (R345). -/
def Block.updKick (b : Block) : Block :=
  (List.range 4).foldl (fun b q => (List.range 4).foldl (fun b _ => b.updStep q) b) b

/-! ### Dispatch: steps 1 and 2 of R333 -/

def Block.startUpdate (c : Cmd) (b : Block) : Block :=
  let p := c.pkt
  let n := p.f 314 303
  let table := p.f 434 383
  let status := p.f 382 331
  let descs := table + 64 * p.f 330 315
  if n = 0 ∨ 1024 < n ∨ table % 64 ≠ 0 ∨ status % 16 ≠ 0 ∨ (List.range 8).any (fun k => !hyperOk (updSet c k)) then
    b.refuse c Status.badParam 0
  else
    match (hbmStatus descs (64 * n)).or (hbmStatus status (16 * n)) with
    | some st => b.refuse c st 0
    | none =>
      if !b.pagesAll descs (64 * n) (fun a => attrClass a = 3) then b.refuse c Status.badParam 0
      else if b.train.table.isNone || !b.stepIsOpen then b.refuse c Status.badParam 2
      else (b.setWork c.id (.upd UpdWork.start)).updKick

/-- FREEZE_SET and MOMENT_FORMAT: their descriptor at step 12. -/
def Block.startDescCmd (c : Cmd) (b : Block) : Block :=
  let da := c.pkt.f 255 204
  match hbmStatus da 64 with
  | some st => b.refuse c st 0
  | none =>
    if da % 64 ≠ 0 || !b.pagesAll da 64 (fun a => attrClass a = 3) ||
        (c.pkt.opcode = 0x0801 && c.pkt.f 203 152 % 64 ≠ 0) then b.refuse c Status.badParam 0
    else (b.setWork c.id (.upd UpdWork.start)).updKick

/-! ### Step 8 (R335 to R342) -/

/-- Write a status entry and count it in the update section (R341, R380). -/
def Block.updStatus (c : Cmd) (pos st done sat nf : Nat) (b : Block) : Block :=
  let b := b.cmdWrite c.id (c.pkt.f 382 331 + 16 * pos)
    (leBytes 16 (fields [(0, st), (32, Nat.min nf (2 ^ 32 - 1)), (64, Nat.min sat (2 ^ 32 - 1)), (96, done)])) (fun b => b)
  let final := st = Status.ok || st = Status.frozenSkip || st = Status.updateGated || st = Status.saturated || st = Status.nonfinite
  if final then
    { b with train.updFinal := (b.train.updFinal + 1) % 2 ^ 32,
             train.finals := b.train.finals.set false (c.pkt.f 330 315 + pos) true }
  else b

def Block.updTake (b : Block) : Block := { b with train.updStarted := (b.train.updStarted + 1) % 2 ^ 32 }

/-- A gated update (R333): every entry UPDATE_GATED. -/
def Block.updGate (c : Cmd) (b : Block) : Block :=
  let n := c.pkt.f 314 303
  if b.writeWaits (c.pkt.f 382 331) (16 * n) then b
  else
    let b := (List.range n).foldl (fun b i =>
      if (b.cmd c.id).isSome then (b.updTake).updStatus c i Status.updateGated 0 0 0 else b) b
    b.updEnd c Status.updateGated 0 0

/-- The status of a finished tensor (R341). -/
def UpdWork.tensorStatus (w : UpdWork) : Nat :=
  if w.memBad then Status.memUncorrectable else if 0 < w.nf then Status.nonfinite
  else if 0 < w.sat then Status.saturated else Status.ok

/-- Completion: the highest of the entries by R505; what blocks have already logged is not logged again. -/
def Block.updFinish (c : Cmd) (w : UpdWork) (b : Block) : Block :=
  let b := w.entries.dropLast.foldl (fun b st => if st = Status.nonfinite then b.acquireLogged c.id st else b.acquire c.id st) b
  b.updEnd c (w.entries.getLastD Status.ok) 0 (fields [(32, w.totDone % 2 ^ 32), (0, w.totSat % 2 ^ 32)])

/-- Everything of step 8 but the blocks: frozen descriptors, finished tensors and the completion, as far as no write waits.
It stops at a descriptor with a block to do. -/
def Block.updSettle (c : Cmd) : Nat → UpdWork → Block → Block
  | 0, _, b => b
  | fuel + 1, w, b =>
    if (b.cmd c.id).isNone then b
    else if c.pkt.f 314 303 ≤ w.pos then b.updFinish c w
    else
      let da := c.pkt.f 434 383 + 64 * (c.pkt.f 330 315 + w.pos)
      let d := b.rd da 64
      let stDa := c.pkt.f 382 331 + 16 * w.pos
      let b := if w.taken then b else b.updTake
      let w := { w with taken := true }
      let fresh := { w with pos := w.pos + 1, next := 0, taken := false, done := 0, sat := 0, nf := 0, memBad := false }
      if dFreeze d then
        if b.writeWaits stDa 16 then b.setWork c.id (.upd w)
        else
          let w1 := { fresh with entries := w.entries ++ [Status.frozenSkip] }
          ((b.updStatus c w.pos Status.frozenSkip 0 0 0).setWork c.id (.upd w1)).updSettle c fuel w1
      else if w.next < dBlocks d then b.setWork c.id (.upd w)
      else if b.writeWaits da 64 || b.writeWaits stDa 16 then b.setWork c.id (.upd w)
      else
        let st := w.tensorStatus
        let w1 := { fresh with entries := w.entries ++ [st], totDone := w.totDone + w.done, totSat := w.totSat + w.sat }
        b.cmdWrite c.id da (leBytes 64 (dSeal (putBits d 447 416 (dApplied d + 1)))) (fun b =>
          ((b.updStatus c w.pos st w.done w.sat w.nf).setWork c.id (.upd w1)).updSettle c fuel w1)

/-- A block left unwritten (R335): counted, and an error record. -/
def Block.updDoubt (c : Cmd) (w : UpdWork) (d : Desc) (index st : Nat) (b : Block) : Block :=
  let b := b.logCmd c st 5 c.updEngine (dTensor d) index
  b.setWork c.id (.upd { w with next := w.next + 1, nf := w.nf + 1, memBad := w.memBad || st = Status.memUncorrectable })

/-- One block of the descriptor in progress (R335). Where its record write must wait, nothing happens. [log 78 DEDUCED] -/
def Block.updBlock (c : Cmd) (w : UpdWork) (b : Block) : Block :=
  let d := b.rd (c.pkt.f 434 383 + 64 * (c.pkt.f 330 315 + w.pos)) 64
  let n := w.next
  let index := (dFirst d + n) % 2 ^ 32
  let da := dRec d + recSize (dMfmt d) * n
  if b.writeWaits da (recSize (dMfmt d)) then b
  else
    b.updRead c da (recSize (dMfmt d)) (fun bs b =>
      if !recOk (dMfmt d) (dTensor d) index bs then b.updCheckWord c
      else
        let row := n / dRowBlocks d
        let touch : Acc × Block := if dSparse d then b.daRead (dTouch d + row / 8) 1 else (.ok [255] false, b)
        let touched := match touch.1 with | .ok bs _ => bit (leNat bs) (row % 8) | .fail _ _ _ => true
        let b := touch.2
        if (b.cmd c.id).isNone then b
        else if dSparse d && !touched then b.setWork c.id (.upd { w with next := n + 1 })
        else
          match b.daRead (dGrad d + 128 * n) 128 with
          | (.fail _ _ _, b) => if (b.cmd c.id).isNone then b else b.updDoubt c w d index Status.memUncorrectable
          | (.ok gs corrected, b) =>
            let b := if corrected then b.acquireLogged c.id Status.memCorrected else b
            let seed := match b.ledger 0 with | some l => l.roundSeed | none => 0
            match updRecord d (updSet c (dHset d)) w.lsExp w.step seed index bs ((recCodes gs 0 32 4).map fp32.decode) with
            | none => b.updDoubt c w d index Status.nonfinite
            | some (new, sat) =>
              b.cmdWrite c.id da new (fun b =>
                (b.tallyData 5 c.updEngine c.id da new).setWork c.id
                  (.upd { w with next := n + 1, done := w.done + 1, sat := w.sat + sat })))

/-- The event of an UPDATE in step 8: the test of COMBINED once, then at most one block, and what follows from it. -/
def Block.updPass (c : Cmd) (w : UpdWork) (b : Block) : Block :=
  let b := if w.begun then b else { b with train.tested := true }
  let w := if w.begun then w else { w with begun := true, gated := w.gated || bits b.stepRec 431 430 = 2 }
  let b := b.setWork c.id (.upd w)
  if w.gated then b.updGate c
  else
    let settle (b : Block) : Block :=
      match b.cmd c.id with
      | some x => (match x.work with | .upd w => b.updSettle c (c.pkt.f 314 303 + 1) w | _ => b)
      | none => b
    let b := settle b
    match b.cmd c.id with
    | some x =>
      match x.work with
      | .upd w =>
        if w.taken && decide (w.next < dBlocks (b.rd (c.pkt.f 434 383 + 64 * (c.pkt.f 330 315 + w.pos)) 64)) &&
            !dFreeze (b.rd (c.pkt.f 434 383 + 64 * (c.pkt.f 330 315 + w.pos)) 64) then
          settle (b.updBlock c w)
        else b
      | _ => b
    | none => b

/-- The record of a block in the new format (R343): its moments are rebuilt and encoded again, whatever the two formats are; and
the saturations of rebuilding them. -/
def formatRecord (d : Desc) (mfmt : Nat) (stoch : Bool) (index : Nat) (bs : List Byte) : List Byte × Nat :=
  let old := dMfmt d
  let v := recV old bs
  let mo := momentsEnc mfmt (recM old bs) v.1
  let keep := stoch = dStoch d
  (recBytes mfmt (dTensor d) index (bs.take 64) (if keep then (bs.drop 64).take 32 else zeros 32)
    (if keep then recRemScale old bs else 0) mo (recRowT old bs), v.2)

/-- One block of a MOMENT_FORMAT, and after the last one the descriptor (R343, R401). -/
def Block.formatPass (c : Cmd) (w : UpdWork) (b : Block) : Block :=
  let dda := c.pkt.f 255 204
  let d := b.rd dda 64
  let mfmt := c.pkt.f 151 151
  let stoch := bit c.pkt.pnum 150
  let dst := c.pkt.f 203 152
  let n := w.next
  if n < dBlocks d then
    let da := dRec d + recSize (dMfmt d) * n
    let dstTo := dst + recSize mfmt * n
    let index := (dFirst d + n) % 2 ^ 32
    if b.writeWaits dstTo (recSize mfmt) then b
    else
      b.updRead c da (recSize (dMfmt d)) (fun bs b =>
        if !recOk (dMfmt d) (dTensor d) index bs then b.updCheckWord c
        else
          let r := formatRecord d mfmt stoch index bs
          b.cmdWrite c.id dstTo r.1 (fun b =>
            (b.tallyData 5 c.updEngine c.id dstTo r.1).setWork c.id (.upd { w with next := n + 1, sat := w.sat + r.2 })))
  else if b.writeWaits dda 64 then b
  else
    let d1 := setBit (putBits (putBits d 415 364 dst) 148 148 mfmt) 147 stoch
    b.cmdWrite c.id dda (leBytes 64 (dSeal d1)) (fun b =>
      let b := if mfmt = 1 && !b.fab.emul.isEmpty then b.logYield Status.rankLost (dTensor d) 0 3 3 15 0 0 else b
      b.updEnd c Status.ok 0 w.sat)

/-- UPDATE_BLOCK_PASS of an engine: its running command does a block. [log 76 DEDUCED] -/
def Block.blockPass (q : Nat) (b : Block) : Block :=
  if b.shut.shut then b
  else
    let b := b.updKick
    let b := match (b.updQueue q).head? with
      | some (c, w) =>
        if w.phase ≠ UpdPhase.pass then b else if c.pkt.opcode = 0x0800 then b.updPass c w else b.formatPass c w
      | none => b
    b.updKick

def execUpdateBlockPass (q : Nat) (s : State) : Host.Outcome State Fault Refusal := s.run (Block.blockPass q)

end Sys2Proof.Machine
end

