-- ==== Sys2Proof/Machine/Merlen.lean ====
section
/-!
DEFINITION. Merlen (spec/02): the checks of R54 on a packet, the order of dispatch (R55, R56), the sealed packets (R57 to R59),
the commands of tile programs (R60, R61), and one meaning for each command a packet can spell.
-/

namespace Sys2Proof.Machine

/-! ### The opcodes (R49) and the rule of each on its parameters -/

/-- PLEN that the rule of an opcode asks of a packet: none where no PLEN is right, or the opcode is undefined. -/
def plenRule (p : Packet) : Option Nat :=
  match p.opcode with
  | 0x0000 | 0x0001 | 0x0004 | 0x0005 | 0x0006 => some 0
  | 0x0002 | 0x0003 | 0x0100 | 0x0101 | 0x0102 | 0x0103 => some 16
  | 0x0007 => some 128
  | 0x0200 | 0x0202 => some 32
  | 0x0201 => some 96
  | 0x0300 | 0x0301 | 0x0400 => some 256
  | 0x0401 => some 384
  | 0x0402 => some 64
  | 0x0403 | 0x0404 | 0x0405 => some 32
  | 0x0500 => some (8 + 144 * (maskList 16 (p.f 15 0)).length)
  | 0x0501 => some 64
  | 0x0502 => some 16
  | 0x0600 | 0x0601 | 0x0602 => some 64
  | 0x0700 => some (8 + 8 * (maskList 32 (p.f 31 0)).length)
  | 0x0701 => some 64
  | 0x0800 => some 320
  | 0x0801 | 0x0802 => some 32
  | 0x0900 | 0x0901 | 0x0902 | 0x0903 | 0x0904 | 0x0905 | 0x0906 | 0x0908 => some 64
  | 0x0907 => some 16
  | 0x0909 => some 32
  | 0x0A00 => if p.f 15 0 = 0 ∨ 125 < p.f 15 0 then none else some (16 + 32 * p.f 15 0)
  | 0x0A01 => some 16
  | 0x0B00 => some (if p.f 511 508 = 0 then 64 + 32 * p.f 264 258 else 64)
  | 0x0B01 | 0x0B04 => some 32
  | 0x0B02 | 0x0B05 => some 64
  | 0x0B03 => some 16
  | 0x0C00 => some 416
  | 0x0C01 => some 16
  | 0x0C02 => some 48
  | 0x0C03 => some 64
  | 0x0C04 => grantLen p.params
  | 0x0D00 | 0x0D01 => some 16
  | 0x0E00 => some 64
  | 0x0E01 => some 16
  | 0x0E02 => some 32
  | 0x0F00 | 0x0F02 => some 32
  | 0x0F01 => some 16
  | _ => none

/-- How many operations each class has (R49). -/
def opsOfClass (k : Nat) : Nat := [8, 4, 3, 2, 6, 3, 3, 2, 3, 10, 2, 6, 5, 2, 3, 3].getD k 0

/-- Is an opcode defined? -/
def opDefined (op : Nat) : Bool := decide (op % 256 < opsOfClass (op / 256))

/-- Reserved fields of the parameters of a packet, as bit ranges. -/
def reservedOf (p : Packet) : List (Nat × Nat) :=
  let shift (base : Nat) (l : List (Nat × Nat)) : List (Nat × Nat) := l.map (fun r => (base + r.1, base + r.2))
  let each (n base step : Nat) (l : List (Nat × Nat)) : List (Nat × Nat) :=
    (List.range n).flatMap (fun i => shift (base + step * i) l)
  let attn := [(23, 0)] ++ each 4 512 256 [(103, 0)] ++ [(1536 + 99, 1536), (2047, 1792)]
  match p.opcode with
  | 0x0002 => [(75, 0)]
  | 0x0003 => [(29, 0)]
  | 0x0007 => [(127, 64), (1023, 896), (63, 33)]
  | 0x0100 | 0x0101 => [(82, 0)]
  | 0x0102 => [(79, 0)]
  | 0x0103 => [(127, 96), (82, 0)]
  | 0x0200 => [(111, 68), (63, 52)]
  | 0x0201 => [(97, 96), (63, 52)]
  | 0x0202 => [(111, 0)]
  | 0x0300 | 0x0301 =>
    [(215, 192), (49, 0)] ++ each 3 512 128 [(28, 0)] ++ [(896 + 103, 896), (1280 + 127, 1280), (2047, 1792)]
  | 0x0400 => attn
  | 0x0401 => attn ++ each 4 2048 256 [(103, 0)]
  | 0x0402 => [(252, 0)]
  | 0x0403 => [(199, 0)]
  | 0x0404 => [(214, 0)]
  | 0x0405 => [(203, 0)]
  | 0x0500 => [(63, 16)] ++ each (maskList 16 (p.f 15 0)).length 64 1152 [(1151, 1120)]
  | 0x0501 => [(302, 0)]
  | 0x0502 => [(56, 0)]
  | 0x0600 | 0x0601 | 0x0602 => [(143, 0)]
  | 0x0700 => [(63, 32)]
  | 0x0701 => [(382, 0)]
  | 0x0800 => [(299, 0)] ++ each 8 512 256 [(255, 224), (31, 0)]
  | 0x0801 => [(147, 0)]
  | 0x0802 => [(168, 0)]
  | 0x0900 | 0x0901 | 0x0902 | 0x0903 | 0x0904 => [(180, 0)]
  | 0x0905 | 0x0906 => [(329, 0)]
  | 0x0907 => [(73, 0)]
  | 0x0908 => [(395, 380), (303, 0)]
  | 0x0909 => [(164, 0)]
  | 0x0A00 => [(63, 16)] ++ each (p.f 15 0) 128 256 [(46, 36), (31, 0)]
  | 0x0A01 => [(63, 0)]
  | 0x0B00 => [(256, 0)] ++ each (if p.f 511 508 = 0 then p.f 264 258 else 0) 512 256 [(134, 0)]
  | 0x0B01 => [(131, 0)]
  | 0x0B02 => [(364, 0)]
  | 0x0B03 => [(71, 0)]
  | 0x0B04 => [(172, 0)]
  | 0x0B05 => [(404, 0)]
  | 0x0C00 => [(63, 48), (64 + 11, 64), (255, 128), (8 * 0x140 - 1, 8 * 0x100)]
  | 0x0C01 => [(127, 16)]
  | 0x0C02 => [(383, 308)]
  | 0x0C03 => [(111, 0)]
  | 0x0D00 => [(124, 0)]
  | 0x0E00 => [(255, 0)]
  | 0x0E01 => [(43, 0)]
  | 0x0E02 => [(122, 0)]
  | 0x0F00 => [(87, 0)]
  | 0x0F01 => [(110, 0)]
  | 0x0F02 => [(163, 0)]
  | _ => []

/-- The commands accepted in Shutter (R49). -/
def shutterOps : List Nat :=
  [0x0000, 0x0001, 0x0002, 0x0003, 0x0004, 0x0005, 0x0103, 0x0B01, 0x0B03, 0x0E01]

/-- The commands a tile program may issue (R49). -/
def tileOp (op : Nat) : Bool :=
  op / 256 = 1 || op / 256 = 6 || [0x0402, 0x0403, 0x0404, 0x0502, 0x0905, 0x0906].contains op

/-- The commands that need no seal where sealing is required (R58). -/
def sealExempt : List Nat := [0x0000, 0x0001, 0x0002, 0x0003, 0x0103, 0x0B03, 0x0E01, 0x0C00, 0x0C02]

/-! ### Engines -/

/-- Engine checks and start of a dispatched command (step 12 of R54). A sealed job without a secret has no port key for a fabric
command (R418). [log 16, 17 DEDUCED] -/
def Block.engineStart (c : Cmd) (b : Block) : Block :=
  match c.pkt.opcode with
  | 0x0000 => b.startNop c
  | 0x0001 => b.startStatus c
  | 0x0002 => b.startAlmanacRead c
  | 0x0003 => b.startLogRead c
  | 0x0004 => b.startOpen c
  | 0x0005 => b.startJobReset c
  | 0x0006 => b.startFenceAll c
  | 0x0007 => b.startJobBind c
  | 0x0100 => b.startSyncOp true c
  | 0x0101 => b.startSyncOp false c
  | 0x0102 => b.startSyncWait c
  | 0x0103 => b.startSyncRead c
  | 0x0200 => b.startProgLoad c
  | 0x0201 => b.startRun c
  | 0x0202 => b.startPreempt c
  | 0x0300 | 0x0301 => b.startConv c
  | 0x0400 | 0x0401 => b.startAttn c
  | 0x0402 | 0x0403 | 0x0404 => b.startKv c
  | 0x0405 => b.startKvRegenSet c
  | 0x0500 => b.startCodecTable c
  | 0x0501 => b.startCodecMap c
  | 0x0502 => b.startCodecFlush c
  | 0x0600 | 0x0601 | 0x0602 => b.startTier c
  | 0x0700 => b.startFwWrite c
  | 0x0701 => b.startScale c
  | 0x0800 => b.startUpdate c
  | 0x0801 | 0x0802 => b.startDescCmd c
  | 0x0900 | 0x0901 | 0x0902 | 0x0903 | 0x0904 | 0x0907 => b.startColl c
  | 0x0905 | 0x0906 => b.p2pStart c
  | 0x0908 => b.startTreeSet c
  | 0x0909 => b.startExportSet c
  | 0x0A00 => b.startEphWrite c
  | 0x0A01 => b.startEphCancel c
  | 0x0B00 => b.startSnapCfg c
  | 0x0B01 => b.startSnapDrain c
  | 0x0B02 | 0x0B05 => b.startRecovery c
  | 0x0B03 => b.startLedgerRead c
  | 0x0B04 => b.startParitySet c
  | 0x0C00 => b.startSessionOpen c
  | 0x0C01 => b.startSessionClose c
  | 0x0C02 => b.startAttest c
  | 0x0C03 => b.startKeyRotate c
  | 0x0C04 => b.startDebugUnlock c
  | 0x0D00 => b.startPlSet c
  | 0x0D01 => b.startSleep c
  | 0x0E00 => b.startCsuCfg c
  | 0x0E01 => b.startCsuRead c
  | 0x0E02 => b.startCsuWrite c
  | 0x0F00 => b.startMemFill c
  | 0x0F01 => b.startScrubCfg c
  | 0x0F02 => b.startDomainSet c
  | _ => b.refuse c Status.badOpcode 0

/-- Is a command one of the fabric's that needs a port key? -/
def Cmd.needsPortKey (c : Cmd) : Bool := c.pkt.cls = 9 && decide (c.pkt.opcode ≤ 0x0907)

def Block.startEngine (c : Cmd) (b : Block) : Block :=
  if b.trust.sealedReq && !b.trust.secretSet && c.needsPortKey then b.refuse c Status.badParam 0x22
  else b.engineStart c

/-- Is there room in the queue of a command's engine (R56, R297, R325)? -/
def Block.queueRoom (b : Block) (c : Cmd) : Bool :=
  match c.pkt.cls with
  | 6 => decide ((b.tierQueue c.tChannel).length < 17)
  | 8 => decide ((b.mer.running.filter (fun (x : Cmd) => x.pkt.cls = 8 && x.updEngine = c.updEngine)).length < 17)
  | _ => true

/-! ### Dispatch (R55, R56) -/

/-- The commands of a packet's own queue: its ring, or its quadrant's tile command queue. -/
def sameQueue : Src → Src → Bool
  | .ring n, .ring m => n = m
  | .tile t, .tile u => t / 36 = u / 36
  | _, _ => false

/-- Have the packets of a queue that were dispatched before all completed? -/
def Block.fenceOk (b : Block) (s : Src) : Bool :=
  b.mer.running.all (fun c => !sameQueue c.pkt.src s) && b.mer.tileFailed.all (fun x => !sameQueue x.1.pkt.src s)

/-- May the oldest held packet of a queue be dispatched now? Its entry was reserved when it was read. [log 23 DEDUCED] -/
def Block.canStart (b : Block) (c : Cmd) : Bool :=
  b.isReady && b.isAwake && (!c.pkt.waitEn || condHolds c.pkt.waitCond (b.syncVal c.pkt.waitCtr) c.pkt.waitVal) &&
    (!c.pkt.fence || b.fenceOk c.pkt.src) && b.queueRoom c

/-- The packets a queue holds before dispatch. -/
def Block.heldOf (b : Block) : Src → List Cmd
  | .ring n => (b.ring n).held
  | .tile t => b.mer.tileHeld.get [] (t / 36)

def Block.setHeld (s : Src) (l : List Cmd) (b : Block) : Block :=
  match s with
  | .ring n => b.setRing n { b.ring n with held := l }
  | .tile t => { b with mer.tileHeld := b.mer.tileHeld.set [] (t / 36) l }

/-- A command is dispatched: it runs, and its control core served its ring last (R55). -/
def Block.dispatched (c : Cmd) (b : Block) : Block :=
  { b with
    mer.running := b.mer.running ++ [c],
    mer.lastServed := match c.pkt.src with
      | .ring n => b.mer.lastServed.set 63 (n / 16) n
      | .tile _ => b.mer.lastServed }

/-- Dispatch: the command runs, and its engine takes it. [log 17 DEDUCED] -/
def Block.dispatch (c : Cmd) (b : Block) : Block := (b.dispatched c).startEngine c

/-- Dispatch the oldest held packet of a queue, if it may start. -/
def Block.tryDispatch (s : Src) (b : Block) : Block :=
  match b.heldOf s with
  | [] => b
  | c :: rest => if b.canStart c then (b.setHeld s rest).dispatch c else b

/-! ### Sealed packets (R57, R58) -/

/-- AAD of a packet: header bytes 0–59 with TAG, SEQ and AUTH_TAG zero. -/
def packetAad (p : Packet) : List Byte :=
  (leBytes 64 (putBits (putBits p.hdr.toNat 127 64 0) 479 352 0)).take 60

/-- A packet with its parameters decrypted under a session's key. -/
def openWith (p : Packet) (s : Session) : Packet :=
  { p with params := xorBytes p.params (Config.gcmStream s.key (gcmIv s.salt p.nonce) p.params.length) }

/-- A packet as its commands read it: decrypted where it is sealed in an open session. -/
def Block.clear (b : Block) (p : Packet) : Packet :=
  match p.src with
  | .tile _ => p
  | .ring _ =>
    if p.isSealed then
      match b.session p.session with
      | some s => openWith p s
      | none => p
    else p

/-- Must a ring packet be sealed (R58)? -/
def Block.mustSeal (b : Block) (n : Nat) (p : Packet) : Bool :=
  ((b.ring n).latched.sealedOnly || b.trust.sealedReq) && !sealExempt.contains p.opcode

def Block.setSession (s : Session) (b : Block) : Block :=
  { b with trust.sessions := b.trust.sessions.map (fun (x : Session) => if x.num = s.num then s else x) }

/-- What step 7 finds: a refusal, or the key and salt that seal the completion (none for a packet in clear). -/
inductive SealCheck where
  | refused (status : Nat)
  | clear
  | sealed_ (key salt : Nat)
deriving DecidableEq, Repr

/-- Step 7 of R54. The sixteenth consecutive AUTH_FAIL closes the session. [log 18 DEDUCED] -/
def Block.checkSeal (n : Nat) (p : Packet) (b : Block) : SealCheck × Block :=
  if !p.isSealed then (if b.mustSeal n p then .refused Status.notSealed else .clear, b)
  else match b.session p.session with
  | none => (.refused Status.sessionUnknown, b)
  | some s =>
    if 2 ^ 63 ≤ p.nonce ∨ p.nonce ≤ s.last then (.refused Status.replay, b)
    else if Config.gcmTag s.key (gcmIv s.salt p.nonce) (packetAad p) p.params % 2 ^ 128 = p.authTag then
      (.sealed_ s.key s.salt, b.setSession { s with last := p.nonce, fails := 0 })
    else if 15 ≤ s.fails then (.refused Status.authFail, b.closeSession s.num)
    else (.refused Status.authFail, b.setSession { s with fails := s.fails + 1 })

/-! ### Validation (R54) -/

/-- Steps 2 and 3, for a ring packet: status and DETAIL. -/
def Block.checkRing (b : Block) (n : Nat) (p : Packet) : Option (Nat × Nat) :=
  if crc32c (p.hdrBytes.take 60 ++ p.params) ≠ p.check then some (Status.badCheck, 0)
  else if p.seq ≠ (b.ring n).seqNext then some (Status.seqMismatch, (b.ring n).seqNext)
  else none

/-- Steps 4 to 6: reserved header bits, the opcode, the job (R50). [log 18 DEDUCED] -/
def Block.checkHead (b : Block) (p : Packet) : Option (Nat × Nat) :=
  if p.h 287 272 ≠ 0 ∨ p.h 63 42 ≠ 0 ∨ p.h 36 36 ≠ 0 then some (Status.reservedSet, 0)
  else if !opDefined p.opcode then some (Status.badOpcode, 0)
  else
    let job := b.trust.job
    let ok := if p.opcode = 0x0007 then decide (p.job = 0 ∧ job = 0)
      else if job = 0 then decide (p.job = 0) && [0x00, 0x0C, 0x0D].contains p.cls
      else decide (p.job = job)
    if ok then none else some (Status.jobMismatch, job)

/-- Step 8. -/
def checkLength (p : Packet) : Bool := plenRule p = some p.plen && p.slots = ceilDiv (64 + p.plen) 64

/-- Is a command accepted in Shutter? -/
def Block.shutterTakes (b : Block) (op : Nat) : Bool :=
  !b.shut.shut || (shutterOps.contains op && !(op = 0x0B01 && b.trust.bootState = 4))

/-- Steps 8 to 11, on the packet in clear. A packet that a tile program may not issue is refused ORIGIN_DENIED once its header
has passed (R60). [log 19 DEDUCED] -/
def Block.checkBody (b : Block) (p : Packet) : Option (Nat × Nat) :=
  if (match p.src with | .tile _ => !tileOp p.opcode | .ring _ => false) then some (Status.originDenied, 0)
  else if !checkLength p then some (Status.badLength, 0)
  else if (reservedOf p).any (fun r => p.f r.1 r.2 ≠ 0) then some (Status.reservedSet, 0)
  else if !b.shutterTakes p.opcode then some (Status.inShutter, 0)
  else if (p.waitEn && decide (4 ≤ p.waitCond)) || (p.sigEn && decide (2 ≤ p.sigOp)) then some (Status.badSync, 0)
  else none

/-- Reading a packet gives it a command of its own. -/
def Block.newCmd (p : Packet) (ring : Nat) (sealedOk : Option (Nat × Nat)) (b : Block) : Cmd × Block :=
  ({ id := b.mer.nextId, pkt := p, ring := ring, sealedOk := sealedOk, acq := [], detail := 0, result := 0, rsp := [], fmts := 0,
     work := .none }, { b with mer.nextId := b.mer.nextId + 1 })

/-- The effects that come with the validation itself: JOB_RESET (R420) and the close of a session (R417). [log 27 DEDUCED] -/
def Block.atValidation (c : Cmd) (b : Block) : Block :=
  if c.pkt.opcode = 0x0005 then b.jobReset (some c.id)
  else if c.pkt.opcode = 0x0C01 && c.closesOwn then b.closeSession c.pkt.session
  else b

/-- A packet that has passed steps 1 to 7: refused at steps 8 to 11, or held and, where nothing forbids, dispatched. -/
def Block.accept (c : Cmd) (b : Block) : Block :=
  match b.checkBody c.pkt with
  | some r => b.complete c r.1 r.2 0
  | none =>
    let b := b.atValidation c
    (b.setHeld c.pkt.src (b.heldOf c.pkt.src ++ [c])).tryDispatch c.pkt.src

/-- Steps 2 to 11 on a ring packet that Merlen has read. -/
def Block.validate (n : Nat) (p : Packet) (b : Block) : Block :=
  match (b.checkRing n p).or (b.checkHead p) with
  | some r =>
    let c := b.newCmd p n none
    c.2.complete c.1 r.1 r.2 0
  | none =>
    match b.checkSeal n p with
    | (.refused st, b) =>
      let c := b.newCmd p n none
      c.2.complete c.1 st 0 0
    | (.clear, b) =>
      let c := b.newCmd p n none
      c.2.accept c.1
    | (.sealed_ key salt, b) =>
      let c := b.newCmd (openWith p { num := 0, key := key, salt := salt, last := 0, fails := 0 }) n (some (key, salt))
      c.2.accept c.1

/-- Steps 4 to 11 on a packet of a tile program. [log 19 DEDUCED] -/
def Block.validateTile (p : Packet) (ring : Nat) (b : Block) : Block :=
  let c := b.newCmd p ring none
  match b.checkHead p with
  | some r => c.2.complete c.1 r.1 r.2 0
  | none => c.2.accept c.1

/-! ### Reading packets (R38, R39, R47, R55) -/

/-- Slots written and not yet read. -/
def Ring.waiting (r : Ring) : Nat := (r.subTail + r.subSize - r.subHead) % r.subSize

/-- May Merlen read the next packet of a ring: it is enabled and runs, a packet is there, and a completion entry is free? A
host-memory ring has its slots fetched first. [log 26 DEDUCED] -/
def Block.canRead (b : Block) (n slots : Nat) : Bool :=
  let r := b.ring n
  b.isReady && b.isAwake && r.enable && !r.stopped && decide (0 < r.waiting) && b.entryFree n &&
    (r.latched.loc || decide (Nat.min slots r.waiting ≤ r.fetched))

/-- SUB_HEAD and SEQ_NEXT of a ring that stood as r advance past a packet (R54). -/
def Block.ringPast (n : Nat) (p : Packet) (r : Ring) (b : Block) : Block :=
  b.setRing n { b.ring n with
    subHead := (r.subHead + p.slots) % r.subSize, seqNext := (r.seqNext + 1) % 2 ^ 32, fetched := r.fetched - p.slots }

/-- Merlen takes packet p at SUB_HEAD of ring n: step 1, then SUB_HEAD and SEQ_NEXT advance, and the other steps follow. -/
def Block.readRing (n : Nat) (p : Packet) (b : Block) : Block :=
  let r := b.ring n
  if p.slots = 0 ∨ 64 < p.slots ∨ r.waiting < p.slots then b.ringError n Status.badLength
  else
    (b.validate n p).ringPast n p r

/-- A byte of the submission ring: byte i counted from SUB_HEAD. [log 24 DESIGN CHOICE] -/
def Block.subByte (b : Block) (n i : Nat) : Byte :=
  let r := b.ring n
  let at_ := (64 * r.subHead + i) % (64 * r.subSize)
  if r.latched.loc then b.mem.bytes.get 0 (b.subAddr n + at_) else r.buf.get 0 at_

/-- The packet at SUB_HEAD. [log 15 DESIGN CHOICE] -/
def Block.headPacket (b : Block) (n : Nat) : Packet :=
  let hdr := leNat ((List.range 64).map (b.subByte n))
  { src := .ring n, hdr := BitVec.ofNat 512 hdr, params := (List.range (bits hdr 35 24)).map (fun i => b.subByte n (64 + i)) }

/-- Merlen takes packet p from where it came: the ring's next packet, or the oldest of the quadrant's tile command queue.
[log 15 DESIGN CHOICE] -/
def Block.take (p : Packet) (b : Block) : Block :=
  match p.src with
  | .ring n => if b.canRead n p.slots then b.readRing n p else b
  | .tile t =>
    match b.mer.tileQ.get [] (t / 36) with
    | [] => b
    | (q, ring) :: rest =>
      if q = p && b.isReady && b.isAwake then
        ({ b with mer.tileQ := b.mer.tileQ.set [] (t / 36) rest } : Block).validateTile p ring
      else b

/-- Has a ring a packet that can be dispatched now, or read with none held before it? [log 25 DEDUCED] -/
def Block.ringDue (b : Block) (n : Nat) : Bool :=
  match (b.ring n).held with
  | c :: _ => b.canStart c
  | [] => b.canRead n (b.headPacket n).slots

/-- The ring a core serves next among some: the highest priority, then round-robin after the one it served last (R55).
[log 25 DEDUCED] -/
def Block.pickRing (b : Block) (core : Nat) (ok : Nat → Bool) : Option Nat :=
  let last := b.mer.lastServed.get 63 core % 16
  let order := (List.range 16).map (fun i => 16 * core + (last + 1 + i) % 16)
  [0, 1, 2, 3].findSome? (fun prio => order.find? (fun n => (b.ring n).latched.prio = prio && ok n))

/-- PACKET_DISPATCH (R55, R56): control core c serves its tile command queue, or the ring it picks; with nothing to dispatch it
reads the next packet of a ring that holds others. [log 15 DESIGN CHOICE; 25 DEDUCED] -/
def Block.serve (core : Nat) (tileQueue : Bool) (b : Block) : Block :=
  if tileQueue then
    match b.mer.tileHeld.get [] core with
    | c :: _ => b.tryDispatch c.pkt.src
    | [] =>
      match b.mer.tileQ.get [] core with
      | (p, _) :: _ => b.take p
      | [] => b
  else
    match b.pickRing core b.ringDue with
    | some n => if (b.ring n).held.isEmpty then b.take (b.headPacket n) else b.tryDispatch (.ring n)
    | none =>
      match b.pickRing core (fun n => b.canRead n (b.headPacket n).slots) with
      | some n => b.take (b.headPacket n)
      | none => b

/-! ### One meaning for each command a packet spells -/

/-- The command that a packet spells, with the action that its parameters name, if any. [log 16 DEDUCED] -/
def Block.spells (b : Block) (op : Nat) (act : Packet → Bool) (p : Packet) : Bool := p.opcode = op && act (b.clear p)

/-- A packet's command: Merlen takes the packet, if it spells this command. [log 15 DESIGN CHOICE] -/
def Block.packet (op : Nat) (act : Packet → Bool) (p : Packet) (b : Block) : Block := if b.spells op act p then b.take p else b

def anyAct (_ : Packet) : Bool := true
/-- The ACTION of R235, R275, R317, R366, R378, R398. -/
def actIs (n : Nat) (p : Packet) : Bool := p.f 511 508 = n

def execNop (p : Packet) (s : State) : Host.Outcome State Fault Refusal := s.run (Block.packet 0x0000 anyAct p)
def execStatus (p : Packet) (s : State) : Host.Outcome State Fault Refusal := s.run (Block.packet 0x0001 anyAct p)
def execAlmanacRead (p : Packet) (s : State) : Host.Outcome State Fault Refusal := s.run (Block.packet 0x0002 anyAct p)
def execLogRead (p : Packet) (s : State) : Host.Outcome State Fault Refusal := s.run (Block.packet 0x0003 anyAct p)
def execOpenShutter (p : Packet) (s : State) : Host.Outcome State Fault Refusal := s.run (Block.packet 0x0004 anyAct p)
def execJobReset (p : Packet) (s : State) : Host.Outcome State Fault Refusal := s.run (Block.packet 0x0005 anyAct p)
def execFenceAll (p : Packet) (s : State) : Host.Outcome State Fault Refusal := s.run (Block.packet 0x0006 anyAct p)
def execJobBind (p : Packet) (s : State) : Host.Outcome State Fault Refusal := s.run (Block.packet 0x0007 anyAct p)
def execSyncSet (p : Packet) (s : State) : Host.Outcome State Fault Refusal := s.run (Block.packet 0x0100 anyAct p)
def execSyncAdd (p : Packet) (s : State) : Host.Outcome State Fault Refusal := s.run (Block.packet 0x0101 anyAct p)
def execSyncWait (p : Packet) (s : State) : Host.Outcome State Fault Refusal := s.run (Block.packet 0x0102 anyAct p)
def execSyncRead (p : Packet) (s : State) : Host.Outcome State Fault Refusal := s.run (Block.packet 0x0103 anyAct p)
def execProgLoad (p : Packet) (s : State) : Host.Outcome State Fault Refusal := s.run (Block.packet 0x0200 anyAct p)
def execRun (p : Packet) (s : State) : Host.Outcome State Fault Refusal := s.run (Block.packet 0x0201 anyAct p)
def execPreempt (p : Packet) (s : State) : Host.Outcome State Fault Refusal := s.run (Block.packet 0x0202 anyAct p)
def execConv3d (p : Packet) (s : State) : Host.Outcome State Fault Refusal := s.run (Block.packet 0x0300 anyAct p)
def execConv3dT (p : Packet) (s : State) : Host.Outcome State Fault Refusal := s.run (Block.packet 0x0301 anyAct p)
def execAttnFwd (p : Packet) (s : State) : Host.Outcome State Fault Refusal := s.run (Block.packet 0x0400 anyAct p)
def execAttnBwd (p : Packet) (s : State) : Host.Outcome State Fault Refusal := s.run (Block.packet 0x0401 anyAct p)
def execPoolInit (p : Packet) (s : State) : Host.Outcome State Fault Refusal := s.run (Block.packet 0x0402 (actIs 0) p)
def execSeqOpen (p : Packet) (s : State) : Host.Outcome State Fault Refusal := s.run (Block.packet 0x0402 (actIs 1) p)
def execSetDrop (p : Packet) (s : State) : Host.Outcome State Fault Refusal := s.run (Block.packet 0x0402 (actIs 2) p)
def execKvShare (p : Packet) (s : State) : Host.Outcome State Fault Refusal := s.run (Block.packet 0x0403 anyAct p)
def execKvFree (p : Packet) (s : State) : Host.Outcome State Fault Refusal := s.run (Block.packet 0x0404 anyAct p)
def execKvRegenSet (p : Packet) (s : State) : Host.Outcome State Fault Refusal := s.run (Block.packet 0x0405 anyAct p)
def execCodecTable (p : Packet) (s : State) : Host.Outcome State Fault Refusal := s.run (Block.packet 0x0500 anyAct p)
def execCodecMapCreate (p : Packet) (s : State) : Host.Outcome State Fault Refusal := s.run (Block.packet 0x0501 (actIs 0) p)
def execCodecMapDestroy (p : Packet) (s : State) : Host.Outcome State Fault Refusal := s.run (Block.packet 0x0501 (actIs 1) p)
def execCodecMapDiscard (p : Packet) (s : State) : Host.Outcome State Fault Refusal := s.run (Block.packet 0x0501 (actIs 2) p)
def execCodecFlush (p : Packet) (s : State) : Host.Outcome State Fault Refusal := s.run (Block.packet 0x0502 anyAct p)
def execDmaCopy (p : Packet) (s : State) : Host.Outcome State Fault Refusal := s.run (Block.packet 0x0600 anyAct p)
def execOffload (p : Packet) (s : State) : Host.Outcome State Fault Refusal := s.run (Block.packet 0x0601 anyAct p)
def execPrefetch (p : Packet) (s : State) : Host.Outcome State Fault Refusal := s.run (Block.packet 0x0602 anyAct p)
def execFwWrite (p : Packet) (s : State) : Host.Outcome State Fault Refusal := s.run (Block.packet 0x0700 anyAct p)
def execScaleSetInit (p : Packet) (s : State) : Host.Outcome State Fault Refusal := s.run (Block.packet 0x0701 (actIs 0) p)
def execScaleSetWrite (p : Packet) (s : State) : Host.Outcome State Fault Refusal := s.run (Block.packet 0x0701 (actIs 1) p)
def execFold (p : Packet) (s : State) : Host.Outcome State Fault Refusal := s.run (Block.packet 0x0701 (actIs 2) p)
def execScaleSetBind (p : Packet) (s : State) : Host.Outcome State Fault Refusal := s.run (Block.packet 0x0701 (actIs 3) p)
def execStepOpen (p : Packet) (s : State) : Host.Outcome State Fault Refusal := s.run (Block.packet 0x0701 (actIs 4) p)
def execStepClose (p : Packet) (s : State) : Host.Outcome State Fault Refusal := s.run (Block.packet 0x0701 (actIs 5) p)
def execUpdate (p : Packet) (s : State) : Host.Outcome State Fault Refusal := s.run (Block.packet 0x0800 anyAct p)
def execMomentFormat (p : Packet) (s : State) : Host.Outcome State Fault Refusal := s.run (Block.packet 0x0801 anyAct p)
def execFreezeSet (p : Packet) (s : State) : Host.Outcome State Fault Refusal := s.run (Block.packet 0x0802 anyAct p)
def execAllReduce (p : Packet) (s : State) : Host.Outcome State Fault Refusal := s.run (Block.packet 0x0900 anyAct p)
def execReduceScatter (p : Packet) (s : State) : Host.Outcome State Fault Refusal := s.run (Block.packet 0x0901 anyAct p)
def execAllGather (p : Packet) (s : State) : Host.Outcome State Fault Refusal := s.run (Block.packet 0x0902 anyAct p)
def execBroadcast (p : Packet) (s : State) : Host.Outcome State Fault Refusal := s.run (Block.packet 0x0903 anyAct p)
def execAllToAll (p : Packet) (s : State) : Host.Outcome State Fault Refusal := s.run (Block.packet 0x0904 anyAct p)
def execSend (p : Packet) (s : State) : Host.Outcome State Fault Refusal := s.run (Block.packet 0x0905 anyAct p)
def execRecv (p : Packet) (s : State) : Host.Outcome State Fault Refusal := s.run (Block.packet 0x0906 anyAct p)
def execFlagCombine (p : Packet) (s : State) : Host.Outcome State Fault Refusal := s.run (Block.packet 0x0907 anyAct p)
def execTreeSetSelf (p : Packet) (s : State) : Host.Outcome State Fault Refusal := s.run (Block.packet 0x0908 (actIs 0) p)
def execTreeSetDefine (p : Packet) (s : State) : Host.Outcome State Fault Refusal := s.run (Block.packet 0x0908 (actIs 1) p)
def execTreeSetRoutes (p : Packet) (s : State) : Host.Outcome State Fault Refusal := s.run (Block.packet 0x0908 (actIs 2) p)
def execTreeSetUndefine (p : Packet) (s : State) : Host.Outcome State Fault Refusal := s.run (Block.packet 0x0908 (actIs 3) p)
def execExportSet (p : Packet) (s : State) : Host.Outcome State Fault Refusal := s.run (Block.packet 0x0909 anyAct p)
def execEphWrite (p : Packet) (s : State) : Host.Outcome State Fault Refusal := s.run (Block.packet 0x0A00 anyAct p)
def execEphCancel (p : Packet) (s : State) : Host.Outcome State Fault Refusal := s.run (Block.packet 0x0A01 anyAct p)
def execConfig (p : Packet) (s : State) : Host.Outcome State Fault Refusal := s.run (Block.packet 0x0B00 (actIs 0) p)
def execCommit (p : Packet) (s : State) : Host.Outcome State Fault Refusal := s.run (Block.packet 0x0B00 (actIs 1) p)
def execLedgerSet (p : Packet) (s : State) : Host.Outcome State Fault Refusal := s.run (Block.packet 0x0B00 (actIs 2) p)
def execAdvise (p : Packet) (s : State) : Host.Outcome State Fault Refusal := s.run (Block.packet 0x0B00 (actIs 3) p)
def execSnapDrain (p : Packet) (s : State) : Host.Outcome State Fault Refusal := s.run (Block.packet 0x0B01 anyAct p)
def execRestore (p : Packet) (s : State) : Host.Outcome State Fault Refusal := s.run (Block.packet 0x0B02 anyAct p)
def execLedgerRead (p : Packet) (s : State) : Host.Outcome State Fault Refusal := s.run (Block.packet 0x0B03 anyAct p)
def execParitySet (p : Packet) (s : State) : Host.Outcome State Fault Refusal := s.run (Block.packet 0x0B04 anyAct p)
def execRollback (p : Packet) (s : State) : Host.Outcome State Fault Refusal := s.run (Block.packet 0x0B05 (actIs 0) p)
def execRebuild (p : Packet) (s : State) : Host.Outcome State Fault Refusal := s.run (Block.packet 0x0B05 (actIs 1) p)
def execSessionOpen (p : Packet) (s : State) : Host.Outcome State Fault Refusal := s.run (Block.packet 0x0C00 anyAct p)
def execSessionClose (p : Packet) (s : State) : Host.Outcome State Fault Refusal := s.run (Block.packet 0x0C01 anyAct p)
def execAttest (p : Packet) (s : State) : Host.Outcome State Fault Refusal := s.run (Block.packet 0x0C02 anyAct p)
def execKeyRotateDomain (p : Packet) (s : State) : Host.Outcome State Fault Refusal := s.run (Block.packet 0x0C03 (fun p => p.f 127 124 = 0) p)
def execKeyRotatePorts (p : Packet) (s : State) : Host.Outcome State Fault Refusal := s.run (Block.packet 0x0C03 (fun p => p.f 127 124 = 1) p)
def execKeyRotateJobSecret (p : Packet) (s : State) : Host.Outcome State Fault Refusal := s.run (Block.packet 0x0C03 (fun p => p.f 127 124 = 2) p)
def execDebugUnlock (p : Packet) (s : State) : Host.Outcome State Fault Refusal := s.run (Block.packet 0x0C04 anyAct p)
def execPlSet (p : Packet) (s : State) : Host.Outcome State Fault Refusal := s.run (Block.packet 0x0D00 anyAct p)
def execSleepIdleGate (p : Packet) (s : State) : Host.Outcome State Fault Refusal := s.run (Block.packet 0x0D01 (fun p => p.f 127 126 = 1) p)
def execSleepStow (p : Packet) (s : State) : Host.Outcome State Fault Refusal := s.run (Block.packet 0x0D01 (fun p => p.f 127 126 = 2) p)
def execSleepDark (p : Packet) (s : State) : Host.Outcome State Fault Refusal := s.run (Block.packet 0x0D01 (fun p => p.f 127 126 = 3) p)
def execCsuCfg (p : Packet) (s : State) : Host.Outcome State Fault Refusal := s.run (Block.packet 0x0E00 anyAct p)
def execCsuRead (p : Packet) (s : State) : Host.Outcome State Fault Refusal := s.run (Block.packet 0x0E01 anyAct p)
def execCsuWrite (p : Packet) (s : State) : Host.Outcome State Fault Refusal := s.run (Block.packet 0x0E02 anyAct p)
def execMemFill (p : Packet) (s : State) : Host.Outcome State Fault Refusal := s.run (Block.packet 0x0F00 anyAct p)
def execScrubCfg (p : Packet) (s : State) : Host.Outcome State Fault Refusal := s.run (Block.packet 0x0F01 anyAct p)
def execDomainSetDiscard (p : Packet) (s : State) : Host.Outcome State Fault Refusal := s.run (Block.packet 0x0F02 (fun p => p.f 164 164 = 0) p)
def execDomainSetMove (p : Packet) (s : State) : Host.Outcome State Fault Refusal := s.run (Block.packet 0x0F02 (fun p => p.f 164 164 = 1) p)
def execPacketDispatch (core : Nat) (tileQueue : Bool) (s : State) : Host.Outcome State Fault Refusal := s.run (Block.serve core tileQueue)

end Sys2Proof.Machine
end

