-- ==== Sys2Proof/Machine/Regs.lean ====
section
/-!
DEFINITION. BAR0 (R427 to R429): the register blocks as 32-bit words at their offsets, and which of them are served before READY
(R481).
-/

namespace Sys2Proof.Machine

def lo32 (x : Nat) : Nat := x % 2 ^ 32
def hi32 (x : Nat) : Nat := x / 2 ^ 32 % 2 ^ 32
/-- The half of a 64-bit register at an offset that a multiple of 8 precedes. -/
def half (x off : Nat) : Nat := if off % 8 = 0 then lo32 x else hi32 x

/-- DEV_STATUS (R429). -/
def Block.devStatus (b : Block) : Nat :=
  fields [(31, b2n b.shut.shut), (30, b2n (b.trust.job ≠ 0)), (29, b2n b.boot.ready), (27, b.host.tdisp.code)]

/-- Device and boot registers (R429, R480). -/
def Block.regDev (b : Block) (off : Nat) : Nat :=
  match off with
  | 0x00 => fields [(16, 0xA924), (8, Config.stepping % 256)]
  | 0x04 => b.devStatus
  | 0x0C => 16 * b.host.apertureBase
  | 0x20 => lo32 b.boot.addr
  | 0x24 => hi32 b.boot.addr
  | 0x28 => b.boot.len
  | 0x30 => fields [(28, b.boot.phase.code), (20, b.boot.step), (16, b.boot.fetchErr)]
  | 0x34 => b.boot.timeUs
  | _ => 0

/-- The hottest die sensor. -/
def PowerS.tempMax (p : PowerS) : Nat := (p.dieTemps.map (fun (e : Nat × Nat) => e.2)).foldl Nat.max 0

/-- Power and clock registers (R465), by offset in their block. -/
def Block.regPower (b : Block) (off : Nat) : Nat :=
  let p := b.pow
  match off with
  | 0x00 => fields [(29, p.eff), (26, p.requested), (23, p.ceiling), (20, p.limit), (19, b2n p.throttle), (18, b2n p.switching),
                    (14, p.limiter)]
  | 0x04 => p.cap
  | 0x08 => fields [(16, p.watts % 2 ^ 16), (8, p.tempMax % 256)]
  | 0x0C => fields [(31, b2n p.sidClk)]
  | 0x10 => p.refused
  | 0x14 => p.aborted
  | 0x18 => p.refuser
  | 0x1C => p.aborter
  | 0x20 => p.wakeReg
  | 0x24 => p.sleepTime
  | 0x28 => p.throttleTime
  | _ => if 0x40 ≤ off ∧ off < 0x60 then
      fields [(16, plMhz ((off - 0x40) / 4)), (0, Config.plVoltage ((off - 0x40) / 4) % 2 ^ 16)] else 0

/-- Log registers (R448). FIRST_FAULT is masked in a sealed job (R451). -/
def Block.regLog (b : Block) (off : Nat) : Nat :=
  let l := b.log
  match off with
  | 0x00 => l.newest
  | 0x04 => ((l.oldestFirst.head?).map (fun e => e.seq)).getD 0
  | 0x08 => l.lost
  | 0x0C => l.ack
  | 0x10 => fields [(21, l.vecFault), (14, l.vecWarn), (7, l.vecYield), (0, l.vecState)]
  | 0x14 => b.shut.active
  | 0x18 => b.shut.seen
  | _ => if 0x40 ≤ off ∧ off < 0x80 then
      match l.firstFault with
      | some e => leNat (((if b.trust.sealedReq then e.masked else e).bytes.drop (off - 0x40)).take 4)
      | none => 0
    else 0

/-- MSI-X: the pending bit array at 0x700 and the table at 0x800 (R433). -/
def Block.regMsix (b : Block) (off : Nat) : Nat :=
  let v (i : Nat) : Vector128 := b.host.msix.get Vector128.zero i
  if off < 0x710 then ((List.range 32).map (fun i => if (v (8 * (off - 0x700) + i)).pending then 2 ^ i else 0)).sum
  else if off < 0x800 then 0
  else
    let e := v ((off - 0x800) / 16)
    match off % 16 with
    | 0 => lo32 e.addr
    | 4 => hi32 e.addr
    | 8 => e.data
    | _ => b2n e.masked

/-- Trust registers (R410). -/
def Block.regTrust (b : Block) (off : Nat) : Nat :=
  let t := b.trust
  match off with
  | 0x00 => fields [(29, t.bootState), (24, t.bootErr), (20, t.bootTries), (18, t.debugLevel), (17, b2n t.sealedReq),
                    (16, b2n t.secretSet), (0, t.sessions.length)]
  | 0x04 => fields [(16, 32768 - t.lmsUsed), (0, t.bootLeft)]
  | 0x08 => fields [(8, t.svnImage), (0, t.svnFused)]
  | _ => if 0x20 ≤ off ∧ off < 0x40 then bits t.debugNonce (8 * (off - 0x20) + 31) (8 * (off - 0x20)) else 0

/-- Snapshot registers (R394). -/
def Block.regSnap (b : Block) (off : Nat) : Nat :=
  let led (f : Ledger → Nat) : Nat := ((b.train.ledgers.get none 0).map f).getD 0
  match off with
  | 0x00 => fields [(29, b.snap.st.code), (28, b2n (!b.train.invalid.isEmpty)), (27, b2n b.recovering)]
  | 0x04 => led (fun l => l.lastCut)
  | 0x08 => led (fun l => l.lastComplete)
  | 0x0C => b.snapFree.length
  | 0x10 => lo32 b.snap.bytes
  | 0x14 => hi32 b.snap.bytes
  | 0x18 => b.snap.waits
  | _ => 0

/-- Sidereal registers (R71). -/
def Block.regSid (b : Block) (off : Nat) : Nat :=
  let s := b.sid
  let disagree := ((List.range 8).map (fun m =>
    match s.codes.get none m with
    | some c => if c.agree then 0 else 2 ^ m
    | none => 0)).sum
  match off with
  | 0x00 => lo32 s.sc.toNat
  | 0x04 => s.latchHi.getD (hi32 s.sc.toNat)
  | 0x08 => fields [(29, s.state.code), (21, disagree), (20, b2n s.clkValid)]
  | 0x0C => fields [(16, s.slips), (0, s.spurious)]
  | 0x10 => s.holdTicks
  | 0x18 => lo32 (s.loadEpoch * 2 ^ 24)
  | 0x1C => hi32 (s.loadEpoch * 2 ^ 24)
  | 0x20 => b.ephFree
  | _ => 0

def RingCfg.word (c : RingCfg) (enable : Bool) : Nat :=
  fields [(31, b2n enable), (30, b2n c.loc), (29, b2n c.sealedOnly), (27, c.prio), (20, c.vector), (8, c.ssize), (4, c.csize)]

/-- Ring registers (R41), by ring and offset in its block. -/
def Block.regRing (b : Block) (n off : Nat) : Nat :=
  let r := b.ring n
  match off with
  | 0x00 => lo32 r.cfg.sbase
  | 0x04 => hi32 r.cfg.sbase
  | 0x08 => lo32 r.cfg.cbase
  | 0x0C => hi32 r.cfg.cbase
  | 0x10 => r.cfg.word r.enable
  | 0x14 => fields [(16, r.errCode), (2, b2n r.stopped), (1, b2n r.err), (0, b2n (b.ringIdle n))]
  | 0x18 => r.subTail
  | 0x1C => r.subHead
  | 0x20 => r.cplTail
  | 0x24 => r.cplHead
  | 0x28 => r.seqNext
  | _ => 0

/-- Memory registers (R268). -/
def Block.regMem (b : Block) (off : Nat) : Nat :=
  let count (st : PcState) : Nat := (b.mem.pcs.filter (fun (e : Nat × Pc) => e.2.st = st)).length
  match off with
  | 0x60 => b.mem.ceCount
  | 0x64 => b.mem.ueCount
  | 0x68 => fields [(31, b2n b.migrating.isSome), (21, b.migrating.getD 0), (4, count .fenced % 16), (0, count .retired)]
  | 0x6C => b.mem.scrubPasses
  | _ =>
    if off < 0x60 then
      let t := b.mem.temps.get (0, 0, 0) (off / 4)
      fields [(8, t.1 % 256), (2, t.2.1), (0, t.2.2)]
    else if 0x80 ≤ off ∧ off < 0xC0 then
      match b.mem.walks.find? (fun w => w.domain = (off - 0x80) / 4) with
      | some w => fields [(31, 1), (0, w.pos)]
      | none => 0
    else 0

/-- State code of the command at the head of a channel (R307). -/
def TierPhase.code : TierPhase → Nat
  | .queued => 0 | .waiting => 1 | .moving => 2 | .commit => 3

/-- Tier registers (R307). -/
def Block.regTier (b : Block) (off : Nat) : Nat :=
  match off with
  | 0x00 => b.tier.share
  | 0x04 => b.tier.late
  | 0x08 => lo32 b.tier.outBytes
  | 0x0C => hi32 b.tier.outBytes
  | 0x10 => lo32 b.tier.inBytes
  | 0x14 => hi32 b.tier.inBytes
  | _ => if 0x40 ≤ off ∧ off < 0x240 ∧ off % 8 = 0 then
      match b.tierQueue ((off - 0x40) / 8) with
      | [] => 0
      | (_, w) :: rest =>
        fields [(3, rest.length + b2n (w.phase = .queued)), (1, w.phase.code), (0, b2n (w.late && w.phase ≠ .queued))]
    else 0

/-- Meridian registers (R363). -/
def Block.regFab (b : Block) (off : Nat) : Nat :=
  let p := b.port (off / 16)
  if off < 0x80 then
    match off % 16 with
    | 0 => fields [(29, p.st.code), (21, p.lanes % 256), (5, p.peerRank), (4, b2n p.peerShutter), (3, b2n p.failed)]
    | 4 => p.replays
    | 8 => p.corr
    | _ => p.unc
  else if off = 0x80 then
    fields [(27, (b.fab.colls.filter (fun (x : Coll) => x.started)).length),
            (18, (b.fab.colls.filter (fun (x : Coll) => !x.started)).length), (9, b.fab.releases.length)]
  else 0

/-- Is an offset served now (R481)? -/
def Block.bar0Serves (b : Block) (off : Nat) : Bool :=
  b.boot.ready || decide (off < 0x100) || (decide (0x200 ≤ off) && decide (off < 0x400)) ||
    (decide (0x700 ≤ off) && decide (off < 0x2000))

/-- The 32-bit word of BAR0 at an offset that is a multiple of 4 (R427, R428). -/
def Block.reg (b : Block) (off : Nat) : Nat :=
  if !b.bar0Serves off then 0
  else if off < 0x100 then b.regDev off
  else if off < 0x200 then b.regPower (off - 0x100)
  else if off < 0x400 then b.regLog (off - 0x200)
  else if off < 0x700 then 0
  else if off < 0x1000 then b.regMsix off
  else if off < 0x2000 then b.regTrust (off - 0x1000)
  else if off < 0x3000 then b.regSnap (off - 0x2000)
  else if off < 0x4000 then b.regSid (off - 0x3000)
  else if off < 0x5000 then b.regRing ((off - 0x4000) / 0x40) (off % 0x40)
  else if off < 0x6000 then b.regMem (off - 0x5000)
  else if off < 0x7000 then b.regTier (off - 0x6000)
  else if off < 0x8000 then b.regFab (off - 0x7000)
  else if off < 0x10000 then b.syncVal ((off - 0x8000) / 4)
  else 0

end Sys2Proof.Machine
end

