-- ==== Sys2Proof/Machine/HostIf.lean ====
section
/-!
DEFINITION. What the host does to the module over PCIe (R39 to R44, R428 to R433): ring enables and doorbells, register writes,
MSI-X, the ring window and the aperture, completions of the module's own reads, configuration writes.
-/

namespace Sys2Proof.Machine

/-! ### Ring enables and doorbells -/

/-- Ask the host for the next slots of a host-memory ring: one request at a time, none over the ring's end (R38, R432).
[log 24 DESIGN CHOICE] -/
def Block.fetchSlots (n : Nat) (b : Block) : Block :=
  let r := b.ring n
  let left := r.waiting - r.fetched
  let first := (r.subHead + r.fetched) % r.subSize
  let k := Nat.min (Nat.min left 64) (r.subSize - first)
  if r.latched.loc || !r.enable || r.stopped || r.asked ≠ 0 || k = 0 || !b.isReady then b
  else (b.setRing n { r with asked := k }).askHost (r.latched.sbase + 64 * first) (64 * k) (.slots n first k)

/-- The configuration fields of a RING_CFG write. -/
def RingCfg.put (c : RingCfg) (v : Nat) : RingCfg :=
  { c with loc := bit v 30, sealedOnly := bit v 29, prio := bits v 28 27, vector := bits v 26 20, ssize := bits v 11 8,
           csize := bits v 7 4 }

/-- RING_CFG.ENABLE from 0 to 1 (R42). [log 23 DEDUCED] -/
def Block.ringEnable (n v : Nat) (b : Block) : Block :=
  let r := b.ring n
  if r.enable then b
  else
    let cfg := r.cfg.put v
    if 7 ≤ cfg.ssize ∨ 7 ≤ cfg.csize ∨ !b.ringIdle n then
      b.setRing n { r with cfg := cfg, err := true, errCode := Status.badParam }
    else
      b.setRing n { r with cfg := cfg, enable := true, latched := cfg, stopped := false, subTail := 0, subHead := 0, cplTail := 0,
                           cplHead := 0, phase := true, fetched := 0, asked := 0, buf := [] }

/-- ENABLE = 0 (R43): held packets end, a waiting SYNC_WAIT with them (R51). -/
def Block.ringDisable (n : Nat) (b : Block) : Block :=
  if !(b.ring n).enable then b
  else
    let b : Block := { b with host.reqs := b.host.reqs.filter (fun r => match r.2 with | .slots m _ _ => m ≠ n | _ => true) }
    let b := b.setRing n { b.ring n with enable := false, asked := 0 }
    let waits (c : Cmd) : Bool := c.pkt.src = .ring n && (match c.work with | .syncWait _ _ _ => true | _ => false)
    (b.haltWhere waits Status.ringDisabled).abortHeld n Status.ringDisabled

/-- A write of RING_CFG. -/
def Block.ringCfg (n v : Nat) (b : Block) : Block :=
  let r := b.ring n
  if bit v 31 then b.ringEnable n v
  else if r.enable then b.ringDisable n
  else b.setRing n { r with cfg := r.cfg.put v }

/-- SUB_TAIL (R39). -/
def Block.subTail (n v : Nat) (b : Block) : Block :=
  let r := b.ring n
  let v := v % 4096
  if !r.enable then b.setRing n { r with subTail := v }
  else if r.subSize ≤ v then b.ringError n Status.badParam
  else (b.setRing n { r with subTail := v }).fetchSlots n

/-- CPL_HEAD (R39, R47): freed entries let failed tile-issued packets complete (R61). -/
def Block.cplHeadWrite (n v : Nat) (b : Block) : Block :=
  let r := b.ring n
  let v := v % 4096
  if !r.enable then
    if r.cplSize ≤ v then b else (b.setRing n { r with cplHead := v }).flushTileFailed
  else if r.cplSize ≤ v then b.ringError n Status.badParam
  else (b.setRing n { r with cplHead := v }).flushTileFailed

/-! ### MSI-X (R44, R433) -/

/-- Vectors whose pending bit may now be sent. -/
def Block.sendPending (b : Block) : Block :=
  (List.range 128).foldl (fun b v =>
    let x := b.host.msix.get Vector128.zero v
    if x.pending && !x.masked && !b.host.funcMask && b.host.msixEnable then
      ({ b with host.msix := b.host.msix.set Vector128.zero v { x with pending := false } } : Block).sendVector v
    else b) b

/-- Vector Control of a vector, or the mask of the function (none), becomes 0. -/
def Block.unmask (vec : Option Nat) (b : Block) : Block :=
  match vec with
  | some v => ({ b with host.msix := b.host.msix.upd Vector128.zero v (fun x => { x with masked := false }) } : Block).sendPending
  | none => ({ b with host.funcMask := false } : Block).sendPending

/-- The 1 µs of a vector end: one message covers what fell within it. [log 12 DESIGN CHOICE] -/
def Block.spacingEnd (v : Nat) (b : Block) : Block :=
  let x := b.host.msix.get Vector128.zero v
  if !x.spacing then b
  else
    let b : Block := { b with host.msix := b.host.msix.set Vector128.zero v { x with spacing := false, due := false } }
    if x.due then b.sendVector v else b

/-- A 4-byte write in the MSI-X table; while TDISP has locked it the change moves the interface to ERROR (R436).
[log 135 DEDUCED] -/
def Block.msixWrite (off v : Nat) (b : Block) : Block :=
  let k := (off - 0x800) / 16
  let put (f : Vector128 → Vector128) (b : Block) : Block := { b with host.msix := b.host.msix.upd Vector128.zero k f }
  let b := b.tdispError
  match off % 16 with
  | 0 => put (fun x => { x with addr := hi32 x.addr * 2 ^ 32 + v / 4 * 4 }) b
  | 4 => put (fun x => { x with addr := v * 2 ^ 32 + lo32 x.addr }) b
  | 8 => put (fun x => { x with data := v }) b
  | _ => if bit v 0 then put (fun x => { x with masked := true }) b else b.unmask (some k)

/-! ### Log registers (R447 to R449) -/

/-- LOG_ACK: outside LOG_OLDEST − 1 to LOG_NEWEST the write is ignored. -/
def Block.logAck (v : Nat) (b : Block) : Block :=
  let oldest := ((b.log.oldestFirst.head?).map (fun e => e.seq)).getD 0
  let after (x y : Nat) : Bool := decide (0 ≤ sx 32 (x + 2 ^ 32 - y))
  if after v ((oldest + 2 ^ 32 - 1) % 2 ^ 32) && after b.log.newest v then ({ b with log.ack := v } : Block).refreshAlert else b

def Block.firstFaultClr (v : Nat) (b : Block) : Block := if bit v 0 then { b with log.firstFault := none } else b

/-! ### Register writes (R9, R428) -/

/-- One half of a 64-bit register replaced. -/
def putHalf (x off v : Nat) : Nat := if off % 8 = 0 then hi32 x * 2 ^ 32 + v else v * 2 ^ 32 + lo32 x

/-- A write to a ring register: SBASE, CBASE and SEQ_NEXT only while ENABLE is 0 (R41, R42). -/
def Block.ringWrite (n off v : Nat) (b : Block) : Block :=
  let r := b.ring n
  let page (x : Nat) : Nat := x / 4096 * 4096
  match off with
  | 0x00 | 0x04 => if r.enable then b else b.setRing n { r with cfg := { r.cfg with sbase := page (putHalf r.cfg.sbase off v) } }
  | 0x08 | 0x0C => if r.enable then b else b.setRing n { r with cfg := { r.cfg with cbase := page (putHalf r.cfg.cbase off v) } }
  | 0x10 => b.ringCfg n v
  | 0x14 => if bit v 1 then b.setRing n { r with err := false } else b
  | 0x18 => b.subTail n v
  | 0x24 => b.cplHeadWrite n v
  | 0x28 => if r.enable then b else b.setRing n { r with seqNext := v }
  | _ => b

/-- A 4-byte write of BAR0, by the access kind of its register; ro, reserved and unserved offsets ignore it. When a GO written so
changes PHASE is not known. [log 128 DEDUCED] -/
def Block.regWrite (off v : Nat) (b : Block) : Block :=
  if !b.bar0Serves off then b
  else if 0x800 ≤ off ∧ off < 0x1000 then b.msixWrite off v
  else if 0x4000 ≤ off ∧ off < 0x5000 then b.ringWrite ((off - 0x4000) / 0x40) (off % 0x40) v
  else
    match off with
    | 0x0C => { b with host.apertureBase := bits v 19 4 }
    | 0x20 | 0x24 =>
      if b.boot.phase = Phase.waitImage then { b with boot.addr := putHalf b.boot.addr off v / 4096 * 4096 } else b
    | 0x28 => if b.boot.phase = Phase.waitImage then { b with boot.len := v % 2 ^ 24 } else b
    | 0x2C =>
      if bit v 0 && b.boot.phase = Phase.waitImage then
        let t := b.free 32
        t.2.bootGo t.1
      else b
    | 0x104 => if 1700 ≤ v % 2 ^ 13 ∧ v % 2 ^ 13 ≤ 4200 then { b with pow.cap := v % 2 ^ 13 } else b
    | 0x20C => b.logAck v
    | 0x210 => { b with log := { b.log with vecFault := bits v 27 21, vecWarn := bits v 20 14, vecYield := bits v 13 7,
                                            vecState := bits v 6 0 } }
    | 0x218 => { b with shut.seen := (List.range 6).foldl (fun s i => if bit v i then setBit s i false else s) b.shut.seen }
    | 0x21C => b.firstFaultClr v
    | 0x3018 => b.sidLoad (putHalf (b.sid.loadEpoch * 2 ^ 24) 0 v)
    | 0x301C => b.sidLoad (putHalf (b.sid.loadEpoch * 2 ^ 24) 4 v)
    | 0x6000 => { b with tier.share := v % 16 }
    | _ => b

/-- A write of BAR0 of 4 or 8 naturally aligned bytes: an 8-byte one is two, the lower first; SID_LOAD takes its 8 bytes whole. -/
def Block.bar0Write (off size v : Nat) (b : Block) : Block :=
  if size = 4 ∧ off % 4 = 0 then b.regWrite off (lo32 v)
  else if size = 8 ∧ off = 0x3018 then (if b.bar0Serves off then b.sidLoad (v % 2 ^ 64) else b)
  else if size = 8 ∧ off % 8 = 0 then (b.regWrite off (lo32 v)).regWrite (off + 4) (hi32 v)
  else b

/-! ### The ring window and the aperture (R430, R431, R435, R436) -/

/-- Does IDE let a request to BAR2 or BAR4 in? `ide` is the stream of its TLP: 0 none, 1 the link stream, 2 the selective one.
[log 134 DEDUCED] -/
def Block.ideTakes (b : Block) (ide : Nat) : Bool :=
  if b.host.ideSel || b.host.tdisp = Tdisp.run then ide = 2
  else if b.host.ideLink then ide = 1
  else true

/-- The request is answered Unsupported Request: before READY, or not covered by its IDE stream (R435, R481). [log 134 DEDUCED] -/
def Block.unsupported (b : Block) (ide : Nat) : Bool := !b.boot.ready || !b.ideTakes ide

/-- Is a byte of the ring window reserved (R38)? [log 133 DEDUCED] -/
def windowReserved (x : Nat) : Bool := decide (0x60000 ≤ x % 0x80000)

/-- BAR2 (R431). In the TDISP state ERROR every access is refused (R436). [log 133 DEDUCED] -/
def Block.bar2Read (x n ide : Nat) (b : Block) : Block :=
  if b.unsupported ide then b.emit .unsupportedRequest
  else if b.host.tdisp = Tdisp.error || 0x2000000 < x + n then b.emit .completerAbort
  else match b.daRead (b.alm.ringAreaDa + x) n with
    | (.ok bs _, b) => b.emit (.readData (bs.zipIdx.map (fun (e : Byte × Nat) => if windowReserved (x + e.2) then 0 else e.1)))
    | (.fail _ _ _, b) => b.emit .completerAbort

/-- [log 133 DEDUCED] -/
def Block.bar2Write (x : Nat) (bs : List Byte) (ide : Nat) (b : Block) : Block :=
  if b.unsupported ide || b.host.tdisp = Tdisp.error || 0x2000000 < x + bs.length then b
  else
    let keep := bs.zipIdx.map (fun (e : Byte × Nat) =>
      if windowReserved (x + e.2) then b.mem.bytes.get 0 (b.alm.ringAreaDa + x + e.2) else e.1)
    b.memWrite (b.alm.ringAreaDa + x) keep

/-- Why a BAR4 access is refused, if it is (R23, R24, R34, R418, R430, R436). [log 132 DEDUCED] -/
def Block.bar4Bar (b : Block) (da n : Nat) (write : Bool) : Option Nat :=
  if b.host.tdisp = Tdisp.error || (b.trust.sealedReq && b.host.tdisp ≠ Tdisp.run) then some Status.notSealed
  else if b.trust.bootState = 4 then some Status.inShutter
  else if !localPopulated da n then some Status.addrUnmapped
  else if write && decide (da < hbmTop) && (pagesOf da n).any (fun g => attrClass (b.attr g) = 4) then some Status.addrUnmapped
  else if write && b.roHit da n then some Status.inShutter
  else none

def Block.bar4Da (b : Block) (x : Nat) : Nat := b.host.apertureBase * 2 ^ 36 + x

/-- BAR4 read (R430): a read that a PREFETCH holds back waits (R300). [log 132, 136 DEDUCED] -/
def Block.bar4Read (x n ide : Nat) (b : Block) : Block :=
  let da := b.bar4Da x
  if b.unsupported ide then b.emit .unsupportedRequest
  else match b.bar4Bar da n false with
  | some st => (b.logError st 13 0 0 da).emit .completerAbort
  | none =>
    if b.readWaits da n then b
    else match b.daRead da n with
    | (.ok bs _, b) => b.emit (.readData bs)
    | (.fail _ _ _, b) => b.emit .completerAbort

/-- BAR4 write (R430): it waits where a page is write-protected or held (R384); a Tally unit may snoop it (R454). -/
def Block.bar4Write (x : Nat) (bs : List Byte) (ide : Nat) (b : Block) : Block :=
  let da := b.bar4Da x
  if b.unsupported ide then b
  else match b.bar4Bar da bs.length true with
  | some st => b.logError st 13 0 0 da
  | none =>
    if b.writeWaits da bs.length then b
    else (b.daWrite da bs).1.tallyWhole 7 0 0 da bs

/-! ### Completions of the module's reads (R432) -/

/-- The answer to an outstanding request: its bytes, or none for UR, CA or a Completion Timeout. [log 12 DESIGN CHOICE] -/
def Block.hostAnswer (tag : Nat) (r : Option (List Byte)) (b : Block) : Block :=
  match b.host.reqs.find? (fun x => x.1 = tag) with
  | none => b
  | some x =>
    let b : Block := { b with host.reqs := b.host.reqs.filter (fun y => y.1 ≠ tag) }
    match x.2, r with
    | .slots n first k, some bs =>
      let g := b.ring n
      (b.setRing n { g with fetched := g.fetched + k, asked := 0, buf := g.buf.setL 0 (64 * first) bs }).fetchSlots n
    | .slots n _ _, none => (b.setRing n { b.ring n with asked := 0 }).ringError n Status.hostAccessFail
    | .move t xfer g, _ => b.moveHostData t xfer g r
    | .tier c off _, _ => b.tierHostData c off r
    | .flush c, some _ => b.tierAck c true
    | .flush c, none => b.tierHostData c 0 none
    | .stream k, some _ => ({ b with host.reqs := (tag, HostReq.stream k) :: b.host.reqs } : Block).streamComplete k
    | .stream k, none => b.streamWriteFail k
    | .restore c _ _, _ => b.restHostData c r
    | .boot _ _, _ => b.bootData r

/-! ### Configuration space (R426, R436) -/

/-- A base address as a BAR of 2^w bytes keeps it: one half is written. -/
def barPut (w x half_ v : Nat) : Nat := putHalf x (4 * half_) v / 2 ^ w * 2 ^ w

/-- A change to a BAR, Memory Space Enable or MSI-X while the interface is locked (R436). [log 135 DEDUCED] -/
def Block.cfgChange (changed : Bool) (f : HostIf → HostIf) (b : Block) : Block :=
  let b := if changed then b.tdispError else b
  { b with host := f b.host }

/-- [log 130 DEDUCED] -/
def Block.configWrite (what : CfgReg) (v : Nat) (b : Block) : Block :=
  let h := b.host
  match what with
  | .command => b.cfgChange (bit v 1 ≠ h.memEnable) (fun h => { h with memEnable := bit v 1, busMaster := bit v 2 })
  | .bar k =>
    if k < 2 then b.cfgChange (barPut 16 h.bar0 k v ≠ h.bar0) (fun h => { h with bar0 := barPut 16 h.bar0 k v })
    else if k < 4 then b.cfgChange (barPut 25 h.bar2 (k - 2) v ≠ h.bar2) (fun h => { h with bar2 := barPut 25 h.bar2 (k - 2) v })
    else b.cfgChange (barPut 36 h.bar4 (k - 4) v ≠ h.bar4) (fun h => { h with bar4 := barPut 36 h.bar4 (k - 4) v })
  | .msixControl =>
    (b.cfgChange (bit v 15 ≠ h.msixEnable || bit v 14 ≠ h.funcMask)
      (fun h => { h with msixEnable := bit v 15, funcMask := bit v 14 })).sendPending
  | .other off => { b with host.cfgRegs := b.host.cfgRegs.set 0 off v }

/-! ### Meanings -/

def execRingEnable (n v : Nat) (s : State) : Host.Outcome State Fault Refusal :=
  s.run (Block.onTlp (fun b => if b.boot.ready && bit v 31 then b.ringEnable n v else b))
def execRingDisable (n : Nat) (s : State) : Host.Outcome State Fault Refusal :=
  s.run (Block.onTlp (fun b => if b.boot.ready then b.ringDisable n else b))
def execSubTailWrite (n v : Nat) (s : State) : Host.Outcome State Fault Refusal :=
  s.run (Block.onTlp (fun b => if b.boot.ready then b.subTail n v else b))
def execCplHeadWrite (n v : Nat) (s : State) : Host.Outcome State Fault Refusal :=
  s.run (Block.onTlp (fun b => if b.boot.ready then b.cplHeadWrite n v else b))
def execLogAckWrite (v : Nat) (s : State) : Host.Outcome State Fault Refusal := s.run (Block.onTlp (Block.logAck v))
def execFirstFaultClr (v : Nat) (s : State) : Host.Outcome State Fault Refusal := s.run (Block.onTlp (Block.firstFaultClr v))
def execMsixUnmask (vec : Option Nat) (s : State) : Host.Outcome State Fault Refusal :=
  s.run (Block.onTlp (fun b => (b.tdispError).unmask vec))
def execRegisterWrite (off size v : Nat) (s : State) : Host.Outcome State Fault Refusal :=
  s.run (Block.onTlp (Block.bar0Write off size v))
def execBar4Read (x n ide : Nat) (s : State) : Host.Outcome State Fault Refusal := s.run (Block.onTlp (Block.bar4Read x n ide))
def execBar4Write (x : Nat) (bs : List Byte) (ide : Nat) (s : State) : Host.Outcome State Fault Refusal :=
  s.run (Block.onTlp (Block.bar4Write x bs ide))
def execBar2Read (x n ide : Nat) (s : State) : Host.Outcome State Fault Refusal := s.run (Block.onTlp (Block.bar2Read x n ide))
def execBar2Write (x : Nat) (bs : List Byte) (ide : Nat) (s : State) : Host.Outcome State Fault Refusal :=
  s.run (Block.onTlp (Block.bar2Write x bs ide))
def execHostReadCompletion (tag : Nat) (ok : Bool) (bs : List Byte) (s : State) : Host.Outcome State Fault Refusal :=
  s.run (fun b => if b.linked then b.hostAnswer tag (if ok then some bs else none) else b)
def execCompletionTimeout (tag : Nat) (s : State) : Host.Outcome State Fault Refusal :=
  s.run (fun b => if b.linked then b.hostAnswer tag none else b)
def execMsixSpacingExpiry (v : Nat) (s : State) : Host.Outcome State Fault Refusal := s.run (Block.spacingEnd v)
def execConfigWrite (what : CfgReg) (v : Nat) (s : State) : Host.Outcome State Fault Refusal :=
  s.run (Block.onTlp (Block.configWrite what v))

end Sys2Proof.Machine
end

