-- ==== Sys2Proof/Machine/Manage.lean ====
section
/-!
DEFINITION. Management (R412, R435 to R439): MCTP on PCIe VDM and I3C, the SPDM responder, IDE key management, TDISP, and the board
management commands.
-/

namespace Sys2Proof.Machine

/-- Is a transport served: 0 PCIe VDM while the link is up in D0, 1 I3C (R437, R453); on both only from the end of ROM_INIT while
the hub runs (R481)? -/
def Block.mctpServes (b : Block) (t : Nat) : Bool :=
  if t = 0 then b.linked && !b.host.d3hot && b.boot.phase ≠ Phase.romInit
  else !(b.hubUp && b.boot.phase = Phase.romInit)

/-- Answer a message on its transport. -/
def Block.reply (t : Nat) (bs : List Byte) (b : Block) : Block := b.emit (.mctp t bs)

def natBytes (l : List Nat) : List Byte := l.map (BitVec.ofNat 8)

/-! ### MCTP control (R437; DSP0236) -/

/-- The endpoint ID of a transport. -/
def HostIf.eid (h : HostIf) (t : Nat) : Nat := if t = 0 then h.eidVdm else h.eidI3c
def HostIf.setEid (h : HostIf) (t e : Nat) : HostIf := if t = 0 then { h with eidVdm := e } else { h with eidI3c := e }

/-- A control request: 1 Set Endpoint ID (a operation, e the ID), 2 Get Endpoint ID, 4 Get Version, 5 Get Message Types; any other is
an unsupported command. [log 137 PRESUMED] -/
def Block.mctpControl (t cmd a e : Nat) (b : Block) : Block :=
  if !b.mctpServes t then b
  else match cmd with
  | 1 =>
    if 2 ≤ a ∨ e = 0 ∨ e = 255 then b.reply t (natBytes [1, 2])
    else ({ b with host := b.host.setEid t e } : Block).reply t (natBytes [1, 0, 0, e, 0])
  | 2 => b.reply t (natBytes [2, 0, b.host.eid t, 0, 0])
  | 4 => b.reply t (natBytes [4, 0, 1, 0xF1, 0xF3, 0xF1, 0])
  | 5 => b.reply t (natBytes [5, 0, 3, 5, 6, 0x7E])
  | n => b.reply t (natBytes [n, 5])

/-! ### SPDM (R412, R423) -/

/-- SPDM ERROR with code Unspecified. [log 137 PRESUMED] -/
def spdmError : List Byte := natBytes [0x12, 0x7F, 0x05, 0]

/-- A response body that the SPDM specification gives (log entry 7). [log 7 DESIGN CHOICE] -/
def Block.spdmBody (req : List Byte) (b : Block) : List Byte × Block :=
  (Config.spdmBody b.mer.draws req, { b with mer.draws := b.mer.draws + 1 })

/-- An SPDM request: its code is byte 1. KEY_EXCHANGE (0xE4) opens a secure session, END_SESSION (0xEC) ends one; a signed
GET_MEASUREMENTS (0xE0, bit 0 of byte 2) keeps its transcript for the co-signature.
[log 7 DESIGN CHOICE; 119 DEDUCED; 137 PRESUMED] -/
def Block.spdmRequest (t : Nat) (req : List Byte) (b : Block) : Block :=
  if !b.mctpServes t then b
  else if b.boot.dark then b.reply t (natBytes [3])
  else
    let b := b.wakeBy 5 13 1
    let code := (req.getD 1 0).toNat
    if b.trust.bootState = 4 && code ≠ 0x84 then b.reply t spdmError
    else if code = 0xE4 && decide (4 ≤ b.trust.spdmSessions) then b.reply t spdmError
    else
      let r := b.spdmBody req
      let b := r.2
      let b : Block := if code = 0xE4 then { b with trust.spdmSessions := b.trust.spdmSessions + 1 }
        else if code = 0xEC then { b with trust.spdmSessions := b.trust.spdmSessions - 1 }
        else if code = 0xE0 && bit (req.getD 2 0).toNat 0 then
          { b with trust.spdmTranscript := b.trust.spdmTranscript.set [] t (req ++ r.1) }
        else b
      b.reply t r.1

/-- VENDOR_DEFINED_REQUEST: the LMS co-signature over the transcript of the last signed MEASUREMENTS on the connection.
[log 140 DEDUCED] -/
def Block.coSign (t code : Nat) (b : Block) : Block :=
  if !b.mctpServes t then b
  else if b.boot.dark then b.reply t (natBytes [3])
  else
    let b := b.wakeBy 5 13 1
    let tr := b.trust.spdmTranscript.get [] t
    if b.trust.bootState = 4 || code ≠ 1 || b.trust.bootLeft = 0 || tr.isEmpty then b.reply t spdmError
    else
      let r := b.pbSign (leBytes 48 (Config.sha384 tr))
      r.2.reply t r.1

/-! ### IDE key management and TDISP (R435, R436) -/

/-- A stream enters or leaves the Secure state: 0 link, 1 selective. Losing the selective stream moves a locked interface to ERROR. -/
def Block.ideSet (stream : Nat) (secure : Bool) (b : Block) : Block :=
  if stream = 0 then { b with host.ideLink := secure }
  else
    let b := if b.host.ideSel && !secure then b.tdispError else b
    { b with host.ideSel := secure }

/-- IDE_KM in a secure session: 0 KEY_PROG of a key set, 1 K_SET_GO, 2 K_SET_STOP. -/
def Block.ideKm (t act stream set : Nat) (b : Block) : Block :=
  if !b.mctpServes t || b.boot.dark then b
  else
    let b := b.wakeBy 5 13 1
    if b.trust.spdmSessions = 0 || b.trust.bootState = 4 then b.reply t spdmError
    else
      let r := b.spdmBody (natBytes [act, stream, set])
      let key := (stream, set)
      let b := r.2
      let b : Block := match act with
        | 0 => { b with host.ideKeys := key :: b.host.ideKeys.filter (fun k => k ≠ key) }
        | 1 => if b.host.ideKeys.contains key then b.ideSet stream true else b
        | _ => ({ b with host.ideKeys := b.host.ideKeys.filter (fun k => k.1 ≠ stream) } : Block).ideSet stream false
      b.reply t r.1

def Block.lockInterface (b : Block) : Block :=
  if b.host.tdisp = Tdisp.unlocked && b.trust.job ≠ 0 && b.host.ideSel then { b with host.tdisp := .locked } else b
def Block.startInterface (b : Block) : Block :=
  if b.host.tdisp = Tdisp.locked then { b with host.tdisp := .run } else b
def Block.stopInterface (b : Block) : Block := { b with host.tdisp := .unlocked }

/-! ### Board management (R438, R439) -/

/-- A response: vendor ID, command, sequence byte, completion code, payload. -/
def Block.board (t cmd seq cc : Nat) (payload : List Byte) (b : Block) : Block :=
  b.reply t (leBytes 2 Config.pciVendor ++ natBytes [cmd, seq, cc] ++ payload)

/-- A command that needs Merlen: NOT_READY while READY is 0; a sleeping module wakes for it (R472). [log 138 DEDUCED] -/
def Block.boardMerlen (t cmd seq : Nat) (f : Block → Block) (b : Block) : Block :=
  if !b.isReady then b.board t cmd seq 3 [] else f (b.wakeBy 5 13 1)

/-- The sleep state as GET_HEALTH codes it: 0 awake or entering one, 1 Idle-gate, 2 Stow, 3 Dark. [log 138 DEDUCED] -/
def Block.sleepCode (b : Block) : Nat :=
  if b.boot.dark then 3
  else match b.pow.sleep with
  | .asleep t => t
  | .waking t _ => t
  | _ => 0

/-- [log 138 DEDUCED] -/
def Block.health (b : Block) : List Byte :=
  natBytes [b.sleepCode, b.pow.eff] ++ leBytes 4 b.devStatus ++ natBytes [b.shut.active, b2n b.pins.fault]

def Block.tempBytes (b : Block) : List Byte :=
  let off (up : Bool) (v : Nat) : Nat := if up then v % 256 else 0xFF
  natBytes ([off b.hubUp (b.pow.dieTemps.get 0 0)] ++ [1, 2, 3, 4].map (fun q => off b.stacksUp (b.pow.dieTemps.get 0 q)) ++
    (List.range 24).map (fun h => off b.stacksUp (b.mem.temps.get (0, 0, 0) h).1))

def Block.getLog (t seq first count : Nat) (b : Block) : Block :=
  if count = 0 ∨ 16 < count then b.board t 5 seq 2 []
  else
    let es := (b.log.from_ first count).1
    b.board t 5 seq 0 ((es.map (fun e => (if b.trust.sealedReq then e.masked else e).bytes)).flatten)

def Block.setPlCeiling (t seq l : Nat) (b : Block) : Block :=
  if 7 < l then b.board t 6 seq 2 []
  else
    let b := b.setCeiling l
    b.board t 6 seq 0 (natBytes [b.pow.target])

/-- A board command on a transport that serves it. -/
def Block.onBoard (t : Nat) (f : Block → Block) (b : Block) : Block := if b.mctpServes t then f b else b

/-! ### Meanings -/

def execMctpControl (t cmd a e : Nat) (s : State) : Host.Outcome State Fault Refusal := s.run (Block.mctpControl t cmd a e)
def execSpdmRequest (t : Nat) (req : List Byte) (s : State) : Host.Outcome State Fault Refusal := s.run (Block.spdmRequest t req)
def execVendorDefinedRequest (t code : Nat) (s : State) : Host.Outcome State Fault Refusal := s.run (Block.coSign t code)
def execGetHealth (t seq : Nat) (s : State) : Host.Outcome State Fault Refusal :=
  s.run (Block.onBoard t (fun b => b.board t 1 seq 0 b.health))
def execGetTemps (t seq : Nat) (s : State) : Host.Outcome State Fault Refusal :=
  s.run (Block.onBoard t (fun b => b.board t 2 seq 0 b.tempBytes))
/-- The supply readings are what the sensors show: operands. -/
def execGetPower (t seq mv ma aux : Nat) (s : State) : Host.Outcome State Fault Refusal :=
  s.run (Block.onBoard t (fun b => b.board t 3 seq 0 (leBytes 4 mv ++ leBytes 4 ma ++ leBytes 4 aux)))
def execGetAlmanac (t seq : Nat) (s : State) : Host.Outcome State Fault Refusal :=
  s.run (Block.onBoard t (Block.boardMerlen t 4 seq (fun b => b.board t 4 seq 0 b.almanac)))
def execGetLog (t seq first count : Nat) (s : State) : Host.Outcome State Fault Refusal :=
  s.run (Block.onBoard t (Block.boardMerlen t 5 seq (Block.getLog t seq first count)))
def execSetPlCeiling (t seq l : Nat) (s : State) : Host.Outcome State Fault Refusal :=
  s.run (Block.onBoard t (Block.boardMerlen t 6 seq (Block.setPlCeiling t seq l)))
/-- SUCCESS leaves before the reset. -/
def execResetModule (t seq : Nat) (s : State) : Host.Outcome State Fault Refusal :=
  s.run (Block.onBoard t (fun b => (b.board t 7 seq 0 []).resetBy 0))
def execIdeKm (t act stream set : Nat) (s : State) : Host.Outcome State Fault Refusal := s.run (Block.ideKm t act stream set)
def execLockInterface (s : State) : Host.Outcome State Fault Refusal :=
  s.run (fun b => if b.hubUp then b.lockInterface else b)
def execStartInterface (s : State) : Host.Outcome State Fault Refusal :=
  s.run (fun b => if b.hubUp then b.startInterface else b)
def execStopInterface (s : State) : Host.Outcome State Fault Refusal :=
  s.run (fun b => if b.hubUp then b.stopInterface else b)
/-- The controller assigns a dynamic address (R437). -/
def execI3cDynamicAddress (addr : Nat) (s : State) : Host.Outcome State Fault Refusal :=
  s.run (fun b => { b with host.i3cAddr := addr })

end Sys2Proof.Machine
end

