-- ==== Sys2Proof/Machine/Debug.lean ====
section
/-!
DEFINITION. JTAG (R422, R440, R441): loading an instruction, and scanning data through the register it selects.
-/

namespace Sys2Proof.Machine

/-- The boundary-scan instructions that drive pins. -/
def drivesPins (code : Nat) : Bool := code = 0x00 || (decide (4 ≤ code) && decide (code ≤ 7))

/-- Is an instruction accepted now (R440)? -/
def Block.irOk (b : Block) (code : Nat) : Bool :=
  code = 0xFF || code = 0x01 || code = 0x02 || (drivesPins code && b.trust.job = 0) ||
    (code = 0x10 && decide (1 ≤ b.trust.debugLevel)) || (code = 0x11 && b.trust.debugLevel = 2)

/-- An instruction is loaded; a refused one selects bypass, is counted and logged (R441). [log 141 PRESUMED; 142 DEDUCED] -/
def Block.irLoad (code : Nat) (b : Block) : Block :=
  if b.irOk code then { b with jtag.ir := code }
  else
    let b : Block := { b with jtag := { b.jtag with ir := 0xFF, refused := b.jtag.refused + 1 } }
    if b.hubUp then b.logError Status.debugLocked 14 code 0 0 else b

/-- A data scan under an instruction. [log 143 DEDUCED] -/
def Block.scan (code : Nat) (f : Block → Block) (b : Block) : Block := if b.jtag.ir = code then f b else b

/-- n bits through the one-bit bypass register, which captures 0. [log 141 PRESUMED] -/
def Block.bypassBits (n v : Nat) (b : Block) : Block := b.emit (.tdo n (2 * v % 2 ^ n))

/-- The identity word. -/
def idcodeWord : Nat := fields [(28, Config.idcodeVersion % 16), (12, 0xA924), (1, Config.jedecId % 2 ^ 11), (0, 1)]

/-- n bits through the boundary-scan chain: what the cells captured leaves, the new value stays in the cells. [log 141 PRESUMED] -/
def Block.chain (n captured v : Nat) (b : Block) : Block :=
  ({ b with jtag.cells := v % 2 ^ n } : Block).emit (.tdo n (captured % 2 ^ n))

/-- Level 1 reads the hub's error, trace and counter registers: log, power, memory, tier, Meridian, snapshot (R422).
[log 143 DEDUCED] -/
def debugReads (off : Nat) : Bool :=
  decide (0x100 ≤ off ∧ off < 0x400) || decide (0x2000 ≤ off ∧ off < 0x3000) || decide (0x5000 ≤ off ∧ off < 0x8000)

def execTapReset (s : State) : Host.Outcome State Fault Refusal := s.run (fun b => { b with jtag.ir := 1 })
def execJtagIrLoad (code : Nat) (s : State) : Host.Outcome State Fault Refusal := s.run (Block.irLoad code)
def execBypass (n v : Nat) (s : State) : Host.Outcome State Fault Refusal := s.run (Block.scan 0xFF (Block.bypassBits n v))
def execIdcode (s : State) : Host.Outcome State Fault Refusal := s.run (Block.scan 0x01 (Block.emit (.tdo 32 idcodeWord)))
def execSamplePreload (n captured v : Nat) (s : State) : Host.Outcome State Fault Refusal :=
  s.run (Block.scan 0x02 (Block.chain n captured v))
def execExtest (n captured v : Nat) (s : State) : Host.Outcome State Fault Refusal :=
  s.run (Block.scan 0x00 (Block.chain n captured v))
def execClamp (n v : Nat) (s : State) : Host.Outcome State Fault Refusal := s.run (Block.scan 0x04 (Block.bypassBits n v))
def execHighz (n v : Nat) (s : State) : Host.Outcome State Fault Refusal := s.run (Block.scan 0x05 (Block.bypassBits n v))
def execExtestPulse (n captured v : Nat) (s : State) : Host.Outcome State Fault Refusal :=
  s.run (Block.scan 0x06 (Block.chain n captured v))
def execExtestTrain (n captured v : Nat) (s : State) : Host.Outcome State Fault Refusal :=
  s.run (Block.scan 0x07 (Block.chain n captured v))
/-- DBG_READ: a 32-bit word of the registers that level 1 may read. -/
def execDbgRead (off : Nat) (s : State) : Host.Outcome State Fault Refusal :=
  s.run (Block.scan 0x10 (fun b =>
    if debugReads off && decide (1 ≤ b.trust.debugLevel) then b.emit (.tdo 32 (b.reg off)) else b))
/-- DBG_FULL: memory is read (no bytes given), or written. -/
def execDbgFull (da n : Nat) (bs : List Byte) (s : State) : Host.Outcome State Fault Refusal :=
  s.run (Block.scan 0x11 (fun b =>
    if b.trust.debugLevel ≠ 2 then b
    else if bs.isEmpty then
      match b.daRead da n with
      | (.ok xs _, b) => b.emit (.tdo (8 * n) (leNat xs))
      | (.fail _ _ _, b) => b
    else if !localPopulated da bs.length || b.writeWaits da bs.length || b.roHit da bs.length then b
    else (b.daWrite da bs).1))

end Sys2Proof.Machine
end

