-- ==== Sys2Proof/Machine/Clock.lean ====
section
/-!
DEFINITION. One matrix cycle (R139 to R141, R150): what ends with a cycle on every tile, what waits and is tried again, and the
commands that the next cycle brings. It is what a step does when no command waits (log entry 20).
-/

namespace Sys2Proof.Machine

/-! ### The end of a cycle on one tile -/

/-- Freeze cycles of the bank conflicts of one cycle (R137): in each bank, the operand reader's accesses count as one, equal reads
as one, equal writes of one port too, and every further access freezes the tile a cycle; the longest wait counts (log entry
21). [log 21 DEDUCED] -/
def bankFreeze (acc : List (Nat × Nat × Nat × Bool)) : Nat :=
  let banks := (acc.map (fun a => a.2.1)).eraseDups
  let count (k : Nat) : Nat :=
    let here := acc.filter (fun a => a.2.1 = k)
    let cube := here.filter (fun a => decide (a.1 ≤ 1))
    let rest := here.filter (fun a => decide (2 ≤ a.1))
    let reads := ((rest.filter (fun a => !a.2.2.2)).map (fun a => a.2.2.1)).eraseDups
    let fresh := reads.filter (fun r => !cube.any (fun a => a.2.2.1 = r))
    let writes := ((rest.filter (fun a => a.2.2.2)).map (fun a => (a.1, a.2.2.1))).eraseDups
    b2n (!cube.isEmpty) + fresh.length + writes.length
  banks.foldl (fun m k => Nat.max m (count k - 1)) 0

/-- The bundle at pc. -/
def Tile.bundle (x : Tile) : Nat := ((x.running.map (fun m => m.bundles.getD x.pc 0))).getD 0

/-- pc after the last instance of a bundle: the branch taken two bundles before redirects it (R141). -/
def Tile.nextBundle (x : Tile) : Tile :=
  match x.branch with
  | some (1, target) => { x with pc := target, branch := none, first := true }
  | some (k + 2, target) => { x with pc := x.pc + 1, branch := some (k + 1, target), first := true }
  | _ => { x with pc := x.pc + 1, branch := none, first := true }

/-- A tile issued an instance of its bundle in this cycle (R139 to R141): the next instance, the next bundle, or END. -/
def Block.advance (t : Nat) (b : Block) : Block :=
  let x := b.tile t
  let w := x.bundle
  let left := if x.first then bundleRepeat w else x.repLeft - 1
  if left ≠ 0 then b.setTile t { x with first := false, repLeft := left }
  else if bundleEnd w then
    if x.openGroups.isEmpty then b.setTile t { x with ended := true, issueCyc := some (x.cyc + 1) } else b.progFault t 0x0A 0 none
  else
    let y := x.nextBundle
    let count := ((x.running.map (fun m => m.bundles.length))).getD 0
    if y.pc < count then b.setTile t y else b.progFault t 0x01 0 none

/-- The marks of one cycle are taken away. -/
def Tile.nextMarks (x : Tile) : Tile :=
  { x with issued := false, acc := [], waitOk := false, stopWait := if x.stopping && !x.stopped then x.stopWait + 1 else x.stopWait }

/-- A cycle ends on a tile: a frozen cycle passes, or an unfrozen one is counted (R150), in which the drain unit has written its
chunk. The cycle in which a RUN starts is no cycle of the tile. [log 21, 36 DEDUCED] -/
def Block.endCycle (t : Nat) (b : Block) : Block :=
  let x := b.tile t
  if x.run.isNone then b.setTile t { x with issued := false, acc := [], waitOk := false }
  else if x.fresh then b.setTile t { x with fresh := false }
  else if x.isFrozen then b.setTile t { x.nextMarks with frozen := x.frozen - 1, frozenTotal := x.frozenTotal + 1 }
  else
    let b := b.drainCycle t
    let freeze := bankFreeze (b.tile t).acc
    let b := if x.issued && (b.tile t).run.isSome then b.advance t else b
    b.onTile t (fun y =>
      if y.run.isNone then y.nextMarks
      else { y.nextMarks with cyc := y.cyc + 1, frozen := y.frozen + freeze }.seenCensus)

/-! ### What waits is tried again -/

/-- A command whose response waits writes it once WP allows; the others that WP or a walk holds back start again (R384).
[log 56 DEDUCED] -/
def Block.retryWaits (b : Block) : Block :=
  let b := b.mer.running.foldl (fun (b : Block) c =>
    match c.work with
    | .await 10 da _ _ => b.respond c da c.rsp c.detail c.result
    | _ => b) b
  b.retryScale Block.startEngine

def Block.retries (b : Block) : Block :=
  let b := b.takeTiles.kvRetry.flushRetry.tierRetry.updKick
  let b := (b.collRetry.recoverKick (b.mer.running.length + 1)).retryWaits
  b.fenceRetry.flushTileFailed

/-! ### The next cycle -/

/-- Is a bundle held by its slots (R150): a move with 32 transfers queued, a packet without room? [log 40 DEDUCED] -/
def Block.slotsHold (b : Block) (t : Nat) (l : List Instr) : Bool :=
  l.any (fun i => match i with
    | .load _ _ _ => decide (32 ≤ (b.tile t).moves.length)
    | .store _ _ _ => decide (32 ≤ (b.tile t).moves.length)
    | .scalarPkt _ _ => !b.pktRoom t
    | _ => false)

/-- Results and drains of a tile that this cycle brings. -/
def Tile.due (x : Tile) (t : Nat) : List Instr :=
  (if x.pend.any (fun p => decide (p.ready ≤ x.cyc)) || x.flight.any (fun f => decide (f.visible ≤ x.cyc)) then
      [.opResultReady t] else []) ++
    ((List.range 4).filter (fun g => (x.group g).state = .settle && decide ((x.group g).last + 28 ≤ x.cyc))).map
      (fun g => .groupSettle t g) ++
    (match x.drain with
      | some d => if d.until ≤ x.cyc then [.drainComplete t] else []
      | none => [])

/-- Is the tile at a boundary in this cycle, a drain that ends now counted as idle (R133)? [log 35 DEDUCED] -/
def Tile.boundaryNow (x : Tile) : Bool :=
  let idle := match x.drain with
    | some d => decide (d.until ≤ x.cyc)
    | none => true
  idle && ({ x with drain := none } : Tile).atBoundary

/-- The commands of a tile's next cycle: results, then its bundle, its wait first; whether the bundle issues. [log 39 DEDUCED] -/
def Block.tileRows (b : Block) (t : Nat) : List Instr × Bool :=
  let x := b.tile t
  if x.run.isNone then (if x.drain.isSome then [.drainComplete t] else [], false)
  else if x.isFrozen then ([], false)
  else
    let now := x.due t
    if x.stopped then (now, false)
    else if x.stopping && x.boundaryNow then (now ++ [.preemptBoundary t], false)
    else if x.ended then (now, false)
    else
      let w := x.bundle
      if !x.first then (now ++ cubeAgain t (bundleCube w), true)
      else
        match bundleWait t w with
        | some i => (now ++ [i], false)
        | none =>
          let l := bundleSlots t w
          if b.slotsHold t l then (now, false) else (now ++ l, true)

/-- Tiles whose wait was found true in this cycle and whose bundle may now issue. -/
def Block.waitsMet (b : Block) : List (Nat × List Instr) :=
  (List.range 144).filterMap (fun t =>
    let x := b.tile t
    if x.waitOk && !x.issued && x.issuing && x.first then
      let l := bundleSlots t x.bundle
      if b.slotsHold t l then none else some (t, l)
    else none)

/-- Mark the tiles that issue in this cycle. -/
def Block.markIssued (ts : List Nat) (b : Block) : Block :=
  ts.foldl (fun b t => b.onTile t (fun x => { x with issued := true, waitOk := false })) b

/-- One tick of the matrix clock, and the commands it brings. Asleep, in reset or before READY nothing happens.
[log 20 DESIGN CHOICE] -/
def Block.clock (b : Block) : Block × List Instr :=
  if !b.isReady || !b.isAwake then (b, [])
  else
    match b.waitsMet with
    | [] =>
      let b := ((List.range 144).foldl (fun b t => b.endCycle t) b).retries
      let rows := (List.range 144).map (fun t => (t, b.tileRows t))
      (b.markIssued ((rows.filter (fun r => r.2.2)).map (fun r => r.1)), rows.flatMap (fun r => r.2.1))
    | l => (b.markIssued (l.map (fun r => r.1)), l.flatMap (fun r => r.2))

end Sys2Proof.Machine
end

