-- ==== Sys2Proof/Machine/Dispatch.lean ====
section
/-!
DEFINITION. The dispatch of a command to its meaning: one arm per row of the opcode table, each a direct call.
-/

namespace Sys2Proof.Machine

def exec (i : Instr) (s : State) : Host.Outcome State Fault Refusal :=
  match i with
  | .nop p => Sys2Proof.Machine.execNop p s
  | .status p => Sys2Proof.Machine.execStatus p s
  | .almanacRead p => Sys2Proof.Machine.execAlmanacRead p s
  | .logRead p => Sys2Proof.Machine.execLogRead p s
  | .openShutter p => Sys2Proof.Machine.execOpenShutter p s
  | .jobReset p => Sys2Proof.Machine.execJobReset p s
  | .fenceAll p => Sys2Proof.Machine.execFenceAll p s
  | .jobBind p => Sys2Proof.Machine.execJobBind p s
  | .syncSet p => Sys2Proof.Machine.execSyncSet p s
  | .syncAdd p => Sys2Proof.Machine.execSyncAdd p s
  | .syncWait p => Sys2Proof.Machine.execSyncWait p s
  | .syncRead p => Sys2Proof.Machine.execSyncRead p s
  | .progLoad p => Sys2Proof.Machine.execProgLoad p s
  | .run p => Sys2Proof.Machine.execRun p s
  | .preempt p => Sys2Proof.Machine.execPreempt p s
  | .conv3d p => Sys2Proof.Machine.execConv3d p s
  | .conv3dT p => Sys2Proof.Machine.execConv3dT p s
  | .attnFwd p => Sys2Proof.Machine.execAttnFwd p s
  | .attnBwd p => Sys2Proof.Machine.execAttnBwd p s
  | .poolInit p => Sys2Proof.Machine.execPoolInit p s
  | .seqOpen p => Sys2Proof.Machine.execSeqOpen p s
  | .setDrop p => Sys2Proof.Machine.execSetDrop p s
  | .kvShare p => Sys2Proof.Machine.execKvShare p s
  | .kvFree p => Sys2Proof.Machine.execKvFree p s
  | .kvRegenSet p => Sys2Proof.Machine.execKvRegenSet p s
  | .codecTable p => Sys2Proof.Machine.execCodecTable p s
  | .codecMapCreate p => Sys2Proof.Machine.execCodecMapCreate p s
  | .codecMapDestroy p => Sys2Proof.Machine.execCodecMapDestroy p s
  | .codecMapDiscard p => Sys2Proof.Machine.execCodecMapDiscard p s
  | .codecFlush p => Sys2Proof.Machine.execCodecFlush p s
  | .dmaCopy p => Sys2Proof.Machine.execDmaCopy p s
  | .offload p => Sys2Proof.Machine.execOffload p s
  | .prefetch p => Sys2Proof.Machine.execPrefetch p s
  | .fwWrite p => Sys2Proof.Machine.execFwWrite p s
  | .scaleSetInit p => Sys2Proof.Machine.execScaleSetInit p s
  | .scaleSetWrite p => Sys2Proof.Machine.execScaleSetWrite p s
  | .fold p => Sys2Proof.Machine.execFold p s
  | .scaleSetBind p => Sys2Proof.Machine.execScaleSetBind p s
  | .stepOpen p => Sys2Proof.Machine.execStepOpen p s
  | .stepClose p => Sys2Proof.Machine.execStepClose p s
  | .update p => Sys2Proof.Machine.execUpdate p s
  | .momentFormat p => Sys2Proof.Machine.execMomentFormat p s
  | .freezeSet p => Sys2Proof.Machine.execFreezeSet p s
  | .allReduce p => Sys2Proof.Machine.execAllReduce p s
  | .reduceScatter p => Sys2Proof.Machine.execReduceScatter p s
  | .allGather p => Sys2Proof.Machine.execAllGather p s
  | .broadcast p => Sys2Proof.Machine.execBroadcast p s
  | .allToAll p => Sys2Proof.Machine.execAllToAll p s
  | .send p => Sys2Proof.Machine.execSend p s
  | .recv p => Sys2Proof.Machine.execRecv p s
  | .flagCombine p => Sys2Proof.Machine.execFlagCombine p s
  | .treeSetSelf p => Sys2Proof.Machine.execTreeSetSelf p s
  | .treeSetDefine p => Sys2Proof.Machine.execTreeSetDefine p s
  | .treeSetRoutes p => Sys2Proof.Machine.execTreeSetRoutes p s
  | .treeSetUndefine p => Sys2Proof.Machine.execTreeSetUndefine p s
  | .exportSet p => Sys2Proof.Machine.execExportSet p s
  | .ephWrite p => Sys2Proof.Machine.execEphWrite p s
  | .ephCancel p => Sys2Proof.Machine.execEphCancel p s
  | .ephCancelApply => Sys2Proof.Machine.execEphCancelApply s
  | .config p => Sys2Proof.Machine.execConfig p s
  | .commit p => Sys2Proof.Machine.execCommit p s
  | .ledgerSet p => Sys2Proof.Machine.execLedgerSet p s
  | .advise p => Sys2Proof.Machine.execAdvise p s
  | .snapDrain p => Sys2Proof.Machine.execSnapDrain p s
  | .restore p => Sys2Proof.Machine.execRestore p s
  | .ledgerRead p => Sys2Proof.Machine.execLedgerRead p s
  | .paritySet p => Sys2Proof.Machine.execParitySet p s
  | .rollback p => Sys2Proof.Machine.execRollback p s
  | .rebuild p => Sys2Proof.Machine.execRebuild p s
  | .sessionOpen p => Sys2Proof.Machine.execSessionOpen p s
  | .sessionClose p => Sys2Proof.Machine.execSessionClose p s
  | .attest p => Sys2Proof.Machine.execAttest p s
  | .keyRotateDomain p => Sys2Proof.Machine.execKeyRotateDomain p s
  | .keyRotatePorts p => Sys2Proof.Machine.execKeyRotatePorts p s
  | .keyRotateJobSecret p => Sys2Proof.Machine.execKeyRotateJobSecret p s
  | .debugUnlock p => Sys2Proof.Machine.execDebugUnlock p s
  | .plSet p => Sys2Proof.Machine.execPlSet p s
  | .sleepIdleGate p => Sys2Proof.Machine.execSleepIdleGate p s
  | .sleepStow p => Sys2Proof.Machine.execSleepStow p s
  | .sleepDark p => Sys2Proof.Machine.execSleepDark p s
  | .csuCfg p => Sys2Proof.Machine.execCsuCfg p s
  | .csuRead p => Sys2Proof.Machine.execCsuRead p s
  | .csuWrite p => Sys2Proof.Machine.execCsuWrite p s
  | .memFill p => Sys2Proof.Machine.execMemFill p s
  | .scrubCfg p => Sys2Proof.Machine.execScrubCfg p s
  | .domainSetDiscard p => Sys2Proof.Machine.execDomainSetDiscard p s
  | .domainSetMove p => Sys2Proof.Machine.execDomainSetMove p s
  | .packetDispatch core tileQueue => Sys2Proof.Machine.execPacketDispatch core tileQueue s
  | .ringEnable n v => Sys2Proof.Machine.execRingEnable n v s
  | .ringDisable n => Sys2Proof.Machine.execRingDisable n s
  | .subTailWrite n v => Sys2Proof.Machine.execSubTailWrite n v s
  | .cplHeadWrite n v => Sys2Proof.Machine.execCplHeadWrite n v s
  | .sidLoadArm v => Sys2Proof.Machine.execSidLoadArm v s
  | .logAckWrite v => Sys2Proof.Machine.execLogAckWrite v s
  | .firstFaultClr v => Sys2Proof.Machine.execFirstFaultClr v s
  | .msixUnmask vec => Sys2Proof.Machine.execMsixUnmask vec s
  | .registerWrite off size v => Sys2Proof.Machine.execRegisterWrite off size v s
  | .bar4Read x n ide => Sys2Proof.Machine.execBar4Read x n ide s
  | .bar4Write x bs ide => Sys2Proof.Machine.execBar4Write x bs ide s
  | .bar2Read x n ide => Sys2Proof.Machine.execBar2Read x n ide s
  | .bar2Write x bs ide => Sys2Proof.Machine.execBar2Write x bs ide s
  | .hostReadCompletion tag ok bs => Sys2Proof.Machine.execHostReadCompletion tag ok bs s
  | .completionTimeout tag => Sys2Proof.Machine.execCompletionTimeout tag s
  | .msixSpacingExpiry v => Sys2Proof.Machine.execMsixSpacingExpiry v s
  | .step t g first => Sys2Proof.Machine.execStep t g first s
  | .drain t g odr => Sys2Proof.Machine.execDrain t g odr s
  | .discard t g => Sys2Proof.Machine.execDiscard t g s
  | .stepAndDrain t sg first dg odr => Sys2Proof.Machine.execStepAndDrain t sg first dg odr s
  | .stepAndDiscard t sg first dg => Sys2Proof.Machine.execStepAndDiscard t sg first dg s
  | .groupSettle t g => Sys2Proof.Machine.execGroupSettle t g s
  | .drainComplete t => Sys2Proof.Machine.execDrainComplete t s
  | .transientFault t g row col => Sys2Proof.Machine.execTransientFault t g row col s
  | .rerunDone t => Sys2Proof.Machine.execRerunDone t s
  | .spareRowSwitchDone t => Sys2Proof.Machine.execSpareRowSwitchDone t s
  | .load t mdr ac => Sys2Proof.Machine.execLoad t mdr ac s
  | .store t mdr ac => Sys2Proof.Machine.execStore t mdr ac s
  | .loadGranuleComplete t xfer gran => Sys2Proof.Machine.execLoadGranuleComplete t xfer gran s
  | .storeGranuleAck t xfer gran => Sys2Proof.Machine.execStoreGranuleAck t xfer gran s
  | .moveAccessStarvation t => Sys2Proof.Machine.execMoveAccessStarvation t s
  | .syncSlotWait t ctr cond v => Sys2Proof.Machine.execSyncSlotWait t ctr cond v s
  | .syncSlotAdd t ctr v => Sys2Proof.Machine.execSyncSlotAdd t ctr v s
  | .syncSlotSet t ctr v => Sys2Proof.Machine.execSyncSlotSet t ctr v s
  | .waitAc t ac cond v => Sys2Proof.Machine.execWaitAc t ac cond v s
  | .setAc t ac v => Sys2Proof.Machine.execSetAc t ac v s
  | .syncOpEffect ctr => Sys2Proof.Machine.execSyncOpEffect ctr s
  | .waitTimeout t => Sys2Proof.Machine.execWaitTimeout t s
  | .runStart => Sys2Proof.Machine.execRunStart s
  | .tileFinish t => Sys2Proof.Machine.execTileFinish t s
  | .preemptBoundary t => Sys2Proof.Machine.execPreemptBoundary t s
  | .preemptSaveDone t => Sys2Proof.Machine.execPreemptSaveDone t s
  | .opResultReady t => Sys2Proof.Machine.execOpResultReady t s
  | .vecAdd t a => Sys2Proof.Machine.execVecAdd t a s
  | .vecSub t a => Sys2Proof.Machine.execVecSub t a s
  | .vecMul t a => Sys2Proof.Machine.execVecMul t a s
  | .vecFma t a => Sys2Proof.Machine.execVecFma t a s
  | .vecMin t a => Sys2Proof.Machine.execVecMin t a s
  | .vecMax t a => Sys2Proof.Machine.execVecMax t a s
  | .vecAbs t a => Sys2Proof.Machine.execVecAbs t a s
  | .vecNeg t a => Sys2Proof.Machine.execVecNeg t a s
  | .vecSel t a => Sys2Proof.Machine.execVecSel t a s
  | .vecCmp t a => Sys2Proof.Machine.execVecCmp t a s
  | .vecAnd t a => Sys2Proof.Machine.execVecAnd t a s
  | .vecOr t a => Sys2Proof.Machine.execVecOr t a s
  | .vecXor t a => Sys2Proof.Machine.execVecXor t a s
  | .vecIadd t a => Sys2Proof.Machine.execVecIadd t a s
  | .vecCvt t a => Sys2Proof.Machine.execVecCvt t a s
  | .vecScalest t a => Sys2Proof.Machine.execVecScalest t a s
  | .vecBcast t a => Sys2Proof.Machine.execVecBcast t a s
  | .vecRot t a => Sys2Proof.Machine.execVecRot t a s
  | .vecFtoi t a => Sys2Proof.Machine.execVecFtoi t a s
  | .vecItof t a => Sys2Proof.Machine.execVecItof t a s
  | .vecExp2 t a => Sys2Proof.Machine.execVecExp2 t a s
  | .vecExp t a => Sys2Proof.Machine.execVecExp t a s
  | .vecExpd t a => Sys2Proof.Machine.execVecExpd t a s
  | .vecLog2 t a => Sys2Proof.Machine.execVecLog2 t a s
  | .vecRcp t a => Sys2Proof.Machine.execVecRcp t a s
  | .vecRsqrt t a => Sys2Proof.Machine.execVecRsqrt t a s
  | .vecSqrt t a => Sys2Proof.Machine.execVecSqrt t a s
  | .vecSigm t a => Sys2Proof.Machine.execVecSigm t a s
  | .vecTanh t a => Sys2Proof.Machine.execVecTanh t a s
  | .vecSint t a => Sys2Proof.Machine.execVecSint t a s
  | .vecCost t a => Sys2Proof.Machine.execVecCost t a s
  | .vecRsum t a => Sys2Proof.Machine.execVecRsum t a s
  | .vecRmax t a => Sys2Proof.Machine.execVecRmax t a s
  | .vecRamax t a => Sys2Proof.Machine.execVecRamax t a s
  | .vecLdrL t a => Sys2Proof.Machine.execVecLdrL t a s
  | .vecLdrH t a => Sys2Proof.Machine.execVecLdrH t a s
  | .vecLdc t a => Sys2Proof.Machine.execVecLdc t a s
  | .vecMld t a => Sys2Proof.Machine.execVecMld t a s
  | .vecStrL t a => Sys2Proof.Machine.execVecStrL t a s
  | .vecStrH t a => Sys2Proof.Machine.execVecStrH t a s
  | .vecStc t a => Sys2Proof.Machine.execVecStc t a s
  | .vecMst t a => Sys2Proof.Machine.execVecMst t a s
  | .vecCstore t a => Sys2Proof.Machine.execVecCstore t a s
  | .vecCclr t a => Sys2Proof.Machine.execVecCclr t a s
  | .scalarAdd t a => Sys2Proof.Machine.execScalarAdd t a s
  | .scalarSub t a => Sys2Proof.Machine.execScalarSub t a s
  | .scalarAnd t a => Sys2Proof.Machine.execScalarAnd t a s
  | .scalarOr t a => Sys2Proof.Machine.execScalarOr t a s
  | .scalarXor t a => Sys2Proof.Machine.execScalarXor t a s
  | .scalarShl t a => Sys2Proof.Machine.execScalarShl t a s
  | .scalarShr t a => Sys2Proof.Machine.execScalarShr t a s
  | .scalarSar t a => Sys2Proof.Machine.execScalarSar t a s
  | .scalarSlt t a => Sys2Proof.Machine.execScalarSlt t a s
  | .scalarSltu t a => Sys2Proof.Machine.execScalarSltu t a s
  | .scalarMul t a => Sys2Proof.Machine.execScalarMul t a s
  | .scalarMulhu t a => Sys2Proof.Machine.execScalarMulhu t a s
  | .scalarAddi t a => Sys2Proof.Machine.execScalarAddi t a s
  | .scalarAndi t a => Sys2Proof.Machine.execScalarAndi t a s
  | .scalarOri t a => Sys2Proof.Machine.execScalarOri t a s
  | .scalarXori t a => Sys2Proof.Machine.execScalarXori t a s
  | .scalarShli t a => Sys2Proof.Machine.execScalarShli t a s
  | .scalarShri t a => Sys2Proof.Machine.execScalarShri t a s
  | .scalarSari t a => Sys2Proof.Machine.execScalarSari t a s
  | .scalarLi t a => Sys2Proof.Machine.execScalarLi t a s
  | .scalarLui t a => Sys2Proof.Machine.execScalarLui t a s
  | .scalarDivu t a => Sys2Proof.Machine.execScalarDivu t a s
  | .scalarRemu t a => Sys2Proof.Machine.execScalarRemu t a s
  | .scalarLd t a => Sys2Proof.Machine.execScalarLd t a s
  | .scalarSt t a => Sys2Proof.Machine.execScalarSt t a s
  | .scalarWdr t a => Sys2Proof.Machine.execScalarWdr t a s
  | .scalarWdrr t a => Sys2Proof.Machine.execScalarWdrr t a s
  | .scalarVget t a => Sys2Proof.Machine.execScalarVget t a s
  | .scalarRdsc t a => Sys2Proof.Machine.execScalarRdsc t a s
  | .scalarPkt t a => Sys2Proof.Machine.execScalarPkt t a s
  | .scalarBr t a => Sys2Proof.Machine.execScalarBr t a s
  | .scalarBeq t a => Sys2Proof.Machine.execScalarBeq t a s
  | .scalarBne t a => Sys2Proof.Machine.execScalarBne t a s
  | .scalarBlt t a => Sys2Proof.Machine.execScalarBlt t a s
  | .scalarBge t a => Sys2Proof.Machine.execScalarBge t a s
  | .scalarDbnz t a => Sys2Proof.Machine.execScalarDbnz t a s
  | .convFinish id cycles => Sys2Proof.Machine.execConvFinish id cycles s
  | .attnFinish id cycles => Sys2Proof.Machine.execAttnFinish id cycles s
  | .kvAdmission id => Sys2Proof.Machine.execKvAdmission id s
  | .kvCopyDone id => Sys2Proof.Machine.execKvCopyDone id s
  | .patrolScrub p loc upsets retryOk perm => Sys2Proof.Machine.execPatrolScrub p loc upsets retryOk perm s
  | .migrationCopy => Sys2Proof.Machine.execMigrationCopy s
  | .migrationDone => Sys2Proof.Machine.execMigrationDone s
  | .walkerGranule d => Sys2Proof.Machine.execWalkerGranule d s
  | .walkDone d => Sys2Proof.Machine.execWalkDone d s
  | .memTempSample h temp => Sys2Proof.Machine.execMemTempSample h temp s
  | .tierHead ch => Sys2Proof.Machine.execTierHead ch s
  | .tierNotBefore ch => Sys2Proof.Machine.execTierNotBefore ch s
  | .tierDeadline ch => Sys2Proof.Machine.execTierDeadline ch s
  | .pathGrant path => Sys2Proof.Machine.execPathGrant path s
  | .tierCommit ch => Sys2Proof.Machine.execTierCommit ch s
  | .flitSlotFill m => Sys2Proof.Machine.execFlitSlotFill m s
  | .flitIdle m f => Sys2Proof.Machine.execFlitIdle m f s
  | .flitData m f => Sys2Proof.Machine.execFlitData m f s
  | .flitTime m f => Sys2Proof.Machine.execFlitTime m f s
  | .flitShutter m f => Sys2Proof.Machine.execFlitShutter m f s
  | .flitKeychg m f => Sys2Proof.Machine.execFlitKeychg m f s
  | .flitSleep m f => Sys2Proof.Machine.execFlitSleep m f s
  | .replayTimeout m => Sys2Proof.Machine.execReplayTimeout m s
  | .portTrainingDone m good peerId peerGen peerNonce => Sys2Proof.Machine.execPortTrainingDone m good peerId peerGen peerNonce s
  | .trainNoSignal m => Sys2Proof.Machine.execTrainNoSignal m s
  | .signalDetect m => Sys2Proof.Machine.execSignalDetect m s
  | .lossOfSignal m => Sys2Proof.Machine.execLossOfSignal m s
  | .wakePattern m => Sys2Proof.Machine.execWakePattern m s
  | .timeCodeSend m => Sys2Proof.Machine.execTimeCodeSend m s
  | .shutterNoticeSend m => Sys2Proof.Machine.execShutterNoticeSend m s
  | .peerShutterEnd m => Sys2Proof.Machine.execPeerShutterEnd m s
  | .peerWrite src no => Sys2Proof.Machine.execPeerWrite src no s
  | .writeAck src no => Sys2Proof.Machine.execWriteAck src no s
  | .readReq src no => Sys2Proof.Machine.execReadReq src no s
  | .readRsp src no => Sys2Proof.Machine.execReadRsp src no s
  | .collStart src no => Sys2Proof.Machine.execCollStart src no s
  | .collData src no => Sys2Proof.Machine.execCollData src no s
  | .collAbort src no => Sys2Proof.Machine.execCollAbort src no s
  | .unreach src no => Sys2Proof.Machine.execUnreach src no s
  | .parityDelta src no => Sys2Proof.Machine.execParityDelta src no s
  | .parityDone src no => Sys2Proof.Machine.execParityDone src no s
  | .fetch src no => Sys2Proof.Machine.execFetch src no s
  | .fetchData src no => Sys2Proof.Machine.execFetchData src no s
  | .collTimeout tree seq => Sys2Proof.Machine.execCollTimeout tree seq s
  | .rebuildFetchTimeout => Sys2Proof.Machine.execRebuildFetchTimeout s
  | .wpCopyDone page => Sys2Proof.Machine.execWpCopyDone page s
  | .streamComplete k => Sys2Proof.Machine.execStreamComplete k s
  | .streamWriteFail k => Sys2Proof.Machine.execStreamWriteFail k s
  | .sidClkAbsent => Sys2Proof.Machine.execSidClkAbsent s
  | .sidClkValid => Sys2Proof.Machine.execSidClkValid s
  | .sidMark long => Sys2Proof.Machine.execSidMark long s
  | .holdoverLimit => Sys2Proof.Machine.execHoldoverLimit s
  | .ephCollStart serial => Sys2Proof.Machine.execEphCollStart serial s
  | .bucketRelease serial => Sys2Proof.Machine.execBucketRelease serial s
  | .snapCut serial => Sys2Proof.Machine.execSnapCut serial s
  | .plChange serial => Sys2Proof.Machine.execPlChange serial s
  | .ephSyncAdd serial => Sys2Proof.Machine.execEphSyncAdd serial s
  | .ephSyncSet serial => Sys2Proof.Machine.execEphSyncSet serial s
  | .thermalCauseClear => Sys2Proof.Machine.execThermalCauseClear s
  | .throttleAssert => Sys2Proof.Machine.execThrottleAssert s
  | .throttleRelease => Sys2Proof.Machine.execThrottleRelease s
  | .throttlePeriod => Sys2Proof.Machine.execThrottlePeriod s
  | .fastCurrentTrip => Sys2Proof.Machine.execFastCurrentTrip s
  | .fastCurrentRelease => Sys2Proof.Machine.execFastCurrentRelease s
  | .inputPowerStep watts => Sys2Proof.Machine.execInputPowerStep watts s
  | .inputPowerRelease watts => Sys2Proof.Machine.execInputPowerRelease watts s
  | .dieTempStep sensor temp => Sys2Proof.Machine.execDieTempStep sensor temp s
  | .dieTempHard sensor temp => Sys2Proof.Machine.execDieTempHard sensor temp s
  | .dieTempRelease temps => Sys2Proof.Machine.execDieTempRelease temps s
  | .stackTempStep => Sys2Proof.Machine.execStackTempStep s
  | .limiterReturnStep => Sys2Proof.Machine.execLimiterReturnStep s
  | .pl7LimitPersist => Sys2Proof.Machine.execPl7LimitPersist s
  | .plVoltageReached => Sys2Proof.Machine.execPlVoltageReached s
  | .sleepEntryDone => Sys2Proof.Machine.execSleepEntryDone s
  | .wakePin rested => Sys2Proof.Machine.execWakePin rested s
  | .wakeDriveEnd => Sys2Proof.Machine.execWakeDriveEnd s
  | .d3hotEntry => Sys2Proof.Machine.execD3hotEntry s
  | .d0Entry => Sys2Proof.Machine.execD0Entry s
  | .pmeTurnOff => Sys2Proof.Machine.execPmeTurnOff s
  | .configWrite what v => Sys2Proof.Machine.execConfigWrite what v s
  | .powerOnReset => Sys2Proof.Machine.execPowerOnReset s
  | .brownout => Sys2Proof.Machine.execBrownout s
  | .brownoutRecovery => Sys2Proof.Machine.execBrownoutRecovery s
  | .perstAssert => Sys2Proof.Machine.execPerstAssert s
  | .perstDeassert => Sys2Proof.Machine.execPerstDeassert s
  | .functionLevelReset => Sys2Proof.Machine.execFunctionLevelReset s
  | .hotReset => Sys2Proof.Machine.execHotReset s
  | .linkDown => Sys2Proof.Machine.execLinkDown s
  | .romInitDone agree us => Sys2Proof.Machine.execRomInitDone agree us s
  | .bootGo us => Sys2Proof.Machine.execBootGo us s
  | .bootFetchDone us => Sys2Proof.Machine.execBootFetchDone us s
  | .bootVerifyDone us => Sys2Proof.Machine.execBootVerifyDone us s
  | .bootCommitDone readback us => Sys2Proof.Machine.execBootCommitDone readback us s
  | .merlenInitDone us => Sys2Proof.Machine.execMerlenInitDone us s
  | .selfTestDone stage unit index pcs phys rows us => Sys2Proof.Machine.execSelfTestDone stage unit index pcs phys rows us s
  | .trustFailure => Sys2Proof.Machine.execTrustFailure s
  | .trustKat ok => Sys2Proof.Machine.execTrustKat ok s
  | .mctpControl t cmd a e => Sys2Proof.Machine.execMctpControl t cmd a e s
  | .spdmRequest t req => Sys2Proof.Machine.execSpdmRequest t req s
  | .vendorDefinedRequest t code => Sys2Proof.Machine.execVendorDefinedRequest t code s
  | .getHealth t seq => Sys2Proof.Machine.execGetHealth t seq s
  | .getTemps t seq => Sys2Proof.Machine.execGetTemps t seq s
  | .getPower t seq mv ma aux => Sys2Proof.Machine.execGetPower t seq mv ma aux s
  | .getAlmanac t seq => Sys2Proof.Machine.execGetAlmanac t seq s
  | .getLog t seq first count => Sys2Proof.Machine.execGetLog t seq first count s
  | .setPlCeiling t seq l => Sys2Proof.Machine.execSetPlCeiling t seq l s
  | .resetModule t seq => Sys2Proof.Machine.execResetModule t seq s
  | .ideKm t act stream set => Sys2Proof.Machine.execIdeKm t act stream set s
  | .lockInterface => Sys2Proof.Machine.execLockInterface s
  | .startInterface => Sys2Proof.Machine.execStartInterface s
  | .stopInterface => Sys2Proof.Machine.execStopInterface s
  | .tapReset => Sys2Proof.Machine.execTapReset s
  | .jtagIrLoad code => Sys2Proof.Machine.execJtagIrLoad code s
  | .bypass n v => Sys2Proof.Machine.execBypass n v s
  | .idcode => Sys2Proof.Machine.execIdcode s
  | .samplePreload n captured v => Sys2Proof.Machine.execSamplePreload n captured v s
  | .extest n captured v => Sys2Proof.Machine.execExtest n captured v s
  | .clamp n v => Sys2Proof.Machine.execClamp n v s
  | .highz n v => Sys2Proof.Machine.execHighz n v s
  | .extestPulse n captured v => Sys2Proof.Machine.execExtestPulse n captured v s
  | .extestTrain n captured v => Sys2Proof.Machine.execExtestTrain n captured v s
  | .dbgRead off => Sys2Proof.Machine.execDbgRead off s
  | .dbgFull da n bs => Sys2Proof.Machine.execDbgFull da n bs s
  | .sidClkTick valid => Sys2Proof.Machine.execSidClkTick valid s
  | .scNowRead off size => Sys2Proof.Machine.execScNowRead off size s
  | .updateBlockPass q => Sys2Proof.Machine.execUpdateBlockPass q s
  | .voltageSlewDownDone => Sys2Proof.Machine.execVoltageSlewDownDone s
  | .clockSourceSwitchDone => Sys2Proof.Machine.execClockSourceSwitchDone s
  | .sleepWakeDone => Sys2Proof.Machine.execSleepWakeDone s
  | .i3cDynamicAddress addr => Sys2Proof.Machine.execI3cDynamicAddress addr s

end Sys2Proof.Machine
end

