-- ==== Sys2Proof/Machine/Step.lean ====
section
/-!
DEFINITION. One step: the command at the front of the queue, or, with none waiting, one matrix cycle (log entry 20).
-/

namespace Sys2Proof.Machine

/-- A step with an empty queue: the matrix clock ticks, and what it brings waits. [log 20 DESIGN CHOICE] -/
def State.tick (s : State) : State :=
  let r := s.blk.clock
  { pending := r.2, blk := r.1 }

/-- [log 13, 20 DESIGN CHOICE] -/
def step (s : State) : Host.Outcome State Fault Refusal :=
  match s.pending with
  | [] => .next s.tick
  | c :: rest => exec c { s with pending := rest }

/-- s with the command that a word spells at the front of its queue. [log 9 DESIGN CHOICE] -/
def State.withFetchWord (s : State) (nbits w : Nat) : State :=
  match decodeTableWord nbits w with
  | some c => { s with pending := c :: s.pending }
  | none => s

end Sys2Proof.Machine
end

