-- ==== Sys2Proof/WellFormed.lean ====
section
/-!
DEFINITION. Which commands are well-formed: every operand in the range its field or its index has in the spec.
-/

namespace Sys2Proof

/-- T0 to T143 (R13). -/
def tileNo (t : Nat) : Bool := decide (t < 144)
/-- CQ0 to CQ63 (R37). -/
def ringNo (n : Nat) : Bool := decide (n < 64)
/-- SYNC0 to SYNC8191 (R62). -/
def ctrNo (c : Nat) : Bool := decide (c < 8192)

/-- A packet as it stands in a ring: PLEN parameter bytes (R48); from a tile program, what its SLOTS hold (R184). -/
def packetOk (p : Packet) : Bool :=
  match p.src with
  | .ring n => ringNo n && p.params.length == p.hdr.toNat / 2 ^ 24 % 2 ^ 12
  | .tile t => tileNo t && p.params.length + 64 == 64 * (p.hdr.toNat / 2 ^ 16 % 2 ^ 8)

/-- Form A (R167). -/
def vecAOk (a : VecA) : Bool :=
  decide (a.pipe < 2) && decide (a.vd < 64) && decide (a.va < 64) && decide (a.vb < 64) && decide (a.vc < 64) && decide (a.pm < 8) &&
    decide (a.mod < 4096)
/-- Form M (R168). -/
def vecMOk (a : VecM) : Bool :=
  decide (a.pipe < 2) && decide (a.vr < 64) && decide (a.acore < 4) && decide (a.areg < 32) && decide (a.sr < 4) &&
    decide (a.ofs < 4096) && decide (a.slot < 32) && decide (a.cid < 256)
/-- Forms R, I, U, B, D and V (R181). -/
def scROk (a : ScR) : Bool := decide (a.core < 4) && decide (a.rd < 32) && decide (a.ra < 32) && decide (a.rb < 32)
def scIOk (a : ScI) : Bool := decide (a.core < 4) && decide (a.rd < 32) && decide (a.ra < 32) && decide (a.imm < 2 ^ 14)
def scUOk (a : ScU) : Bool := decide (a.core < 4) && decide (a.rd < 32) && decide (a.imm < 2 ^ 19)
def scBOk (a : ScB) : Bool := decide (a.core < 4) && decide (a.ra < 32) && decide (a.rb < 32) && decide (a.target < 2 ^ 14)
def scDOk (a : ScD) : Bool := decide (a.core < 4) && decide (a.dr < 32) && decide (a.addr < 2 ^ 19)
def scVOk (a : ScV) : Bool := decide (a.core < 4) && decide (a.rd < 32) && decide (a.vn < 64) && decide (a.lane < 512)
/-- A sync-slot value (R148). -/
def svalOk : SVal → Bool
  | .imm v => decide (v < 2 ^ 13)
  | .reg c r => decide (c < 4) && decide (r < 32)

/-- A TLP of 1 to 512 bytes (R425), on no IDE stream, the link stream or the selective one. -/
def tlp (n ide : Nat) : Bool := decide (1 ≤ n) && decide (n ≤ 512) && decide (ide < 3)

/-- Is a command well-formed? -/
def Instr.wf : Instr → Bool
  | .nop p => packetOk p
  | .status p => packetOk p
  | .almanacRead p => packetOk p
  | .logRead p => packetOk p
  | .openShutter p => packetOk p
  | .jobReset p => packetOk p
  | .fenceAll p => packetOk p
  | .jobBind p => packetOk p
  | .syncSet p => packetOk p
  | .syncAdd p => packetOk p
  | .syncWait p => packetOk p
  | .syncRead p => packetOk p
  | .progLoad p => packetOk p
  | .run p => packetOk p
  | .preempt p => packetOk p
  | .conv3d p => packetOk p
  | .conv3dT p => packetOk p
  | .attnFwd p => packetOk p
  | .attnBwd p => packetOk p
  | .poolInit p => packetOk p
  | .seqOpen p => packetOk p
  | .setDrop p => packetOk p
  | .kvShare p => packetOk p
  | .kvFree p => packetOk p
  | .kvRegenSet p => packetOk p
  | .codecTable p => packetOk p
  | .codecMapCreate p => packetOk p
  | .codecMapDestroy p => packetOk p
  | .codecMapDiscard p => packetOk p
  | .codecFlush p => packetOk p
  | .dmaCopy p => packetOk p
  | .offload p => packetOk p
  | .prefetch p => packetOk p
  | .fwWrite p => packetOk p
  | .scaleSetInit p => packetOk p
  | .scaleSetWrite p => packetOk p
  | .fold p => packetOk p
  | .scaleSetBind p => packetOk p
  | .stepOpen p => packetOk p
  | .stepClose p => packetOk p
  | .update p => packetOk p
  | .momentFormat p => packetOk p
  | .freezeSet p => packetOk p
  | .allReduce p => packetOk p
  | .reduceScatter p => packetOk p
  | .allGather p => packetOk p
  | .broadcast p => packetOk p
  | .allToAll p => packetOk p
  | .send p => packetOk p
  | .recv p => packetOk p
  | .flagCombine p => packetOk p
  | .treeSetSelf p => packetOk p
  | .treeSetDefine p => packetOk p
  | .treeSetRoutes p => packetOk p
  | .treeSetUndefine p => packetOk p
  | .exportSet p => packetOk p
  | .ephWrite p => packetOk p
  | .ephCancel p => packetOk p
  | .ephCancelApply => true
  | .config p => packetOk p
  | .commit p => packetOk p
  | .ledgerSet p => packetOk p
  | .advise p => packetOk p
  | .snapDrain p => packetOk p
  | .restore p => packetOk p
  | .ledgerRead p => packetOk p
  | .paritySet p => packetOk p
  | .rollback p => packetOk p
  | .rebuild p => packetOk p
  | .sessionOpen p => packetOk p
  | .sessionClose p => packetOk p
  | .attest p => packetOk p
  | .keyRotateDomain p => packetOk p
  | .keyRotatePorts p => packetOk p
  | .keyRotateJobSecret p => packetOk p
  | .debugUnlock p => packetOk p
  | .plSet p => packetOk p
  | .sleepIdleGate p => packetOk p
  | .sleepStow p => packetOk p
  | .sleepDark p => packetOk p
  | .csuCfg p => packetOk p
  | .csuRead p => packetOk p
  | .csuWrite p => packetOk p
  | .memFill p => packetOk p
  | .scrubCfg p => packetOk p
  | .domainSetDiscard p => packetOk p
  | .domainSetMove p => packetOk p
  | .packetDispatch core _ => decide (core < 4)
  | .ringEnable n v => ringNo n && decide (v < 2 ^ 32) && v.testBit 31
  | .ringDisable n => ringNo n
  | .subTailWrite n v => ringNo n && decide (v < 2 ^ 32)
  | .cplHeadWrite n v => ringNo n && decide (v < 2 ^ 32)
  | .sidLoadArm v => decide (v < 2 ^ 64)
  | .logAckWrite v => decide (v < 2 ^ 32)
  | .firstFaultClr v => decide (v < 2 ^ 32)
  | .msixUnmask vec => (match vec with | some v => decide (v < 128) | none => true)
  | .registerWrite off _ v => decide (off < 0x10000) && decide (v < 2 ^ 64)
  | .bar4Read x n ide => decide (x + n ≤ 2 ^ 36) && tlp n ide
  | .bar4Write x bs ide => decide (x + bs.length ≤ 2 ^ 36) && tlp bs.length ide
  | .bar2Read x n ide => decide (x + n ≤ 2 ^ 25) && tlp n ide
  | .bar2Write x bs ide => decide (x + bs.length ≤ 2 ^ 25) && tlp bs.length ide
  | .hostReadCompletion _ _ _ => true
  | .completionTimeout _ => true
  | .msixSpacingExpiry v => decide (v < 128)
  | .step t g _ => tileNo t && decide (g < 4)
  | .drain t g odr => tileNo t && decide (g < 4) && decide (odr < 4)
  | .discard t g => tileNo t && decide (g < 4)
  | .stepAndDrain t sg _ dg odr => tileNo t && decide (sg < 4) && decide (dg < 4) && decide (odr < 4)
  | .stepAndDiscard t sg _ dg => tileNo t && decide (sg < 4) && decide (dg < 4)
  | .groupSettle t g => tileNo t && decide (g < 4)
  | .drainComplete t => tileNo t
  | .transientFault t g row col => tileNo t && decide (g < 4) && decide (row < 12) && decide (col < 8)
  | .rerunDone t => tileNo t
  | .spareRowSwitchDone t => tileNo t
  | .load t mdr ac => tileNo t && decide (mdr < 16) && decide (ac < 16)
  | .store t mdr ac => tileNo t && decide (mdr < 16) && decide (ac < 16)
  | .loadGranuleComplete t _ _ => tileNo t
  | .storeGranuleAck t _ _ => tileNo t
  | .moveAccessStarvation t => tileNo t
  | .syncSlotWait t ctr cond v => tileNo t && ctrNo ctr && decide (cond < 4) && svalOk v
  | .syncSlotAdd t ctr v => tileNo t && ctrNo ctr && svalOk v
  | .syncSlotSet t ctr v => tileNo t && ctrNo ctr && svalOk v
  | .waitAc t ac cond v => tileNo t && decide (ac < 16) && decide (cond < 4) && svalOk v
  | .setAc t ac v => tileNo t && decide (ac < 16) && svalOk v
  | .syncOpEffect ctr => ctrNo ctr
  | .waitTimeout t => tileNo t
  | .runStart => true
  | .tileFinish t => tileNo t
  | .preemptBoundary t => tileNo t
  | .preemptSaveDone t => tileNo t
  | .opResultReady t => tileNo t
  | .vecAdd t a => tileNo t && vecAOk a
  | .vecSub t a => tileNo t && vecAOk a
  | .vecMul t a => tileNo t && vecAOk a
  | .vecFma t a => tileNo t && vecAOk a
  | .vecMin t a => tileNo t && vecAOk a
  | .vecMax t a => tileNo t && vecAOk a
  | .vecAbs t a => tileNo t && vecAOk a
  | .vecNeg t a => tileNo t && vecAOk a
  | .vecSel t a => tileNo t && vecAOk a
  | .vecCmp t a => tileNo t && vecAOk a
  | .vecAnd t a => tileNo t && vecAOk a
  | .vecOr t a => tileNo t && vecAOk a
  | .vecXor t a => tileNo t && vecAOk a
  | .vecIadd t a => tileNo t && vecAOk a
  | .vecCvt t a => tileNo t && vecAOk a
  | .vecScalest t a => tileNo t && vecAOk a
  | .vecBcast t a => tileNo t && vecAOk a
  | .vecRot t a => tileNo t && vecAOk a
  | .vecFtoi t a => tileNo t && vecAOk a
  | .vecItof t a => tileNo t && vecAOk a
  | .vecExp2 t a => tileNo t && vecAOk a
  | .vecExp t a => tileNo t && vecAOk a
  | .vecExpd t a => tileNo t && vecAOk a
  | .vecLog2 t a => tileNo t && vecAOk a
  | .vecRcp t a => tileNo t && vecAOk a
  | .vecRsqrt t a => tileNo t && vecAOk a
  | .vecSqrt t a => tileNo t && vecAOk a
  | .vecSigm t a => tileNo t && vecAOk a
  | .vecTanh t a => tileNo t && vecAOk a
  | .vecSint t a => tileNo t && vecAOk a
  | .vecCost t a => tileNo t && vecAOk a
  | .vecRsum t a => tileNo t && vecAOk a
  | .vecRmax t a => tileNo t && vecAOk a
  | .vecRamax t a => tileNo t && vecAOk a
  | .vecLdrL t a => tileNo t && vecMOk a
  | .vecLdrH t a => tileNo t && vecMOk a
  | .vecLdc t a => tileNo t && vecMOk a
  | .vecMld t a => tileNo t && vecMOk a
  | .vecStrL t a => tileNo t && vecMOk a
  | .vecStrH t a => tileNo t && vecMOk a
  | .vecStc t a => tileNo t && vecMOk a
  | .vecMst t a => tileNo t && vecMOk a
  | .vecCstore t a => tileNo t && vecMOk a
  | .vecCclr t a => tileNo t && vecMOk a
  | .scalarAdd t a => tileNo t && scROk a
  | .scalarSub t a => tileNo t && scROk a
  | .scalarAnd t a => tileNo t && scROk a
  | .scalarOr t a => tileNo t && scROk a
  | .scalarXor t a => tileNo t && scROk a
  | .scalarShl t a => tileNo t && scROk a
  | .scalarShr t a => tileNo t && scROk a
  | .scalarSar t a => tileNo t && scROk a
  | .scalarSlt t a => tileNo t && scROk a
  | .scalarSltu t a => tileNo t && scROk a
  | .scalarMul t a => tileNo t && scROk a
  | .scalarMulhu t a => tileNo t && scROk a
  | .scalarAddi t a => tileNo t && scIOk a
  | .scalarAndi t a => tileNo t && scIOk a
  | .scalarOri t a => tileNo t && scIOk a
  | .scalarXori t a => tileNo t && scIOk a
  | .scalarShli t a => tileNo t && scIOk a
  | .scalarShri t a => tileNo t && scIOk a
  | .scalarSari t a => tileNo t && scIOk a
  | .scalarLi t a => tileNo t && scUOk a
  | .scalarLui t a => tileNo t && scUOk a
  | .scalarDivu t a => tileNo t && scROk a
  | .scalarRemu t a => tileNo t && scROk a
  | .scalarLd t a => tileNo t && scIOk a
  | .scalarSt t a => tileNo t && scIOk a
  | .scalarWdr t a => tileNo t && scDOk a
  | .scalarWdrr t a => tileNo t && scIOk a
  | .scalarVget t a => tileNo t && scVOk a
  | .scalarRdsc t a => tileNo t && scUOk a
  | .scalarPkt t a => tileNo t && scIOk a
  | .scalarBr t a => tileNo t && scBOk a
  | .scalarBeq t a => tileNo t && scBOk a
  | .scalarBne t a => tileNo t && scBOk a
  | .scalarBlt t a => tileNo t && scBOk a
  | .scalarBge t a => tileNo t && scBOk a
  | .scalarDbnz t a => tileNo t && scBOk a
  | .convFinish _ _ => true
  | .attnFinish _ _ => true
  | .kvAdmission _ => true
  | .kvCopyDone _ => true
  | .patrolScrub p _ upsets _ _ => decide (p < 768) && upsets.all (fun u => decide (u.2 < 2 ^ 144))
  | .migrationCopy => true
  | .migrationDone => true
  | .walkerGranule d => decide (d < 16)
  | .walkDone d => decide (d < 16)
  | .memTempSample h temp => decide (h < 24) && decide (temp < 256)
  | .tierHead ch => decide (ch < 64)
  | .tierNotBefore ch => decide (ch < 64)
  | .tierDeadline ch => decide (ch < 64)
  | .pathGrant path => decide (path < 5)
  | .tierCommit ch => decide (ch < 64)
  | .flitSlotFill m => decide (m < 8)
  | .flitIdle m _ => decide (m < 8)
  | .flitData m _ => decide (m < 8)
  | .flitTime m _ => decide (m < 8)
  | .flitShutter m _ => decide (m < 8)
  | .flitKeychg m _ => decide (m < 8)
  | .flitSleep m _ => decide (m < 8)
  | .replayTimeout m => decide (m < 8)
  | .portTrainingDone m good peerId peerGen peerNonce => decide (m < 8) && decide (good < 256) && decide (peerId < 2 ^ 64) && decide (peerGen < 2 ^ 32) && decide (peerNonce < 2 ^ 256)
  | .trainNoSignal m => decide (m < 8)
  | .signalDetect m => decide (m < 8)
  | .lossOfSignal m => decide (m < 8)
  | .wakePattern m => decide (m < 8)
  | .timeCodeSend m => decide (m < 8)
  | .shutterNoticeSend m => decide (m < 8)
  | .peerShutterEnd m => decide (m < 8)
  | .peerWrite src no => decide (src < 2 ^ 16) && decide (no < 2 ^ 16)
  | .writeAck src no => decide (src < 2 ^ 16) && decide (no < 2 ^ 16)
  | .readReq src no => decide (src < 2 ^ 16) && decide (no < 2 ^ 16)
  | .readRsp src no => decide (src < 2 ^ 16) && decide (no < 2 ^ 16)
  | .collStart src no => decide (src < 2 ^ 16) && decide (no < 2 ^ 16)
  | .collData src no => decide (src < 2 ^ 16) && decide (no < 2 ^ 16)
  | .collAbort src no => decide (src < 2 ^ 16) && decide (no < 2 ^ 16)
  | .unreach src no => decide (src < 2 ^ 16) && decide (no < 2 ^ 16)
  | .parityDelta src no => decide (src < 2 ^ 16) && decide (no < 2 ^ 16)
  | .parityDone src no => decide (src < 2 ^ 16) && decide (no < 2 ^ 16)
  | .fetch src no => decide (src < 2 ^ 16) && decide (no < 2 ^ 16)
  | .fetchData src no => decide (src < 2 ^ 16) && decide (no < 2 ^ 16)
  | .collTimeout tree _ => decide (tree < 16)
  | .rebuildFetchTimeout => true
  | .wpCopyDone _ => true
  | .streamComplete k => decide (k < 7)
  | .streamWriteFail k => decide (k < 7)
  | .sidClkAbsent => true
  | .sidClkValid => true
  | .sidMark _ => true
  | .holdoverLimit => true
  | .ephCollStart _ => true
  | .bucketRelease _ => true
  | .snapCut _ => true
  | .plChange _ => true
  | .ephSyncAdd _ => true
  | .ephSyncSet _ => true
  | .thermalCauseClear => true
  | .throttleAssert => true
  | .throttleRelease => true
  | .throttlePeriod => true
  | .fastCurrentTrip => true
  | .fastCurrentRelease => true
  | .inputPowerStep watts => decide (watts < 2 ^ 16)
  | .inputPowerRelease watts => decide (watts < 2 ^ 16)
  | .dieTempStep sensor temp => decide (sensor < 5) && decide (temp < 256)
  | .dieTempHard sensor temp => decide (sensor < 5) && decide (temp < 256)
  | .dieTempRelease temps => decide (temps.length ≤ 5) && temps.all (fun t => decide (t < 256))
  | .stackTempStep => true
  | .limiterReturnStep => true
  | .pl7LimitPersist => true
  | .plVoltageReached => true
  | .sleepEntryDone => true
  | .wakePin _ => true
  | .wakeDriveEnd => true
  | .d3hotEntry => true
  | .d0Entry => true
  | .pmeTurnOff => true
  | .configWrite what v => decide (v < 2 ^ 32) && (match what with | .bar k => decide (k < 6) | .other off => decide (off < 4096) | .command => true | .msixControl => true)
  | .powerOnReset => true
  | .brownout => true
  | .brownoutRecovery => true
  | .perstAssert => true
  | .perstDeassert => true
  | .functionLevelReset => true
  | .hotReset => true
  | .linkDown => true
  | .romInitDone _ _ => true
  | .bootGo _ => true
  | .bootFetchDone _ => true
  | .bootVerifyDone _ => true
  | .bootCommitDone _ _ => true
  | .merlenInitDone _ => true
  | .selfTestDone stage unit _ pcs phys rows _ => decide (stage ≤ 8) && decide (unit < 16) && pcs.all (fun p => decide (p < 768)) && phys.all (fun k => decide (k < 152)) && rows.all (fun r => decide (r.1 < 152) && decide (r.2 < 12))
  | .trustFailure => true
  | .trustKat _ => true
  | .mctpControl t cmd a e => decide (t < 2) && decide (cmd < 256) && decide (a < 256) && decide (e < 256)
  | .spdmRequest t req => decide (t < 2) && decide (req.length ≤ 4096)
  | .vendorDefinedRequest t code => decide (t < 2) && decide (code < 2 ^ 16)
  | .getHealth t seq => decide (t < 2) && decide (seq < 256)
  | .getTemps t seq => decide (t < 2) && decide (seq < 256)
  | .getPower t seq mv ma aux => decide (t < 2) && decide (seq < 256) && decide (mv < 2 ^ 32) && decide (ma < 2 ^ 32) && decide (aux < 2 ^ 32)
  | .getAlmanac t seq => decide (t < 2) && decide (seq < 256)
  | .getLog t seq first count => decide (t < 2) && decide (seq < 256) && decide (first < 2 ^ 32) && decide (count < 256)
  | .setPlCeiling t seq l => decide (t < 2) && decide (seq < 256) && decide (l < 256)
  | .resetModule t seq => decide (t < 2) && decide (seq < 256)
  | .ideKm t act stream set => decide (t < 2) && decide (act < 3) && decide (stream < 2) && decide (set < 2)
  | .lockInterface => true
  | .startInterface => true
  | .stopInterface => true
  | .tapReset => true
  | .jtagIrLoad code => decide (code < 256)
  | .bypass n v => decide (v < 2 ^ n)
  | .idcode => true
  | .samplePreload n captured v => decide (captured < 2 ^ n) && decide (v < 2 ^ n)
  | .extest n captured v => decide (captured < 2 ^ n) && decide (v < 2 ^ n)
  | .clamp n v => decide (v < 2 ^ n)
  | .highz n v => decide (v < 2 ^ n)
  | .extestPulse n captured v => decide (captured < 2 ^ n) && decide (v < 2 ^ n)
  | .extestTrain n captured v => decide (captured < 2 ^ n) && decide (v < 2 ^ n)
  | .dbgRead off => decide (off < 0x10000) && decide (off % 4 = 0)
  | .dbgFull da n bs => decide (da < 2 ^ 52) && decide (n ≤ 4096) && decide (bs.length ≤ 4096)
  | .sidClkTick _ => true
  | .scNowRead off size => ((off == 0 && (size == 4 || size == 8)) || (off == 4 && size == 4))
  | .updateBlockPass q => decide (q < 4)
  | .voltageSlewDownDone => true
  | .clockSourceSwitchDone => true
  | .sleepWakeDone => true
  | .i3cDynamicAddress addr => decide (addr < 128)

end Sys2Proof
end

