-- ==== Sys2Proof/Safety.lean ====
section
/-!
DEFINITION. What claims use: when a step goes on, what a run reaches, the standing invariants of the block, and a packet's way to
its engine.
-/

namespace Sys2Proof.Machine

/-- A step that neither faults nor refuses. -/
def State.goesOn (s : State) : Prop := ∃ t, step s = .next t

/-- Every command that waits carries operands its row admits. -/
def State.pendingWf (s : State) : Prop := ∀ i ∈ s.pending, i.wf = true

/-- The states that k steps reach, without a stop between. -/
def State.reaches (s : State) : Nat → State → Prop
  | 0, t => t = s
  | k + 1, t => ∃ m, step s = .next m ∧ m.reaches k t

/-- A run that never stops. -/
def State.safe (s : State) : Prop := ∀ k t, s.reaches k t → t.goesOn

/-- The canonical form of the byte store (R252, R257): Device Addresses strictly rising, and no byte listed that reads as 0. -/
def Memory.wf (m : Sparse Byte) : Bool := m.wf 0

/-! ### A packet's way to its engine (R54, R57, R60) -/

/-- Step 7 for a ring packet: its command, decrypted where the packet is sealed; none where it is refused. -/
def Block.opened (n : Nat) (p : Packet) (b : Block) : Option (Cmd × Block) :=
  match b.checkSeal n p with
  | (.refused _, _) => none
  | (.clear, b) => some (b.newCmd p n none)
  | (.sealed_ key salt, b) =>
    some (b.newCmd (openWith p { num := 0, key := key, salt := salt, last := 0, fails := 0 }) n (some (key, salt)))

/-- Merlen can read the packet now, and it passes steps 1 to 7: its command. -/
def Block.readable (p : Packet) (b : Block) : Option (Cmd × Block) :=
  match p.src with
  | .ring n =>
    if b.canRead n p.slots && !decide (p.slots = 0 ∨ 64 < p.slots ∨ (b.ring n).waiting < p.slots) &&
        ((b.checkRing n p).or (b.checkHead p)).isNone then b.opened n p else none
  | .tile t =>
    match b.mer.tileQ.get [] (t / 36) with
    | [] => none
    | (q, ring) :: rest =>
      if q = p && b.isReady && b.isAwake && (b.checkHead p).isNone then
        some (({ b with mer.tileQ := b.mer.tileQ.set [] (t / 36) rest } : Block).newCmd p ring none)
      else none

/-- A packet that Merlen can read and dispatch at once, with nothing held before it: its command, and the block as its engine
takes it. -/
def Block.packetEntry (p : Packet) (b : Block) : Option (Cmd × Block) :=
  match b.readable p with
  | none => none
  | some (c, b) =>
    if (b.checkBody c.pkt).isSome then none
    else
      let b := b.atValidation c
      let b := b.setHeld c.pkt.src (b.heldOf c.pkt.src ++ [c])
      match b.heldOf c.pkt.src with
      | [] => none
      | d :: rest => if d = c && b.canStart c then some (c, (b.setHeld c.pkt.src rest).dispatched c) else none

/-- The pointers of a packet's ring pass it (R54); a tile's packet has none. -/
def Block.past (b0 : Block) (p : Packet) (b : Block) : Block :=
  match p.src with
  | .ring n => b.ringPast n p (b0.ring n)
  | .tile _ => b

/-- A state after a packet: its block as the packet's engine left it, the ring's pointers past the packet. -/
def State.after (s : State) (p : Packet) (b : Block) : State := { s with blk := s.blk.past p b }

/-! ### What completing a command leaves alone -/

/-- Everything but the running list and records of Merlen, the log, the MSI-X table, ALERT#, memory bytes and the outputs. -/
structure Block.Apart (b b' : Block) : Prop where
  sid : b'.sid = b.sid
  eph : b'.eph = b.eph
  shut : b'.shut = b.shut
  alm : b'.alm = b.alm
  fw : b'.fw = b.fw
  tiles : b'.tiles = b.tiles
  codec : b'.codec = b.codec
  trust : b'.trust = b.trust
  fab : b'.fab = b.fab
  csu : b'.csu = b.csu
  train : b'.train = b.train
  pool : b'.pool = b.pool
  tier : b'.tier = b.tier
  snap : b'.snap = b.snap
  pow : b'.pow = b.pow
  boot : b'.boot = b.boot
  jtag : b'.jtag = b.jtag
  sync : b'.mer.sync = b.mer.sync
  tileQ : b'.mer.tileQ = b.mer.tileQ
  errs : b'.mem.errs = b.mem.errs
  attrs : b'.mem.attrs = b.mem.attrs
  pcs : b'.mem.pcs = b.mem.pcs
  reqs : b'.host.reqs = b.host.reqs
  tdisp : b'.host.tdisp = b.host.tdisp
  fault : b'.pins.fault = b.pins.fault
  counts : b'.mem.ceCount = b.mem.ceCount ∧ b'.mem.ueCount = b.mem.ueCount ∧ b'.mem.scrubPasses = b.mem.scrubPasses

/-! ### Slots of a tile -/

/-- A scalar slot may issue on a core of a tile: the tile issues, and the core is not busy (R150, R180). -/
def Block.scalarReady (b : Block) (t core : Nat) : Prop :=
  (b.tile t).issuing = true ∧ (b.tile t).busy.get 0 core ≤ (b.tile t).cyc

/-- A state with another block, the same commands waiting. -/
def State.put (s : State) (b : Block) : State := { s with blk := b }

/-- A state with one tile replaced, everything else as it was. -/
def State.withTile (s : State) (t : Nat) (x : Tile) : State :=
  s.put { s.blk with tiles := s.blk.tiles.set Tile.zero t x }

/-- A result in flight that will be ready l cycles from now (R166). -/
def Tile.awaits (x : Tile) (l : Nat) (d : Dest) (v : Nat) (bs : List Byte) : Tile :=
  { x with pend := x.pend ++ [{ ready := x.cyc + l, dest := d, value := v, bytes := bs }] }

/-- A state in which a scalar register of a tile takes a word l cycles from now, and nothing else has changed. -/
def State.scalarSets (s : State) (t l core rd : Nat) (w : Word) : State :=
  s.withTile t ((s.blk.tile t).awaits l (.sreg core rd) w.toNat [])

/-- A register of a scalar core. -/
def State.scalarReg (s : State) (t core r : Nat) : Word := (s.blk.tile t).sregs.get 0 (32 * core + r)

end Sys2Proof.Machine
end

