-- ==== Sys2Proof/Certificates/Slice0/Obligations.lean ====
section
/-!
DEFINITION. The statements for the provers. A statement about a packet takes the packet where Merlen can read and dispatch it at once
(`Block.packetEntry`): c is then its command and b the block as its engine takes it.
-/

open Sys2Proof Sys2Proof.Machine

/-! ### Steps, commands and reset -/

/-- The queue is first in, first out; the order of rows is their sender's (spec/01). -/
def Obligations.StepRunsFrontCommand : Prop :=
  ∀ (c : Instr) (rest : List Instr) (s : State), s.pending = c :: rest → step s = exec c { s with pending := rest }

/-- The tick of the model (log entry 20, DESIGN CHOICE). -/
def Obligations.EmptyQueueIsACycle : Prop :=
  ∀ s : State, s.pending = [] →
    step s = .next s.tick ∧ (s.blk.isReady = false ∨ s.blk.isAwake = false → step s = .next s)

/-- No command stops the model: what the spec calls a refusal or a fault is a status, a record or Shutter. -/
def Obligations.ExecAnswersAndKeepsQueue : Prop :=
  ∀ (i : Instr) (s : State), ∃ t, exec i s = .next t ∧ t.pending = s.pending

/-- The invariant of the queue, over the bundles of all tiles (R139, R142, R145, R148, R167, R168, R181). -/
def Obligations.WaitingCommandsStayWellFormed : Prop :=
  ∀ s t : State, s.pendingWf → step s = .next t → t.pendingWf

/-- What the spec says of reset (R9, R10, R41, R62, R71, R394, R448, R480); the waiting queue is the model's own. -/
def Obligations.ResetState : Prop :=
  let b := State.reset.blk
  State.reset.pendingWf ∧ State.reset.pending = [] ∧ b.boot.phase = .romInit ∧ b.boot.ready = false ∧ b.sid.state = .unset ∧
    b.sid.sc = 0 ∧ b.shut.shut = false ∧ b.shut.active = 0 ∧ b.trust.job = 0 ∧ b.trust.sessions = [] ∧ b.fab.trees = [] ∧
    b.eph.entries = [] ∧ b.log.entries = [] ∧ b.log.newest = 0 ∧ (∀ n, (b.ring n).enable = false) ∧ b.alm.published = false ∧
    b.snap.st = .unconfigured ∧ (∀ k, b.syncVal k = 0) ∧ b.host.apertureBase = 0 ∧ b.mem.bytes = [] ∧
    b.mem.bytes.wf 0 = true

/-- The byte store below code words and codec (R252, R257): writes, and pages forgotten. -/
def Obligations.MemoryReadsWhatWasWritten : Prop :=
  ∀ b : Block, b.mem.bytes.wf 0 = true →
    (∀ (da : Nat) (bs : List Byte),
      (∀ i (h : i < bs.length), (b.memWrite da bs).mem.bytes.get 0 (da + i) = bs[i]) ∧
      (∀ a, a < da ∨ da + bs.length ≤ a → (b.memWrite da bs).mem.bytes.get 0 a = b.mem.bytes.get 0 a) ∧
      (b.memWrite da bs).mem.bytes.wf 0 = true) ∧
    (∀ (page a : Nat),
      (a / 0x10000 = page → (b.dropPage page).mem.bytes.get 0 a = 0) ∧
      (a / 0x10000 ≠ page → (b.dropPage page).mem.bytes.get 0 a = b.mem.bytes.get 0 a) ∧
      (b.dropPage page).mem.bytes.wf 0 = true)

/-- The last rule of R54, and its step 1. -/
def Obligations.RingHeadAdvances : Prop :=
  ∀ (b : Block) (n : Nat) (p : Packet), p.src = .ring n → b.canRead n p.slots = true →
    (1 ≤ p.slots → p.slots ≤ 64 → p.slots ≤ (b.ring n).waiting → (b.validate n p).mer.rings.wf Ring.zero = true →
      ((b.take p).ring n).subHead = ((b.ring n).subHead + p.slots) % (b.ring n).subSize ∧
      ((b.take p).ring n).seqNext = ((b.ring n).seqNext + 1) % 2 ^ 32) ∧
    (p.slots = 0 ∨ 64 < p.slots ∨ (b.ring n).waiting < p.slots →
      ((b.take p).ring n).stopped = true ∧ ((b.take p).ring n).err = true ∧
      ((b.take p).ring n).errCode = Status.badLength ∧ ((b.take p).ring n).subHead = (b.ring n).subHead ∧
      ((b.take p).ring n).seqNext = (b.ring n).seqNext)

/-- R45 to R47 of a completion with nothing acquired, the ring's records in host memory. -/
def Obligations.CompletionRecord : Prop :=
  ∀ (b : Block) (c : Cmd) (n status detail result : Nat),
    c.pkt.src = .ring n → n < 64 → c.acq = [] → c.sealedOk = none → status < 2 ^ 12 → c.pkt.sigEn = false → c.pkt.irq = false →
    (b.ring n).latched.loc = false →
    ∃ w : Nat,
      (∀ b1 : Block, b1 = { b with
          mer.running := b.mer.running.filter (fun x => x.id ≠ c.id),
          out := .hostWrite ((b.ring n).latched.cbase + 32 * (b.ring n).cplTail) (leBytes 32 w) :: b.out } →
        b.complete c status detail result = b1.setRing n { b.ring n with
          cplTail := ((b.ring n).cplTail + 1) % (b.ring n).cplSize,
          phase := if ((b.ring n).cplTail + 1) % (b.ring n).cplSize = 0 then !(b.ring n).phase else (b.ring n).phase }) ∧
      bits w 15 0 = status ∧ bits w 16 16 = b2n (b.ring n).phase ∧ bits w 22 17 = n ∧ bits w 23 23 = 0 ∧ bits w 31 24 = 0 ∧
      bits w 63 32 = c.pkt.tag ∧ bits w 95 64 = c.pkt.seq ∧ bits w 127 96 = detail % 2 ^ 32 ∧ bits w 191 128 = result % 2 ^ 64 ∧
      bits w 255 192 = b.now

/-- R63, by the exact difference: one that is below 2^31 counts as ahead, any other as behind. -/
def Obligations.WaitConditions : Prop :=
  ∀ counter v : Nat, counter < 2 ^ 32 → v < 2 ^ 32 →
    let d := (counter + (2 ^ 32 - v)) % 2 ^ 32
    (condHolds 0 counter v = true ↔ d < 2 ^ 31) ∧ (condHolds 1 counter v = true ↔ counter = v) ∧
    (condHolds 2 counter v = true ↔ counter ≠ v) ∧ (condHolds 3 counter v = true ↔ 2 ^ 31 ≤ d)

/-- R72, for both rows by which the host reaches SID_LOAD. -/
def Obligations.SidLoadIgnoredInAJob : Prop :=
  ∀ (s : State) (v : Nat), s.blk.trust.job ≠ 0 → s.blk.pow.sleep = .awake →
    (∃ t, exec (.sidLoadArm v) s = .next t ∧ t.blk.sid = s.blk.sid) ∧
    (∃ t, exec (.registerWrite 0x3018 8 v) s = .next t ∧ t.blk.sid = s.blk.sid) ∧
    (∃ t, exec (.registerWrite 0x3018 4 v) s = .next t ∧ t.blk.sid = s.blk.sid) ∧
    (∃ t, exec (.registerWrite 0x301C 4 v) s = .next t ∧ t.blk.sid = s.blk.sid)

/-- R173. `add` and `mul` of values are exact, and enc32 rounds once to FP32. -/
def Obligations.RotRotatesLanePairs : Prop :=
  (∀ (x : Tile) (a : VecA) (j : Nat), j < 256 →
    let lane (q i : Nat) : FV := dec32 (BitVec.ofNat 32 (x.vreg q / 2 ^ (32 * i)))
    let c := lane a.vb (2 * j)
    let w := lane a.vc (2 * j)
    BitVec.ofNat 32 (rotOp x a / 2 ^ (32 * (2 * j))) =
      enc32 (((lane a.va (2 * j)).mul c).add (((lane a.va (2 * j + 1)).mul w).neg)) ∧
    BitVec.ofNat 32 (rotOp x a / 2 ^ (32 * (2 * j + 1))) =
      enc32 (((lane a.va (2 * j)).mul w).add ((lane a.va (2 * j + 1)).mul c))) ∧
  (∀ (x y : Tile) (a : VecA), x.vreg a.va = y.vreg a.va →
    (∀ j, j < 256 → (x.vreg a.vb / 2 ^ (64 * j)) % 2 ^ 32 = (y.vreg a.vb / 2 ^ (64 * j)) % 2 ^ 32 ∧
      (x.vreg a.vc / 2 ^ (64 * j)) % 2 ^ 32 = (y.vreg a.vc / 2 ^ (64 * j)) % 2 ^ 32) → rotOp x a = rotOp y a)

/-- R68: SC never runs backward. The premise keeps the count from wrapping at 2^64. -/
def Obligations.SiderealNeverRunsBack : Prop :=
  ∀ (s t : State) (i : Instr), s.blk.sid.sc.toNat < 2 ^ 62 → s.blk.sid.loadEpoch < 2 ^ 38 →
    (∀ (m : Nat) (c : TimeCode), (m, some c) ∈ s.blk.sid.codes → c.epoch < 2 ^ 38) →
    i = .sidClkTick true ∨ i = .sidClkTick false ∨ i = .sidMark true ∨ i = .sidMark false ∨ i = .sidClkAbsent ∨
      i = .sidClkValid ∨ i = .holdoverLimit →
    exec i s = .next t → s.blk.sid.sc.toNat ≤ t.blk.sid.sc.toNat

/-! ### Classes CTRL and SYNC (R35, R50, R51, R414, R420, R450) -/

/-- NOP, STATUS, ALMANAC_READ, LOG_READ, OPEN, JOB_RESET and FENCE_ALL, once dispatched (R35, R50, R51, R420, R450). -/
def Obligations.CtrlCommandsComplete : Prop :=
  ∀ (s : State) (p : Packet) (c : Cmd) (b1 : Block), s.blk.packetEntry p = some (c, b1) →
    (p.opcode = 0x0000 → exec (.nop p) s = .next (s.after p (b1.done c 0))) ∧
    (p.opcode = 0x0001 → exec (.status p) s = .next (s.after p (b1.completeId c.id Status.ok b1.trust.job
      (fields [(32, b1.log.newest), (26, b1.shut.active), (25, b2n b1.shut.shut), (24, b2n (b1.trust.job ≠ 0)),
        (21, b1.pow.eff), (18, b1.sid.state.code), (15, b1.snap.st.code)])))) ∧
    (p.opcode = 0x0002 → almanacBar (c.pkt.f 127 76) = none →
      exec (.almanacRead p) s = .next (s.after p (b1.respond c (c.pkt.f 127 76) b1.almanac 0 b1.alm.generation))) ∧
    (p.opcode = 0x0003 → c.pkt.f 127 76 % 64 = 0 → 1 ≤ c.pkt.f 43 30 → c.pkt.f 43 30 ≤ 8192 →
      ∀ (e : LogEntry) (es : List LogEntry) (skipped : Nat),
        b1.log.from_ (c.pkt.f 75 44) (c.pkt.f 43 30) = (e :: es, skipped) →
        ∀ bs : List Byte,
          bs = ((e :: es).map (fun e => (if b1.trust.sealedReq && c.sealedOk.isNone then e.masked else e).bytes)).flatten →
          rspStatus (c.pkt.f 127 76) bs.length = none →
          exec (.logRead p) s = .next (s.after p
            (b1.respond c (c.pkt.f 127 76) bs skipped (fields [(32, (e :: es).length), (0, e.seq)])))) ∧
    (p.opcode = 0x0004 → b1.shut.shut = false → exec (.openShutter p) s = .next (s.after p (b1.done c 0))) ∧
    (p.opcode = 0x0004 → b1.shut.shut = true → b1.shut.active = 0 →
      exec (.openShutter p) s = .next (s.after p
        ((({ b1 with shut.shut := false, pins.fault := false } : Block).logState Status.ok 0).done c 0))) ∧
    (p.opcode = 0x0005 → exec (.jobReset p) s = .next (s.after p (b1.done c 0))) ∧
    (p.opcode = 0x0006 → exec (.fenceAll p) s = .next (s.after p
      (b1.setWork c.id (.list 9 ((b1.mer.running.filter (fun x => x.id ≠ c.id && !x.isRegen)).map (fun x => x.id)))).fenceRetry))

/-- JOB_BIND and JOB_RESET (R414, R420): what is bound, and what is cleared. -/
def Obligations.JobBoundAndReset : Prop :=
  ∀ (s : State) (p : Packet) (c : Cmd) (b1 : Block), s.blk.packetEntry p = some (c, b1) →
    (p.opcode = 0x0007 → b1.bindBar c.pkt = none → ∃ t, exec (.jobBind p) s = .next t ∧ t.pending = s.pending ∧
      t.blk.trust.job = c.pkt.f 31 0 ∧ t.blk.trust.sealedReq = bit c.pkt.pnum 32 ∧
      t.blk.trust.ownerDigest = c.pkt.f 511 128 ∧
      t.blk.trust.secretSet = decide (c.pkt.f 895 512 ≠ 0) ∧
      t.blk.trust.generation = (if c.pkt.f 895 512 = 0 then 0 else 1) ∧
      t.blk.trust.sessions = [] ∧ t.blk.trust.tierKey.isSome = true ∧
      t.blk.train = Train.zero ∧ t.blk.pool = none ∧ t.blk.mer.sync = [] ∧ t.blk.fab.trees = [] ∧ t.blk.fab.exports = [] ∧
      t.blk.csu = [] ∧ t.blk.tier.ctr = 1 ∧ t.blk.mem.ceCount = 0 ∧ t.blk.mem.ueCount = 0 ∧ t.blk.mem.scrubPasses = 0 ∧ t.blk.mem.passEpochs = 4096 ∧ t.blk.mem.patrolEn = true ∧
      t.blk.fw.slots = [] ∧ t.blk.fw.changes = 0 ∧ t.blk.boot = b1.boot ∧ t.blk.pow = b1.pow ∧ t.blk.sid.sc = b1.sid.sc) ∧
    (p.opcode = 0x0005 → ∃ t, exec (.jobReset p) s = .next t ∧ t.pending = s.pending ∧
      t.blk.trust.job = 0 ∧ t.blk.trust.sealedReq = false ∧ t.blk.trust.ownerDigest = 0 ∧ t.blk.trust.secretSet = false ∧
      t.blk.trust.tierKey = none ∧ t.blk.trust.sessions = [] ∧ t.blk.train = Train.zero ∧ t.blk.pool = none ∧
      t.blk.mer.sync = [] ∧ t.blk.fab.trees = [] ∧ t.blk.csu = [])

/-- SYNC_SET, SYNC_ADD, SYNC_WAIT and SYNC_READ, once dispatched (R51, R64, R65). -/
def Obligations.SyncCommandsComplete : Prop :=
  ∀ (s : State) (p : Packet) (c : Cmd) (b1 : Block), s.blk.packetEntry p = some (c, b1) →
    (p.opcode = 0x0100 → exec (.syncSet p) s = .next (s.after p
      ((b1.setWork c.id .syncOp).issueSync
        { ctr := c.pkt.f 95 83, req := 219, set := true, val := c.pkt.f 127 96, cmd := some c.id }))) ∧
    (p.opcode = 0x0101 → exec (.syncAdd p) s = .next (s.after p
      ((b1.setWork c.id .syncOp).issueSync
        { ctr := c.pkt.f 95 83, req := 219, set := false, val := c.pkt.f 127 96, cmd := some c.id }))) ∧
    (p.opcode = 0x0102 → c.pkt.f 82 80 < 4 → condHolds (c.pkt.f 82 80) (b1.syncVal (c.pkt.f 95 83)) (c.pkt.f 127 96) = true →
      exec (.syncWait p) s = .next (s.after p (b1.done c (b1.syncVal (c.pkt.f 95 83))))) ∧
    (p.opcode = 0x0102 → c.pkt.f 82 80 < 4 → condHolds (c.pkt.f 82 80) (b1.syncVal (c.pkt.f 95 83)) (c.pkt.f 127 96) = false →
      exec (.syncWait p) s = .next (s.after p
        (b1.setWork c.id (.syncWait (c.pkt.f 95 83) (c.pkt.f 82 80) (c.pkt.f 127 96))))) ∧
    (p.opcode = 0x0103 → exec (.syncRead p) s = .next (s.after p (b1.done c (b1.syncVal (c.pkt.f 95 83)))))

/-! ### Class PROG and FW_WRITE (R104 to R106, R154 to R164) -/

/-- PROG_LOAD, RUN, PREEMPT and FW_WRITE, once dispatched. -/
def Obligations.ProgramCommandsComplete : Prop :=
  ∀ (s : State) (p : Packet) (c : Cmd) (b1 : Block), s.blk.packetEntry p = some (c, b1) →
    (p.opcode = 0x0200 →
      let da := c.pkt.f 51 0
      let h := c.pkt.f 67 64
      ∀ (hb body : List Byte) (b2 b3 : Block), h < 8 → da % 64 = 0 → hbmStatus da 128 = none →
        b1.daRead da 128 = (.ok hb false, b2) →
        let n := 32 * bits (leNat hb) 95 64 + 64 * bits (leNat hb) 271 256
        bits (leNat hb) 31 0 = 0x4D495054 → bits (leNat hb) 47 32 = 1 → bits (leNat hb) 63 48 = 128 →
        inHbm da (128 + n) = true → b2.daRead (da + 128) n = (.ok body false, b3) → imageFault h (leNat hb) body = none →
        (maskList 144 (c.pkt.f 255 112)).all (fun t => !b3.handlesUsed t (handlesOf h (bits (leNat hb) 95 64))) = true →
        let m : Image := {
          handle := h, header := leNat hb,
          bundles := (List.range (bits (leNat hb) 95 64)).map (fun i => leNat ((body.drop (32 * i)).take 32)),
          consts := body.drop (32 * bits (leNat hb) 95 64) }
        exec (.progLoad p) s = .next (s.after p
          (((maskList 144 (c.pkt.f 255 112)).foldl (fun (b : Block) t => b.setTile t { b.tile t with
            images := (b.tile t).images.filter
              (fun y => !y.handles.any (handlesOf h (bits (leNat hb) 95 64)).contains) ++ [m] }) b3).done c m.crc))) ∧
    (p.opcode = 0x0201 →
      let ts := maskList 144 (c.pkt.f 255 112)
      ts ≠ [] → c.pkt.f 111 108 < 8 → c.pkt.f 51 0 % 0x10000 = 0 →
      (c.pkt.f 51 0 ≠ 0 → hbmStatus (c.pkt.f 51 0) (0xC40000 * ts.length) = none) → b1.runFault c.pkt = none →
      (maskList 32 (b1.runFormats c.pkt)).all (fun n => (b1.fmt n).kind ≠ 0) = true →
      ts.all (fun t => (b1.tile t).st ≠ 2) = true →
      (bit c.pkt.pnum 106 = true → (b1.train.binds.get none (c.pkt.f 105 98)).isSome = true) →
      exec (.run p) s = .next (s.after p (b1.setCmd { c with
        fmts := b1.runFormats c.pkt,
        work := .run {
          tiles := ts, handle := c.pkt.f 111 108, level := 0, resume := bit c.pkt.pnum 107, ovfEn := bit c.pkt.pnum 106,
          ovfCensus := c.pkt.f 105 98, waitLimit := c.pkt.f 95 64, saveDa := c.pkt.f 51 0,
          args := (List.range 16).map (fun i => c.pkt.f (32 * i + 287) (32 * i + 256)), started := false, finished := [],
          maxCycles := 0, frozen := 0, preempt := [], saved := [], regen := none } }))) ∧
    (p.opcode = 0x0202 →
      let ts := maskList 144 (c.pkt.f 255 112)
      let runs := b1.mer.running.filter (fun x =>
        x.runWork.any (fun w => w.started && w.regen.isNone && w.tiles.any ts.contains))
      (runs = [] → exec (.preempt p) s = .next (s.after p (b1.done c 0))) ∧
      (∀ (x : Cmd) (w : RunWork), runs = [x] → x.runWork = some w → w.saveDa ≠ 0 →
        exec (.preempt p) s = .next (s.after p
          ((w.tiles.foldl (fun (b : Block) t => b.setTile t { b.tile t with stopping := true })
            (b1.setWork x.id (.run { w with preempt := c.id :: w.preempt }))).setWork c.id (.preempt [x.id] 0))))) ∧
    (p.opcode = 0x0700 →
      let slots := maskList 32 (c.pkt.f 31 0)
      let ent (i : Nat) : Nat := c.pkt.f (64 * i + 127) (64 * i + 64)
      let new := slots.zipIdx.foldl (fun m x => m.set 0 x.1 (ent x.2)) b1.fw.slots
      maskList 10 (c.pkt.f 31 0) = [] → slots.zipIdx.all (fun x => fwEntryOk (ent x.2)) = true →
      slots.all (fun n => !bit b1.fmtsBusy n) = true →
      (new = b1.fw.slots → exec (.fwWrite p) s = .next (s.after p (b1.done c (fields [(48, b1.fwRev), (0, b1.fwCrc)])))) ∧
      (new ≠ b1.fw.slots → ∀ b2 : Block,
        b2 = ({ b1 with fw := { slots := new, changes := (b1.fw.changes + 1) % 4096 } } : Block).almanacChange
          Status.ok 0 c.index 0 0 →
        exec (.fwWrite p) s = .next (s.after p (b2.done c (fields [(48, b2.fwRev), (0, b2.fwCrc)])))))

/-- RUN_START, TILE_FINISH, PREEMPT_BOUNDARY, PREEMPT_SAVE_DONE and WAIT_TIMEOUT (R133, R152, R157, R158, R162). -/
def Obligations.RunLifeCycle : Prop :=
  ∀ (s : State) (t : Nat) (c : Cmd) (w : RunWork),
    (∀ b0 : Block, b0 = s.blk.takeTiles →
      ((b0.mer.running.find? b0.regenReady = none ∨ b0.pool = none) →
        b0.mer.running.find? (fun x => x.runWork.any (fun v => !v.started && b0.tilesReady x)) = some c → c.work = .run w →
        ∀ v : RunWork, v = { w with started := true } →
        ∀ b : Block, b = (if w.resume then (b0.setWork c.id (.run v)).resumeTiles c.id v
            else (b0.setWork c.id (.run v)).startTiles c.id w.handle v) →
          exec .runStart s = .next (s.put (b.setWork c.id (.run { v with level := b.runLevel v })))) ∧
      (∀ (a a' : Cmd) (pl : Pool) (v v' : AttnWork) (b2 : Block), b0.mer.running.find? b0.regenReady = some a → b0.pool = some pl →
        a.work = .attn v → b0.attnAppend a v (Attn.at a.pkt v) = (b2, v') → b2.cmd a.id = some a' →
        exec .runStart s = .next (s.put (b2.regenStart a' v' pl)))) ∧
    ((s.blk.tile t).run = some c.id → s.blk.cmd c.id = some c → c.work = .run w → (s.blk.tile t).ended = true →
      (s.blk.tile t).stopped = false → w.finished.contains t = false → s.blk.quiet t = true → w.ovfEn = false →
      ∀ v : RunWork, v = { w with
        finished := t :: w.finished, maxCycles := Nat.max w.maxCycles ((s.blk.tile t).issueCyc.getD (s.blk.tile t).cyc),
        frozen := w.frozen + (s.blk.tile t).frozenTotal } →
      (v.finished.length < w.tiles.length →
        exec (.tileFinish t) s = .next (s.put ((s.blk.finishOps t).setWork c.id (.run v)))) ∧
      (w.tiles.length ≤ v.finished.length →
        exec (.tileFinish t) s = .next (s.put
          (((s.blk.finishOps t).setWork c.id (.run v)).endRun c.id Status.ok w.level
            (fields [(32, Nat.min v.maxCycles (2 ^ 32 - 1)), (0, Nat.min v.frozen (2 ^ 32 - 1))]))))) ∧
    ((s.blk.tile t).run.isSome = true → (s.blk.tile t).stopping = true → (s.blk.tile t).stopped = false →
      (s.blk.tile t).atBoundary = true →
      exec (.preemptBoundary t) s = .next (s.withTile t { s.blk.tile t with
        stopped := true, issueCyc := (s.blk.tile t).issueCyc.or (some (s.blk.tile t).cyc) })) ∧
    ((s.blk.tile t).run = some c.id → s.blk.cmd c.id = some c → c.work = .run w → (s.blk.tile t).stopped = true →
      w.saved.contains t = false → s.blk.quiet t = true →
      let da := saveArea w.saveDa (w.tiles.idxOf t)
      s.blk.writeWaits da 0xC40000 = false →
      ∀ (ts : List Byte) (b b' : Block), (s.blk.finishOps t).tsRead t 0 tileBytes = (some ts, b) →
        b.daWrite da (b.saveBlock t ++ ts) = (b', none) →
        (w.tiles.all (t :: w.saved).contains = false →
          exec (.preemptSaveDone t) s = .next (s.put (b'.setWork c.id (.run { w with saved := t :: w.saved })))) ∧
        (w.tiles.all (t :: w.saved).contains = true → ∃ d,
          exec (.preemptSaveDone t) s = .next (s.put
            ((b'.setWork c.id (.run { w with saved := t :: w.saved })).endRun c.id Status.preempted d 0)))) ∧
    ((s.blk.tile t).run = some c.id → s.blk.cmd c.id = some c → c.work = .run w → w.waitLimit ≠ 0 →
      ∀ since : Nat, (s.blk.tile t).waitSince = some since → since + w.waitLimit ≤ s.blk.sid.sc.toNat →
        exec (.waitTimeout t) s = .next (s.put (s.blk.progFault t 0x09 0 none)))

/-! ### Convolution, attention and the KV page store (spec/08, spec/09) -/

/-- CONV3D, CONV3D_T, ATTN_FWD, ATTN_BWD, CONV_FINISH and ATTN_FINISH (R188, R212, R213, R215, R232, R233). -/
def Obligations.SequencerCommandsComplete : Prop :=
  (∀ (s : State) (p : Packet) (c : Cmd) (b1 : Block), s.blk.packetEntry p = some (c, b1) →
    let d := Conv.of c.pkt
    let taken := (b1.setCmd { c with
      fmts := 2 ^ d.inSlot ||| 2 ^ d.wSlot ||| 2 ^ d.outSlot, work := .conv d.tiles false }).takeTiles
    (p.opcode = 0x0300 → b1.convFault d = none → exec (.conv3d p) s = .next (s.after p taken)) ∧
    (p.opcode = 0x0301 → b1.convFault d = none → exec (.conv3dT p) s = .next (s.after p taken)) ∧
    ∀ a : Attn, (a = (if (Attn.of c.pkt).kvMode then
        { Attn.of c.pkt with keys := (match b1.pool with
          | some pl => (b1.seqE pl (Attn.of c.pkt).seq).length + (if (Attn.of c.pkt).append then (Attn.of c.pkt).lq else 0)
          | none => 0) } else Attn.of c.pkt)) → b1.attnFault a = none →
      let held := (b1.setCmd { c with
        fmts := [a.qSlot, a.kSlot, a.vSlot, a.pSlot, a.outSlot, 1].foldl (fun m q => m ||| 2 ^ q) 0,
        work := .attn (AttnWork.fresh0 a.tiles) }).takeTiles
      (p.opcode = 0x0400 → exec (.attnFwd p) s = .next (s.after p held)) ∧
      (p.opcode = 0x0401 → exec (.attnBwd p) s = .next (s.after p held))) ∧
  (∀ (s : State) (b : Block) (c : Cmd) (id cycles : Nat), b = s.blk.takeTiles → b.cmd id = some c →
    (∀ ts : List Nat, c.work = .conv ts true →
      let d := Conv.of c.pkt
      ts.all (fun t => (b.tile t).rerun.isEmpty && !(b.tile t).switching) = true →
      (d.blocks.flatMap (fun pb => (b.convBlock d pb).writes)).all (fun w => !b.writeWaits w.1 w.2.length) = true →
      b.writeWaits d.censusDa 64 = false →
      ts.zipIdx.all (fun x => (b.convBad d (shareOf d.blocks x.2 ts.length)).isNone) = true →
      exec (.convFinish id cycles) s = .next (s.put (b.convCompute c ts d cycles))) ∧
    (∀ w : AttnWork, c.work = .attn w → (Attn.of c.pkt).kvMode = false → w.failed = none → w.started = true →
      w.regen = none → w.toRegen = [] →
      w.tiles.all (fun t => (b.tile t).rerun.isEmpty && !(b.tile t).switching) = true →
      (b.attnWrites (Attn.of c.pkt)).all (fun x => !b.writeWaits x.1 x.2.length) = true →
      exec (.attnFinish id cycles) s = .next (s.put (b.attnCompute c w (Attn.of c.pkt) cycles))))

/-- KV_ALLOC by ACTION, KV_SHARE, KV_FREE and KV_REGEN_SET, on a sequence that nothing holds (R234 to R241, R246).
KV_ADMISSION and KV_COPY_DONE (R242, R245). -/
def Obligations.KvPageStore : Prop :=
  (∀ (s : State) (p : Packet) (c : Cmd) (b1 : Block), s.blk.packetEntry p = some (c, b1) →
    (p.opcode = 0x0402 → c.pkt.f 511 508 = 0 → b1.pool = none →
      ∀ pl : Pool, pl = {
        pageDa := c.pkt.f 491 440, entryDa := c.pkt.f 439 388, seqDa := c.pkt.f 387 336, pages := c.pkt.f 335 312,
        maxSeqs := c.pkt.f 311 288, kSlot := c.pkt.f 287 283, vSlot := c.pkt.f 282 278, kvHeads := c.pkt.f 277 262,
        headDim := c.pkt.f 261 254, free := List.range (c.pkt.f 335 312) } →
      0 < pl.pages → 0 < pl.maxSeqs → pl.maxSeqs ≤ 65536 → kvSlotOk b1 pl.kSlot = true → kvSlotOk b1 pl.vSlot = true →
      0 < pl.kvHeads → pl.headDim = 64 ∨ pl.headDim = 128 → hbmStatus pl.pageDa (pl.pages * b1.pageBytes pl) = none →
      hbmStatus pl.entryDa (32 * pl.pages) = none → hbmStatus pl.seqDa (32 * pl.maxSeqs) = none →
      let last := (b1.free 24).1
      let pages := (List.range pl.pages).foldl (fun (b : Block) i => b.setPageE pl i {
        lastUse := 0, gen := 0, ref := 0, pin := 0, next := if i + 1 < pl.pages then i + 1 else last, st := 0,
        droppable := false, filling := false, writer := 0 }) (b1.free 24).2
      let seqs := (List.range pl.maxSeqs).foldl (fun (b : Block) i => b.setSeqE pl i {
        ptDa := 0, ptCap := 0, length := 0, handle := 15, arg := 0, isOpen := false, drop := false, busy := false }) pages
      exec (.poolInit p) s = .next (s.after p ((seqs.setPool pl).done c pl.pages))) ∧
    (∀ (pl : Pool) (q : Nat), b1.pool = some pl → c.kvTable = some q → q < pl.maxSeqs → b1.kvBlocked pl c = false →
      b1.kvBad pl q (ceilDiv (b1.seqE pl q).length 64) = false →
      let e := b1.seqE pl q
      (p.opcode = 0x0402 → c.pkt.f 511 508 = 1 → e.isOpen = false → c.pkt.f 491 440 % 64 = 0 →
        hbmStatus (c.pkt.f 491 440) (8 * c.pkt.f 335 312) = none →
        ∀ n : SeqE, n = { ptDa := c.pkt.f 491 440, ptCap := c.pkt.f 335 312, length := 0, handle := 15, arg := 0, isOpen := true,
                          drop := bit c.pkt.pnum 253, busy := false } →
        exec (.seqOpen p) s = .next (s.after p (((((List.range n.ptCap).foldl (fun (b : Block) i =>
          b.setPtE n i { phys := 0, gen := 0, valid := false }) b1).setSeqE pl q n)).kvDone c))) ∧
      (p.opcode = 0x0402 → c.pkt.f 511 508 = 2 → e.isOpen = true →
        let first := c.pkt.f 335 312
        let count := c.pkt.f 311 288
        exec (.setDrop p) s = .next (s.after p (((List.range (ceilDiv e.length 64)).foldl (fun (b : Block) i =>
          let y := b.ptE e i
          if decide (64 * i < first + count) && decide (first < Nat.min (64 * i + 64) e.length) && decide (count ≠ 0) &&
              b.current pl y then b.setPageE pl y.phys { b.pageE pl y.phys with droppable := bit c.pkt.pnum 253 }
          else b) b1).kvDone c))) ∧
      (p.opcode = 0x0403 →
        let src := c.pkt.f 255 240
        let n := c.pkt.f 223 200
        let es := (List.range (ceilDiv n 64)).map (fun i => b1.ptE (b1.seqE pl src) i)
        src < pl.maxSeqs → b1.kvBad pl src (ceilDiv n 64) = false → e.isOpen = true → e.length = 0 →
        (b1.seqE pl src).isOpen = true → 0 < n → n ≤ (b1.seqE pl src).length → ceilDiv n 64 ≤ e.ptCap →
        (b1.isBlockSlot pl.vSlot = true → n % 32 = 0) →
        es.all (fun y => !b1.current pl y || decide ((b1.pageE pl y.phys).ref < 65535)) = true →
        exec (.kvShare p) s = .next (s.after p (((es.zipIdx.foldl (fun (b : Block) x =>
          (if b.current pl x.1 then b.setPageE pl x.1.phys { b.pageE pl x.1.phys with ref := (b.pageE pl x.1.phys).ref + 1 }
            else b).setPtE e x.2 x.1) b1).setSeqE pl q { e with length := n }).kvDone c))) ∧
      (p.opcode = 0x0404 → e.isOpen = true →
        let f := c.pkt.f 239 216
        let close := bit c.pkt.pnum 215
        (close = true → f = 0) →
        exec (.kvFree p) s = .next (s.after p ((((List.range e.ptCap).foldl (fun (b : Block) i =>
          if 64 * i < f then b else
          let y := b.ptE e i
          if !y.valid then b else
          let b' := b.setPtE e i { y with valid := false }
          if b.current pl y then b'.unref y.phys else b') b1).setSeqE pl q
            { e with length := Nat.min e.length f, isOpen := !close }).kvDone c)))) ∧
    (∀ (pl : Pool), p.opcode = 0x0405 → b1.pool = some pl → c.pkt.f 255 240 < pl.maxSeqs →
      c.pkt.f 239 236 < 8 ∨ c.pkt.f 239 236 = 15 → (b1.badWord (pl.seqDa + 32 * c.pkt.f 255 240) 32).isSome = false →
      (b1.seqE pl (c.pkt.f 255 240)).isOpen = true →
      exec (.kvRegenSet p) s = .next (s.after p ((b1.setSeqE pl (c.pkt.f 255 240) { b1.seqE pl (c.pkt.f 255 240) with
        handle := c.pkt.f 239 236, arg := c.pkt.f 235 204 }).done c 0)))) ∧
  (∀ (s : State) (id : Nat) (c : Cmd) (pl : Pool) (w : AttnWork),
    s.blk.cmd id = some c → s.blk.pool = some pl → c.work = .attn w →
    (w.admitted = false → bit c.pkt.pnum 204 = true → s.blk.kvBlocked pl c = false →
      let e := s.blk.seqE pl c.kvSeq
      let r := ceilDiv e.length 64
      let es := (List.range r).map (fun i => s.blk.ptE e i)
      let len := if c.kvAppend then e.length + c.pkt.f 327 304 else e.length
      let fresh := ceilDiv len 64 - r
      e.isOpen = true → ceilDiv len 64 ≤ e.ptCap → (c.kvAppend = true → s.blk.isBlockSlot pl.vSlot = true → e.length % 32 = 0) →
      s.blk.kvBad pl c.kvSeq r = false →
      es.all (fun y => s.blk.current pl y && !(s.blk.pageE pl y.phys).filling) = true →
      (c.kvAppend = true → e.length % 64 ≠ 0 →
        (s.blk.pageE pl (s.blk.ptE e (r - 1)).phys).ref ≤ 1 ∧ (s.blk.pageE pl (s.blk.ptE e (r - 1)).phys).pin = 0) →
      let pinned := es.map (·.phys)
      (fresh ≤ pl.free.length + (s.blk.candidates pl pinned).length →
        let b1 := es.foldl (fun (b : Block) y => b.onPageE pl y.phys (fun x => { x with pin := x.pin + 1 })) s.blk
        let t := b1.takePages pl c.kvSeq e.drop pinned fresh
        let b2 := ((List.range fresh).map (· + r)).zipIdx.foldl (fun (b : Block) x => b.setPtE e x.1
          { phys := t.1.getD x.2 0, gen := (b.pageE pl (t.1.getD x.2 0)).gen, valid := true }) t.2
        let b3 := b2.setSeqE pl c.kvSeq { e with length := len, busy := e.busy || c.kvAppend }
        exec (.kvAdmission id) s = .next (s.put (Block.kvRetry (b3.setWork c.id (.attn { w with
          admitted := true, pins := (List.range (ceilDiv len 64)).map (fun i => (b3.ptE e i).phys), cow := none, toRegen := [],
          fresh := t.1, lenBefore := e.length, lenAfter := len }))))) ∧
      (pl.free.length + (s.blk.candidates pl pinned).length < fresh →
        exec (.kvAdmission id) s = .next (s.put (Block.kvRetry (s.blk.attnEnd c w Status.kvNoPages 0 0))))) ∧
    (∀ old new : Nat, w.cow = some (old, new) →
      let n := s.blk.pageBytes pl
      s.blk.writeWaits (pl.pageDa + new * n) n = false →
      ∀ (bs : List Byte) (b b' : Block), s.blk.daRead (pl.pageDa + old * n) n = (.ok bs false, b) →
        b.daWrite (pl.pageDa + new * n) bs = (b', none) →
        exec (.kvCopyDone id) s = .next (s.put ((b'.setWork id (.attn { w with cow := none })).unpin old))))

/-! ### Stacked memory and the codec (spec/10, spec/11) -/

/-- MEM_FILL, SCRUB_CFG and DOMAIN_SET, once dispatched (R255, R266, R267). -/
def Obligations.MemCommandsComplete : Prop :=
  ∀ (s : State) (p : Packet) (c : Cmd) (b1 : Block), s.blk.packetEntry p = some (c, b1) →
    (p.opcode = 0x0F00 →
      let da := c.pkt.f 255 204
      let n := c.pkt.f 203 152
      ∀ b2 : Block, da % 64 = 0 → 0 < n → n % 64 = 0 → inHbm da n = true →
        (pagesOf da n).all (fun g => decide (attrClass (b1.attr g) ≤ 1 ∨ 4 < attrClass (b1.attr g)) && !attrWp (b1.attr g) &&
          !attrCodec (b1.attr g)) = true →
        b1.daWrite da ((List.replicate (n / 8) (leBytes 8 (c.pkt.f 151 88))).flatten) = (b2, none) →
        exec (.memFill p) s = .next (s.after p (b2.done c n))) ∧
    (p.opcode = 0x0F01 → 256 ≤ c.pkt.f 127 112 →
      exec (.scrubCfg p) s = .next (s.after p
        (({ b1 with mem.passEpochs := c.pkt.f 127 112, mem.patrolEn := bit c.pkt.pnum 111 } : Block).done c 0))) ∧
    (p.opcode = 0x0F02 → b1.domainFault c = none →
      let g0 := c.pkt.f 255 204 / 0x10000
      let n := c.pkt.f 203 172
      let dom := c.pkt.f 171 168
      let cls := c.pkt.f 167 165
      let pages := (List.range n).map (· + g0)
      (c.pkt.f 164 164 = 0 → exec (.domainSetDiscard p) s = .next (s.after p
        ((pages.foldl (fun (b : Block) g => b.zeroPage g (mkAttr dom cls true false false)) b1).done c 0))) ∧
      (c.pkt.f 164 164 = 1 →
        ∀ w : Walk, w = {
          domain := dom, cmd := c.id, touches := (dom :: pages.map (fun g => attrDomain (b1.attr g))).eraseDups, pos := g0,
          last := g0 + n, gran := 0, move := some (dom, cls), old := none } →
        exec (.domainSetMove p) s = .next (s.after p { b1 with mem.walks := b1.mem.walks ++ [w] })))

/-- The events of stacked memory (R255, R258, R262 to R264, R267, R269). -/
def Obligations.MemEvents : Prop :=
  ∀ (s : State),
    (∀ (q loc da : Nat) (upsets : List (Nat × Nat)) (retryOk perm : Bool),
      s.blk.stacksUp = true → s.blk.pow.sleep ≠ .asleep 2 → s.blk.mem.patrolEn = true ∨ s.blk.shut.shut = true →
      q < 768 → loc < 1233824 → (s.blk.pc q).st = .active → s.blk.daAt q loc = some da →
      attrZeroed (s.blk.attr (pageOf da)) = false →
      ∀ b : Block, b = (Block.sweep da retryOk perm { s.blk with
        mem.errs := upsets.foldl (fun (m : Sparse Nat) (u : Nat × Nat) =>
          m.upd 0 (da / 16 + u.1 % 128) (fun e => e ^^^ (u.2 % 2 ^ 144))) s.blk.mem.errs }).1 →
      let live := 768 - (b.mem.pcs.filter (fun (e : Nat × Pc) => e.2.st ≠ .active && e.2.st ≠ .degraded)).length
      exec (.patrolScrub q loc upsets retryOk perm) s = .next (s.put (if live * 1233824 ≤ b.mem.patrolled + 1
        then { b with mem.patrolled := 0, mem.scrubPasses := (b.mem.scrubPasses + 1) % 2 ^ 32 }
        else { b with mem.patrolled := b.mem.patrolled + 1 }))) ∧
    (∀ q da : Nat, s.blk.migrating = some q → s.blk.shut.shut = false → s.blk.mem.migNext < 1233760 →
      s.blk.mem.migrated.contains s.blk.mem.migNext = false → s.blk.daAt q s.blk.mem.migNext = some da →
      attrZeroed (s.blk.attr (pageOf da)) = false →
      exec .migrationCopy s = .next (s.put { (s.blk.sweep da false false).1 with
        mem.migNext := s.blk.mem.migNext + 1, mem.migPoison := s.blk.mem.migPoison ++ (s.blk.sweep da false false).2 })) ∧
    (∀ q : Nat, s.blk.migrating = some q → s.blk.shut.shut = false → 1233760 ≤ s.blk.mem.migNext → s.blk.mem.migQueue = [] →
      s.blk.mem.migPoison = [] →
      let b := (s.blk.setPc q { s.blk.pc q with st := .retired }).almanacChange Status.pcRetired 2 q 0 0
      exec .migrationDone s = .next (s.put { b with
        mer.running := b.mer.running.map (fun (c : Cmd) => { c with acq := c.acq ++ [Status.pcRetired + loggedMark] }),
        mem.migNext := 0, mem.migrated := [], mem.migPoison := [] })) ∧
    (∀ (d g : Nat) (w v : Walk), s.blk.activeWalk d = some w → s.blk.shut.shut = false → s.blk.walkPage w = some g →
      v = (if g = w.pos then w else { w with pos := g, gran := 0 }) →
      ∀ b : Block, b = (if attrZeroed (s.blk.attr g) then s.blk
        else (s.blk.sweep (g * 0x10000 + 2048 * v.gran) false false).1) →
      (v.gran < 31 → exec (.walkerGranule d) s = .next (s.put (b.setWalk { v with gran := v.gran + 1 }))) ∧
      (31 ≤ v.gran → ∀ dom cls : Nat, v.move = some (dom, cls) →
        let b' := b.setWalk { v with pos := g + 1, gran := 0 }
        exec (.walkerGranule d) s = .next (s.put (b'.setAttr g (mkAttr dom cls (attrZeroed (b'.attr g)) (attrWp (b'.attr g))
          (attrCodec (b'.attr g))))))) ∧
    (∀ (d : Nat) (w : Walk), s.blk.activeWalk d = some w → s.blk.shut.shut = false → s.blk.walkPage w = none →
      exec (.walkDone d) s = .next (s.put (Block.completeId w.cmd Status.ok 0 0
        { s.blk with mem.walks := s.blk.mem.walks.filter (fun v => v.cmd ≠ w.cmd) }))) ∧
    (∀ h temp : Nat, h < 24 → s.blk.stacksUp = true →
      exec (.memTempSample h temp) s = .next (s.put { s.blk with
        mem.temps := s.blk.mem.temps.set (0, 0, 0) h
          (Nat.min temp 255, 1, zoneOf (s.blk.mem.temps.get (0, 0, 0) h).2.2 (Nat.min temp 255)) }))

/-- CODEC_TABLE, CODEC_MAP by ACTION and CODEC_FLUSH, with no page held back (R273 to R276, R290, R292). -/
def Obligations.CodecCommandsComplete : Prop :=
  ∀ (s : State) (p : Packet) (c : Cmd) (b1 : Block), s.blk.packetEntry p = some (c, b1) →
    (p.opcode = 0x0500 →
      let slots := maskList 16 (c.pkt.f 15 0)
      let tab (i : Nat) : Nat := c.pkt.f (64 + 1152 * i + 1151) (64 + 1152 * i)
      slots.zipIdx.all (fun x => tableOk (tab x.2)) = true →
      exec (.codecTable p) s = .next (s.after p (({ b1 with
        codec.tables := slots.zipIdx.foldl (fun (m : Sparse (List Nat)) (x : Nat × Nat) => m.set [] x.1 (tableLens (tab x.2)))
          b1.codec.tables } : Block).done c 0))) ∧
    (p.opcode = 0x0501 → c.pkt.f 511 508 = 0 → b1.createFault (mapOfPacket c.pkt []) = none →
      let m0 := mapOfPacket c.pkt []
      let m := { m0 with tables := (maskList 16 m0.tableMask).map (fun t => (t, b1.codec.tables.get [] t)) }
      ∀ b2 b3 : Block, b1.daWrite m.entryDa (zeros (1024 * m.count)) = (b2, none) →
        b3 = (pagesOf m.da (0x10000 * m.count)).foldl (fun (b : Block) g => b.setAttr g (b.attr g ||| 0x40)) b2 →
        exec (.codecMapCreate p) s = .next (s.after p
          (({ b3 with codec.maps := b3.codec.maps ++ [m] } : Block).done c (128 * m.count)))) ∧
    (∀ m : CMap, p.opcode = 0x0501 → b1.mapNum (c.pkt.f 507 502) = some m →
      (c.pkt.f 511 508 = 1 → (pagesOf m.da (0x10000 * m.count)).all (fun g => !attrWp (b1.attr g)) = true →
        exec (.codecMapDestroy p) s = .next (s.after p ((b1.mapDrop m).done c 0))) ∧
      (c.pkt.f 511 508 = 2 →
        let da := c.pkt.f 501 450
        let n := c.pkt.f 449 418
        da % 4096 = 0 → 0 < n → m.da ≤ da → da + 4096 * n ≤ m.da + 0x10000 * m.count →
        b1.rangeClosable m ((da - m.da) / 4096) n = true →
        ∀ b2 : Block, b1.discardRange m ((da - m.da) / 4096) n = (b2, none) →
          exec (.codecMapDiscard p) s = .next (s.after p (b2.done c 0)))) ∧
    (∀ m : CMap, p.opcode = 0x0502 → b1.mapNum (c.pkt.f 127 122) = some m →
      let first := if bit c.pkt.pnum 121 then 0 else c.pkt.f 120 89
      let n := if bit c.pkt.pnum 121 then m.pages else c.pkt.f 88 57
      first + n ≤ m.pages →
      let opened := ((List.range n).map (· + first)).filter (fun v => (b1.openSlot m v).isSome)
      (opened = [] → exec (.codecFlush p) s = .next (s.after p (b1.done c
        (fields [(32, (b1.usedSectors m).length % 2 ^ 32),
          (0, ((List.range m.pages).filter (fun v => (b1.entry m v).kind ≠ 0)).length % 2 ^ 32)])))) ∧
      (opened ≠ [] → exec (.codecFlush p) s = .next (s.after p (b1.flushGo c m opened))))

/-! ### The tier mover (spec/12) -/

/-- DMA_COPY, OFFLOAD and PREFETCH, once dispatched (R296 to R298, R302). -/
def Obligations.TierCommandsStart : Prop :=
  ∀ (s : State) (p : Packet) (c : Cmd) (b1 : Block), s.blk.packetEntry p = some (c, b1) → b1.tierFault c = none →
    ∀ w : TierWork, w = {
      channel := c.pkt.f 169 164, phase := .queued, ctr := if c.envOut then b1.tier.ctr else 0, moved := 0, total := none,
      late := false, buf := [], waiting := 0, flushAsked := false, flushed := false } →
    let b2 : Block := if c.envOut then { b1 with tier.ctr := b1.tier.ctr + 1 } else b1
    let b3 := ((b2.setWork c.id (.tier w)).tallyStart 0 w.channel c.id).tallyStart 1 w.channel c.id
    (p.opcode = 0x0600 → exec (.dmaCopy p) s = .next (s.after p b3)) ∧
    (p.opcode = 0x0601 → exec (.offload p) s = .next (s.after p b3)) ∧
    (p.opcode = 0x0602 → exec (.prefetch p) s = .next (s.after p b3))

/-- TIER_HEAD, TIER_NOT_BEFORE, TIER_DEADLINE and TIER_COMMIT (R298 to R302, R305). -/
def Obligations.TierCourse : Prop :=
  ∀ (s : State) (ch : Nat) (c : Cmd) (w : TierWork), (s.blk.tierQueue ch).head? = some (c, w) →
    (w.phase = .queued → c.pkt.opcode ≠ 0x0601 →
      exec (.tierHead ch) s = .next (s.put (s.blk.setWork c.id (.tier { w with phase := .waiting })))) ∧
    (∀ m : CMap, w.phase = .queued → c.pkt.opcode = 0x0601 → s.blk.mapNum c.tMap = some m →
      (s.blk.tierOpen m c).all (fun v => s.blk.closable m v) = true →
      exec (.tierHead ch) s = .next (s.put (((s.blk.closePages m (s.blk.tierOpen m c)).2.foldl
        (fun (b : Block) st => b.acquire c.id st) (s.blk.closePages m (s.blk.tierOpen m c)).1).setWork c.id
          (.tier { w with phase := .waiting })))) ∧
    (w.phase = .waiting → c.pkt.opcode ≠ 0x0601 →
      c.pkt.f 367 304 = 0 ∨ s.blk.sid.state = .unset ∨ s.blk.sid.state = .lost ∨ c.pkt.f 367 304 ≤ s.blk.now →
      exec (.tierNotBefore ch) s = .next (s.put (s.blk.setWork c.id (.tier { w with
        phase := .moving
        total := if c.isPrefetch || c.envIn then none else some (c.tLen + (if c.envOut then 48 else 0)) })))) ∧
    (w.phase = .moving ∨ w.phase = .commit → w.late = false → c.pkt.f 303 240 ≠ 0 → s.blk.sid.state ≠ .unset →
      s.blk.sid.state ≠ .lost → c.pkt.f 303 240 < s.blk.now →
      exec (.tierDeadline ch) s = .next (s.put { s.blk.setWork c.id (.tier { w with late := true }) with
        tier.late := Nat.min (s.blk.tier.late + 1) (2 ^ 32 - 1) })) ∧
    (w.phase = .moving ∨ w.phase = .commit → Block.tierDone w = true →
      (c.pkt.opcode = 0x0600 → c.envIn = false →
        (c.inbound = true → exec (.tierCommit ch) s = .next (s.put (s.blk.tierEnd c.id Status.ok 0 0))) ∧
        (c.inbound = false → ∀ b : Block, b = (if c.envOut then s.blk.setLedgerOf c.tSet w.ctr else s.blk) →
          exec (.tierCommit ch) s = .next (s.put (((b.tallyData 0 w.channel c.id c.tSrc w.buf).tallyData 1 w.channel c.id
            (c.tDst + (if c.envOut then 32 else 0)) w.buf).tierEnd c.id Status.ok 0 0)))) ∧
      (c.pkt.opcode = 0x0601 → w.flushAsked = false →
        exec (.tierCommit ch) s = .next (s.put (s.blk.tierFlush c { w with phase := .commit }))) ∧
      (∀ m : CMap, c.pkt.opcode = 0x0601 → w.flushAsked = true → w.flushed = true → s.blk.mapNum c.tMap = some m →
        c.tRelease = false → ∀ b : Block, b = (if c.envOut then s.blk.setLedgerOf c.tSet w.ctr else s.blk) →
        exec (.tierCommit ch) s = .next (s.put (((b.tallyData 0 w.channel c.id (m.da + 4096 * c.tFirst) w.buf).tallyData 1
          w.channel c.id (c.tDst + (if c.envOut then 32 else 0)) w.buf).tierEnd c.id Status.ok 0
            (fields [(24, w.total.getD 0), (0, if c.envOut then w.ctr % 2 ^ 24 else 0)])))) ∧
      (∀ m : CMap, c.pkt.opcode = 0x0602 → s.blk.mapNum c.tMap = some m → s.blk.tierMayCommit c w (some m) = true →
        exec (.tierCommit ch) s = .next (s.put (s.blk.commitPrefetch c w m))))

/-! ### Training numerics and the optimizer (spec/13, spec/14) -/

/-- SCALE_SET by ACTION, with no page held back and no corrected word in the way (R310 to R317).
STEP_OPEN and STEP_CLOSE, with no page held back (R318, R320, R380). -/
def Obligations.TrainingCommands : Prop :=
  (∀ (s : State) (p : Packet) (c : Cmd) (b1 : Block), s.blk.packetEntry p = some (c, b1) → p.opcode = 0x0701 →
    let da := c.pkt.f 507 456
    let i := c.pkt.f 455 432
    let n := c.pkt.f 431 408
    (c.pkt.f 511 508 = 0 → b1.train.table = none → da % 128 = 0 → n ≠ 0 → n ≠ 0xFFFFFF →
      b1.pagesAll da (128 * (n + 1)) (fun a => attrClass a = 3) = true → b1.scaleBlocked c da (128 * (n + 1)) = false →
      ∀ b2 : Block, b2 = { b1 with train.table := some (da, n) } →
        exec (.scaleSetInit p) s = .next (s.after p (((List.range n).foldl
          (fun (b : Block) i => b.wr (scaleAddr da i) 128 scaleDefault) (b2.setStepRec stepDefault)).done c 0))) ∧
    (∀ (base m : Nat) (bs : List Byte) (b2 : Block), b1.train.table = some (base, m) →
      (c.pkt.f 511 508 = 1 → localStatus da 128 = none → b1.daRead da 128 = (.ok bs false, b2) →
        (i = 0xFFFFFF → m ≠ 0xFFFFFF → b2.stepIsOpen = false → stepImageOk (leNat bs) = true → b2.scaleBlocked c base 128 = false →
          exec (.scaleSetWrite p) s = .next (s.after p ((b2.setStepRec (leNat bs)).done c 0))) ∧
        (i < m → i ≠ 0xFFFFFF → b2.scaleImageOk (leNat bs) = true → b2.scaleBlocked c (scaleAddr base i) 128 = false →
          exec (.scaleSetWrite p) s = .next (s.after p ((b2.wr (scaleAddr base i) 128
            (if bits (leNat bs) 511 480 = 0 then leNat bs else b2.recode (leNat bs))).done c 0)))) ∧
      (c.pkt.f 511 508 = 2 → i < m → 0 < n → n ≤ 4096 → da % 64 = 0 → localStatus da (64 * n) = none →
        b1.scaleBlocked c (scaleAddr base i) 128 = false → b1.daRead da (64 * n) = (.ok bs false, b2) →
        ∀ (rb : List Byte) (b3 : Block), b2.daRead (scaleAddr base i) 128 = (.ok rb false, b3) →
          ∀ (r : Nat) (again : Bool) (b4 : Block),
            b3.foldRecord c base i (leNat rb) (combineCensus bs n) (c.pkt.f 385 384) 0 (bit (c.pkt.f 383 383) 0) false =
              (r, again, b4) →
            again = false → bit r 205 = false → bit r 203 = false → c.pkt.f 394 394 = 0 →
            exec (.fold p) s = .next (s.after p (b4.completeId c.id Status.ok (fields [(2, b2n (bit r 204))])
              (fields [(32, Nat.min (combineCensus bs n).sat (2 ^ 32 - 1)), (0, bits r 271 240)])))) ∧
      (c.pkt.f 511 508 = 3 → i = 0xFFFFFF → exec (.scaleSetBind p) s = .next (s.after p
        (({ b1 with train.binds := b1.train.binds.set none (c.pkt.f 393 386) none } : Block).done c 0))) ∧
      (c.pkt.f 511 508 = 3 → i < m → i ≠ 0xFFFFFF → exec (.scaleSetBind p) s = .next (s.after p
        (({ b1 with train.binds := b1.train.binds.set none (c.pkt.f 393 386) (some i) } : Block).done c 0))))) ∧
  (∀ (s : State) (p : Packet) (c : Cmd) (b1 : Block), s.blk.packetEntry p = some (c, b1) → p.opcode = 0x0701 →
    ∀ base n : Nat, b1.train.table = some (base, n) → b1.scaleBlocked c base 128 = false →
      (∀ (h : Nat) (l0 : Ledger) (ls : List (Nat × Ledger)), c.pkt.f 511 508 = 4 → b1.ledgerList = (h, l0) :: ls →
        b1.stepIsOpen = false → b1.train.invalid = [] → (∀ x ∈ ls, x.2.stepNext = l0.stepNext) →
        ∀ b2 : Block, b2 = { b1.onLedgers Ledger.openS with train := { (b1.onLedgers Ledger.openS).train with
            flagged := false, late := false, tested := false, before := b1.stepRec, updStep := l0.stepNext, updStarted := 0,
            updFinal := 0, finals := [] } } →
          exec (.stepOpen p) s = .next (s.after p ((b2.setStepRec
            (putBits (putBits (putBits (setBit (setBit b1.stepRec 428 true) 429 true) 431 430 0) 479 456 0xFFFFFF)
              639 576 b2.openStep)).done c 0))) ∧
      (c.pkt.f 511 508 = 5 → b1.stepIsOpen = true → bits b1.stepRec 431 430 ≠ 0 →
        exec (.stepClose p) s = .next (s.after p
          (((b1.setStepRec (stepClosed b1.stepRec)).onLedgers (fun l => { l with openStep := 0 })).done c
            (fields [(0, bits (stepClosed b1.stepRec) 455 448), (32, bits (stepClosed b1.stepRec) 575 544)])))))

/-- UPDATE, MOMENT_FORMAT, FREEZE_SET and UPDATE_BLOCK_PASS (R333, R335, R340, R343). -/
def Obligations.UpdateEngines : Prop :=
  (∀ (s : State) (p : Packet) (c : Cmd) (b1 : Block), s.blk.packetEntry p = some (c, b1) →
    let go := (b1.setWork c.id (.upd UpdWork.start)).updKick
    (p.opcode = 0x0800 →
      let n := c.pkt.f 314 303
      let table := c.pkt.f 434 383
      let status := c.pkt.f 382 331
      let descs := table + 64 * c.pkt.f 330 315
      0 < n → n ≤ 1024 → table % 64 = 0 → status % 16 = 0 → (∀ k, k < 8 → hyperOk (updSet c k) = true) →
      hbmStatus descs (64 * n) = none → hbmStatus status (16 * n) = none →
      b1.pagesAll descs (64 * n) (fun a => attrClass a = 3) = true → b1.train.table.isSome = true → b1.stepIsOpen = true →
      exec (.update p) s = .next (s.after p go)) ∧
    (∀ da : Nat, da = c.pkt.f 255 204 → hbmStatus da 64 = none → da % 64 = 0 →
      b1.pagesAll da 64 (fun a => attrClass a = 3) = true →
      (p.opcode = 0x0801 → c.pkt.f 203 152 % 64 = 0 → exec (.momentFormat p) s = .next (s.after p go)) ∧
      (p.opcode = 0x0802 → exec (.freezeSet p) s = .next (s.after p go)))) ∧
  (∀ (b b2 : Block) (q da : Nat) (c : Cmd) (w : UpdWork) (bs : List Byte), (b.updQueue q).head? = some (c, w) →
    w.phase = .lock → w.locks = [] → c.pkt.opcode = 0x0802 → da = c.pkt.f 255 204 → b.updLocked c da = false →
    b2 = b.setWork c.id (.upd { w with locks := [da] }) → (b2.cmd c.id).isSome = true → b2.badWord da 64 = none →
    b2.daRead da 64 = (.ok bs false, b2) → dCheckOk (leNat bs) = true →
    let d := b2.rd da 64
    let want := bit c.pkt.pnum 171
    let d1 := setBit d 146 want
    let d2 := if want then d1 else putBits d1 479 448 (c.pkt.f 203 172 + 2 ^ 32 - dApplied d)
    (want = dFreeze d → b.updStep q = b2.updEnd c Status.ok 0 (dApplied d)) ∧
    (want ≠ dFreeze d → b2.writeWaits da 64 = false → ∀ b3 : Block, b2.daWrite da (leBytes 64 (dSeal d2)) = (b3, none) →
      b.updStep q = b3.updEnd c Status.ok 0 (dApplied d))) ∧
  (∀ (s : State) (q : Nat) (c : Cmd) (w : UpdWork), s.blk.shut.shut = false → (s.blk.updKick.updQueue q).head? = some (c, w) →
    w.phase = .pass →
    (c.pkt.opcode = 0x0800 → exec (.updateBlockPass q) s = .next (s.put (s.blk.updKick.updPass c w).updKick)) ∧
    (c.pkt.opcode = 0x0801 →
      let b1 := s.blk.updKick
      let dda := c.pkt.f 255 204
      let d := b1.rd dda 64
      let to_ := c.pkt.f 203 152 + recSize (c.pkt.f 151 151) * w.next
      (w.next < dBlocks d → b1.writeWaits to_ (recSize (c.pkt.f 151 151)) = false →
        ∀ (bs : List Byte) (b2 b3 : Block) (r : List Byte × Nat), b1.badWord (dRec d + recSize (dMfmt d) * w.next) (recSize (dMfmt d)) = none →
          b1.daRead (dRec d + recSize (dMfmt d) * w.next) (recSize (dMfmt d)) = (.ok bs false, b2) →
          recOk (dMfmt d) (dTensor d) ((dFirst d + w.next) % 2 ^ 32) bs = true →
          r = formatRecord d (c.pkt.f 151 151) (bit c.pkt.pnum 150) ((dFirst d + w.next) % 2 ^ 32) bs →
          b2.daWrite to_ r.1 = (b3, none) →
          exec (.updateBlockPass q) s = .next (s.put ((b3.tallyData 5 c.updEngine c.id to_ r.1).setWork c.id
            (.upd { w with next := w.next + 1, sat := w.sat + r.2 })).updKick)) ∧
      (dBlocks d ≤ w.next → b1.writeWaits dda 64 = false → b1.fab.emul = [] → ∀ b2 : Block,
        b1.daWrite dda (leBytes 64 (dSeal (setBit (putBits (putBits d 415 364 (c.pkt.f 203 152)) 148 148 (c.pkt.f 151 151)) 147
          (bit c.pkt.pnum 150)))) = (b2, none) →
        exec (.updateBlockPass q) s = .next (s.put (b2.updEnd c Status.ok 0 w.sat).updKick))))

/-! ### Ranks, trees, windows and collectives (spec/15) -/

/-- TREE_SET by ACTION, EXPORT_SET, SEND and RECV, with no corrected word in the way (R364 to R366, R379, R418). -/
def Obligations.RankCommandsComplete : Prop :=
  ∀ (s : State) (p : Packet) (c : Cmd) (b1 : Block), s.blk.packetEntry p = some (c, b1) →
    (p.opcode = 0x0908 →
      (∀ ranks : List Nat, c.pkt.f 511 508 = 0 → c.pkt.f 379 377 < 7 →
        ranks = c.pkt.f 507 492 :: (List.range (c.pkt.f 379 377)).map (fun k => c.pkt.f (16 * k + 411) (16 * k + 396)) →
        ranks.Nodup → b1.fab.colls = [] → b1.fab.reqs = [] →
        (∀ x ∈ b1.mer.running, x.pkt.opcode ≠ 0x0905 ∧ x.pkt.opcode ≠ 0x0906) →
        ∀ ls : Sparse (Option Ledger), ls = ranks.zipIdx.foldl (fun (m : Sparse (Option Ledger)) (x : Nat × Nat) =>
            match b1.ledger x.2 with
            | some l => m.set none x.2 (some (if l.rank = x.1 then l else Ledger.fresh x.1))
            | none => m.set none x.2 (some (Ledger.fresh x.1))) [] →
        exec (.treeSetSelf p) s = .next (s.after p (({ b1 with
          fab.primary := some (c.pkt.f 507 492), fab.emul := ranks.tail,
          fab.exports := (if ranks ≠ b1.hosted then [] else b1.fab.exports), train.ledgers := ls } : Block).done c 0))) ∧
      (∀ (bs : List Byte) (b2 : Block) (ms : List Nat),
        let n := c.pkt.f 372 356
        let t := c.pkt.f 376 373
        c.pkt.f 511 508 = 1 → 0 < n → n ≤ 65536 → b1.treeBusy t = false → localStatus (c.pkt.f 355 304) (2 * n) = none →
        b1.daRead (c.pkt.f 355 304) (2 * n) = (.ok bs false, b2) →
        ms = (List.range n).map (fun i => leNat ((bs.drop (2 * i)).take 2)) → ms.Nodup → ms.any b2.hosts = true →
        n + ((b2.fab.trees.filter (fun x => x.num ≠ t)).map (fun x => x.members.length)).sum ≤ 262144 →
        exec (.treeSetDefine p) s = .next (s.after p (({ b2 with
          fab.trees := b2.fab.trees.filter (fun x => x.num ≠ t) ++ [{ num := t, members := ms, seq := 0 }] } : Block).done c 0))) ∧
      (∀ (bs : List Byte) (b2 : Block), c.pkt.f 511 508 = 2 → localStatus (c.pkt.f 355 304) 65536 = none →
        b1.daRead (c.pkt.f 355 304) 65536 = (.ok bs false, b2) →
        exec (.treeSetRoutes p) s = .next (s.after p (({ b2 with
          fab.routes := Sparse.setL 0xFF 0 (bs.map (fun (x : Byte) => x.toNat)) [] } : Block).done c 0))) ∧
      (c.pkt.f 511 508 = 3 → b1.treeBusy (c.pkt.f 376 373) = false → exec (.treeSetUndefine p) s = .next (s.after p
        (({ b1 with fab.trees := b1.fab.trees.filter (fun x => x.num ≠ c.pkt.f 376 373) } : Block).done c 0)))) ∧
    (p.opcode = 0x0909 → b1.hosts (c.pkt.f 255 240) = true →
      let rest := b1.fab.exports.filter (fun e => !(e.rank = c.pkt.f 255 240 && e.win = c.pkt.f 239 237))
      (c.pkt.f 236 236 = 0 → exec (.exportSet p) s = .next (s.after p (({ b1 with fab.exports := rest } : Block).done c 0))) ∧
      (c.pkt.f 236 236 = 1 → 0 < c.pkt.f 181 165 → c.pkt.f 181 165 ≤ 65536 → c.pkt.f 233 182 % 65536 = 0 →
        b1.pagesAll (c.pkt.f 233 182) (65536 * c.pkt.f 181 165) (fun a => attrClass a ≠ 4) = true →
        exec (.exportSet p) s = .next (s.after p (({ b1 with fab.exports := rest ++ [{
          rank := c.pkt.f 255 240, win := c.pkt.f 239 237, rd := decide (c.pkt.f 235 235 = 1),
          wr := decide (c.pkt.f 234 234 = 1), base := c.pkt.f 233 182, pages := c.pkt.f 181 165 }] } : Block).done c 0)))) ∧
    ((b1.trust.sealedReq = true → b1.trust.secretSet = true) →
      let da := c.pkt.f 495 444
      let len := c.pkt.f 408 377
      da % 64 = 0 → c.pkt.f 440 409 % 64 = 0 → 0 < len → len % 64 = 0 → len ≤ 0x400000 → c.pkt.f 363 362 ≠ 3 →
      localStatus da len = none → c.pkt.f 440 409 + len ≤ 2 ^ 32 →
      ∀ msg : Msg, msg = { Msg.zero with
        src := b1.primaryRank, dest := c.pkt.f 511 496, vl := 3, length := len, offset := c.pkt.f 440 409,
        exp := c.pkt.f 443 441, rctr := c.pkt.f 376 364, rop := c.pkt.f 363 362, rval := c.pkt.f 361 330 } →
      (∀ (bs : List Byte) (b2 : Block), p.opcode = 0x0905 →
        (b1.setWork c.id (.await 3 0 0 0)).daRead da len = (.ok bs false, b2) →
        exec (.send p) s = .next (s.after p ((b2.post { msg with kind := Kind.peerWrite, data := bs }
          (some (.cmd c.id 0 len))).setWork c.id (.await 3 1 1 0)))) ∧
      (p.opcode = 0x0906 → exec (.recv p) s = .next (s.after p (((b1.setWork c.id (.await 3 0 0 0)).post
        { msg with kind := Kind.readReq } (some (.cmd c.id 0 len))).setWork c.id (.await 3 1 1 0)))))

/-- ALL_REDUCE, REDUCE_SCATTER, ALL_GATHER, BROADCAST, ALL_TO_ALL and FLAG_COMBINE, once dispatched, no release recorded for them (R367, R369, R373, R374). -/
def Obligations.CollectivesAdmitted : Prop :=
  ∀ (s : State) (p : Packet) (c : Cmd) (b1 : Block) (t : TreeDef), s.blk.packetEntry p = some (c, b1) →
    (b1.trust.sealedReq = true → b1.trust.secretSet = true) → b1.collRefusal c = none → b1.tree c.colTree = some t →
    b1.fab.releases.find? (fun r => r.kind = c.colHold && r.arg = c.colTag) = none →
    ∀ (x : Coll) (b2 : Block), x = {
        cmd := c.id, op := c.pkt.opcode, tree := t.num, members := t.members, seq := t.seq,
        digest := c.colDigest t.members.length, hold := c.colHold, tag := c.colTag, timeout := c.colTimeout,
        startable := decide (c.colHold = 0), started := false, startSc := 0, order := b1.fab.nextOrder,
        flag := bit b1.stepRec 429, starts := [], parts := [], sent := [], out := [], written := [], census := Census.empty } →
      b2 = { b1 with
        fab.trees := b1.fab.trees.map (fun (y : TreeDef) => if y.num = t.num then { y with seq := (y.seq + 1) % 2 ^ 32 } else y),
        fab.colls := b1.fab.colls ++ [x], fab.nextOrder := b1.fab.nextOrder + 1 } →
    let go := (b2.tallyStart 4 t.num c.id).collKick 17
    (p.opcode = 0x0900 → exec (.allReduce p) s = .next (s.after p go)) ∧
    (p.opcode = 0x0901 → exec (.reduceScatter p) s = .next (s.after p go)) ∧
    (p.opcode = 0x0902 → exec (.allGather p) s = .next (s.after p go)) ∧
    (p.opcode = 0x0903 → exec (.broadcast p) s = .next (s.after p go)) ∧
    (p.opcode = 0x0904 → exec (.allToAll p) s = .next (s.after p go)) ∧
    (p.opcode = 0x0907 → exec (.flagCombine p) s = .next (s.after p
      (({ b2 with train.flagged := true } : Block).collKick 17)))

/-- COLL_START, COLL_DATA, COLL_ABORT and COLL_TIMEOUT for a collective that is here (R369, R371, R375). -/
def Obligations.CollectiveMessages : Prop :=
  (∀ (s : State) (src no : Nat) (m : Msg) (x : Coll),
    s.blk.fab.colls.find? (fun y => y.tree = m.tree && y.seq = m.seq) = some x →
    (s.blk.inMsg Kind.collStart src no = some m → m.rval = x.digest →
      let i := x.members.findIdx (· = m.src)
      exec (.collStart src no) s = .next (s.put
        (((s.blk.dropMsg m).setColl { x with starts := i :: x.starts.filter (· ≠ i) }).collPump x.cmd))) ∧
    (∀ c : Cmd, s.blk.inMsg Kind.collData src no = some m → s.blk.cmd x.cmd = some c →
      let k : CKey := { vl := m.vl, shard := m.shard, level := m.level, node := m.node, off := m.offset }
      (∀ o ∈ s.blk.colOuts c x.members, o.2.2.1 = k → s.blk.writeWaits o.2.2.2 m.data.length = false) →
      exec (.collData src no) s = .next (s.put
        ((((((s.blk.dropMsg m).setColl { x with parts := x.parts ++ [(k, m.data)] }).collPump x.cmd).applyRop m).ackMsg m true).collKick
          17))) ∧
    (s.blk.inMsg Kind.collAbort src no = some m →
      exec (.collAbort src no) s = .next (s.put
        (((s.blk.dropMsg m).collEnd x Status.rankLost (m.src + 2 ^ 16) 0).collKick 17)))) ∧
  (∀ (s : State) (tree seq : Nat) (x : Coll) (c : Cmd),
    s.blk.fab.colls.find? (fun y => y.tree = tree && y.seq = seq) = some x → s.blk.cmd x.cmd = some c → x.started = true →
    x.timeout ≠ 0 → x.timeout ≤ s.blk.now - x.startSc →
    ∀ r : Nat, r = s.blk.collAwaited x c → (∀ q, q < 8 → (s.blk.port q).peerShutter = false) →
      exec (.collTimeout tree seq) s = .next (s.put ((s.blk.collAbort x Status.rankLost r).collKick 17)))

/-- PEER_WRITE, READ_REQ, WRITE_ACK, READ_RSP and UNREACH (R353, R364). -/
def Obligations.PeerMessages : Prop :=
  ∀ (s : State) (src no : Nat) (m : Msg),
    (s.blk.inMsg Kind.peerWrite src no = some m →
      (s.blk.window m.dest m.exp m.offset m.data.length true = none →
        exec (.peerWrite src no) s = .next (s.put ((s.blk.dropMsg m).ackMsg m false))) ∧
      (∀ (da : Nat) (b1 : Block), s.blk.window m.dest m.exp m.offset m.data.length true = some da →
        s.blk.roHit da m.data.length = false → s.blk.writeWaits da m.data.length = false → s.blk.daWrite da m.data = (b1, none) →
        exec (.peerWrite src no) s = .next (s.put (((b1.dropMsg m).applyRop m).ackMsg m true)))) ∧
    (s.blk.inMsg Kind.readReq src no = some m →
      (s.blk.window m.dest m.exp m.offset m.length false = none →
        exec (.readReq src no) s = .next (s.put ((s.blk.dropMsg m).rspMsg m []))) ∧
      (∀ (da : Nat) (bs : List Byte) (corrected : Bool) (b1 : Block), s.blk.window m.dest m.exp m.offset m.length false = some da →
        s.blk.readWaits da m.length = false → s.blk.daRead da m.length = (.ok bs corrected, b1) →
        exec (.readReq src no) s = .next (s.put (((b1.dropMsg m).applyRop m).rspMsg m bs)))) ∧
    (∀ (dest : Nat) (r : PeerReq) (b1 : Block), (s.blk.dropMsg m).takeReq m.rval = (some (dest, r), b1) →
      (s.blk.inMsg Kind.writeAck src no = some m → exec (.writeAck src no) s = .next (s.put
        (b1.peerAnswer dest r (if m.rop = 1 then .ack else .refused)))) ∧
      (s.blk.inMsg Kind.readRsp src no = some m → exec (.readRsp src no) s = .next (s.put
        (b1.peerAnswer dest r (if m.data.isEmpty then .refused else .data m.data)))) ∧
      (s.blk.inMsg Kind.unreach src no = some m → (∀ id, r ≠ .fetch id) →
        exec (.unreach src no) s = .next (s.put (b1.peerAnswer dest r .unreachable))))

/-! ### The Meridian link (spec/15) -/

/-- FLIT_IDLE, FLIT_DATA, FLIT_TIME, FLIT_SHUTTER, FLIT_KEYCHG and FLIT_SLEEP without word errors (R351, R354 to R361). -/
def Obligations.FlitsReceived : Prop :=
  ∀ (s : State) (m : Nat) (f : Flit), (s.blk.port m).st.isUp = true → f.bad = [] → f.fixed = [] →
    (f.typ = 0 → exec (.flitIdle m f) s = .next (s.put (s.blk.setPort m ((s.blk.port m).credit f)))) ∧
    (f.typ = 3 → exec (.flitShutter m f) s = .next (s.put (s.blk.shutterNotice m f))) ∧
    (∀ (key : Nat) (p1 : Port), (s.blk.port m).rxKey = some key → (s.blk.port m).failed = false →
      f.seq = (s.blk.port m).rxSeq → f.seq < 4096 → (s.blk.port m).tagOk f (s.blk.port m).rxCtr = true →
      p1 = { (s.blk.port m).credit f with
        rxSeq := ((s.blk.port m).rxSeq + 1) % 4096, rxCtr := (s.blk.port m).rxCtr + 1, nakSent := false, fails := 0,
        freed := (s.blk.port m).freed.upd 0 f.vl (· + 1) } →
      let b := s.blk.setPort m p1
      let pl := leNat (xorBytes (leBytes 224 f.payload.toNat)
        (Config.gcmStream key (gcmIv (s.blk.port m).rxSalt (s.blk.port m).rxCtr) 224))
      (f.typ = 1 → s.blk.hosts f.dest = true → exec (.flitData m f) s = .next (s.put ((b.wakeBy 3 7 m).consume f pl))) ∧
      (f.typ = 1 → s.blk.hosts f.dest = false → s.blk.trustShut = false →
        exec (.flitData m f) s = .next (s.put (b.routeFlit false {
          typ := 1, vl := f.vl, dest := f.dest, src := f.src, msg := f.h 47 32, first := bit f.hdr.toNat 31,
          last := bit f.hdr.toNat 30, no := f.h 29 0, pwords := f.h 51 48, payload := pl, cmd := none }))) ∧
      (f.typ = 2 → exec (.flitTime m f) s = .next (s.put (b.timeCode m pl))) ∧
      (f.typ = 4 → exec (.flitKeychg m f) s = .next (s.put (b.rxKeychg m pl))) ∧
      (f.typ = 5 → exec (.flitSleep m f) s = .next (s.put (b.onPort m (fun x => { x with st := .asleep })))))

/-- FLIT_SLOT_FILL, REPLAY_TIMEOUT, the training events, TIME_CODE_SEND, SHUTTER_NOTICE_SEND and PEER_SHUTTER_END (R355, R356, R358, R360, R361). -/
def Obligations.PortEvents : Prop :=
  ∀ (s : State) (m : Nat),
    let p := s.blk.port m
    (p.st.isUp = true → p.queues = [] → p.resend = none →
      (s.blk.shut.shut = false → exec (.flitSlotFill m) s = .next (s.put (s.blk.sendIdle m))) ∧
      (s.blk.shut.shut = true → exec (.flitSlotFill m) s = .next (s.put (s.blk.sendShutter m)))) ∧
    (∀ (i : Nat) (t : TxFlit), p.st.isUp = true → p.failed = false → s.blk.trustShut = false → p.resend = some i →
      p.replay[i]? = some t → t.sent < 9 →
      ∀ p1 : Port, p1 = { p with
          replay := p.replay.set i { t with sent := t.sent + 1 }, replays := Nat.min (p.replays + 1) (2 ^ 32 - 1),
          resend := if i + 1 < p.replay.length then some (i + 1) else none } →
        exec (.flitSlotFill m) s = .next (s.put ((s.blk.setPort m p1).sendFlit m (p.header t.seq t.q) t.cipher t.tag))) ∧
    (p.st.isUp = true → p.replay ≠ [] →
      exec (.replayTimeout m) s = .next (s.put (s.blk.setPort m { p with resend := some 0 }))) ∧
    (∀ good id gen nonce : Nat, p.st = .train → p.retiredLanes = 0 → good % 256 = 255 →
      let b := s.blk.trainKeys m id gen nonce
      (b.port m).retiredLanes = 0 →
      exec (.portTrainingDone m good id gen nonce) s = .next (s.put (b.setPort m { (b.port m).trained with
        st := .up8, lanes := 255 }))) ∧
    (p.st = .train → exec (.trainNoSignal m) s = .next (s.put ((s.blk.setPort m { p with lanes := 0 }).enterDegraded m .nc))) ∧
    (p.st = .nc → exec (.signalDetect m) s = .next (s.put (s.blk.setPort m { p with st := .train }))) ∧
    (p.st.isUp = true → exec (.lossOfSignal m) s = .next (s.put (s.blk.setPort m { p with st := .train }))) ∧
    (p.st.isUp = true → s.blk.sid.timeDue.contains m = true → s.blk.trust.job ≠ 0 →
      ∀ b : Block, b = { s.blk with sid.timeDue := s.blk.sid.timeDue.filter (· ≠ m) } →
      exec (.timeCodeSend m) s = .next (s.put (b.queueLocal m 2
        (fields [(43, s.blk.primaryRank), (40, s.blk.sid.state.code), (0, s.blk.now / epochTicks)]) 1))) ∧
    (p.st.isUp = true → s.blk.shut.shut = true → exec (.shutterNoticeSend m) s = .next (s.put (s.blk.sendShutter m))) ∧
    (p.peerShutter = true → exec (.peerShutterEnd m) s = .next (s.put
      ((s.blk.setPort m { p with peerShutter := false }).logPeerShutter m p.peerRank)))

/-! ### The cube array and the moves (R112 to R132, R143 to R146) -/

/-- STEP, DRAIN, DISCARD and the pairs of one bundle (R112 to R114, R120, R121, R123). -/
def Obligations.CubeSlotOps : Prop :=
  ∀ (s : State) (t g : Nat), (s.blk.tile t).issuing = true →
    let x := s.blk.tile t
    (∀ (first : Bool) (gr : Group) (d raise : Nat),
      (first = true → (x.group g).state = .closed ∧ x.dregAt.get 0 (16 + g) ≤ x.cyc ∧ x.dregAt.get 0 (20 + g) ≤ x.cyc ∧
        s.blk.openCheck (Osr.of (x.dreg (16 + g))) (Osr.of (x.dreg (20 + g))) = none ∧
        gr = { Group.closedG with
          state := .accum, osrA := x.dreg (16 + g), osrB := x.dreg (20 + g), cells := List.replicate 6144 Cell.zero }) →
      (first = false → (x.group g).state = .accum ∧ gr = x.group g) →
      let oa := Osr.of gr.osrA
      let ob := Osr.of gr.osrB
      s.blk.pairClass oa.slot ob.slot = some (d, raise) → s.blk.allClean = true →
      let ranges := s.blk.readRanges oa 96 gr.k d ++ s.blk.readRanges ob 64 gr.k d
      ranges.all (fun r => !x.unsettled r.1 r.2) = true →
      let ca := s.blk.stepCodes (s.blk.tsPeek t) oa 96 gr.k d gr.keptA
      let cb := s.blk.stepCodes (s.blk.tsPeek t) ob 64 gr.k d gr.keptB
      let r := s.blk.stepCells (s.blk.tsPeek t) oa ob ca.1 cb.1 gr.k gr.cells
      exec (.step t g first) s = .next (s.withTile t (ranges.foldl (fun y q => y.touch 0 q.1 q.2 false)
        (x.setGroup g { gr with
          k := gr.k + d, last := x.cyc, cells := r.1, sat := gr.sat + r.2, keptA := ca.2, keptB := cb.2,
          state := if oa.klen ≤ gr.k + d then .settle else .accum })))) ∧
    (∀ odr : Nat, (x.group g).state = .ready → x.dregAt.get 0 (24 + odr) ≤ x.cyc → x.drain = none →
      s.blk.odrOk (Odr.of (x.dreg (24 + odr))) = true →
      exec (.drain t g odr) s = .next (s.withTile t { (x.setGroup g Group.closedG) with
        drain := some { odr := x.dreg (24 + odr), cells := (x.group g).cells, issued := x.cyc, sat := (x.group g).sat,
                        chunk := 0 } })) ∧
    ((x.group g).state ≠ .rerun → exec (.discard t g) s = .next (s.withTile t (x.setGroup g Group.closedG))) ∧
    (∀ (first : Bool) (dg odr : Nat) (u : State), g ≠ dg → exec (.step t g first) s = .next u →
      exec (.stepAndDrain t g first dg odr) s = exec (.drain t dg odr) u ∧
      exec (.stepAndDiscard t g first dg) s = exec (.discard t dg) u) ∧
    (∀ (first : Bool) (odr : Nat),
      exec (.stepAndDrain t g first g odr) s = .next (s.put (s.blk.progFault t 0x11 g none)) ∧
      exec (.stepAndDiscard t g first g) s = .next (s.put (s.blk.progFault t 0x11 g none)))

/-- GROUP_SETTLE, DRAIN_COMPLETE, TRANSIENT_FAULT, RERUN_DONE and SPARE_ROW_SWITCH_DONE (R119 to R132). -/
def Obligations.CubeEvents : Prop :=
  ∀ (s : State) (t g : Nat),
    let x := s.blk.tile t
    ((x.group g).state = .settle → (x.group g).last + 28 ≤ x.cyc →
      exec (.groupSettle t g) s = .next (s.withTile t (x.setGroup g { x.group g with state := .ready }))) ∧
    (∀ d : Drain, x.drain = some d → x.run.isSome = true → d.until ≤ x.cyc →
      exec (.drainComplete t) s = .next (s.put
        ((List.range (96 / (Odr.of d.odr).rows - d.chunk)).foldl (fun (b : Block) _ => b.drainChunk t) s.blk))) ∧
    (∀ (d : Drain), x.drain = some d → x.run = none →
      exec (.drainComplete t) s = .next (s.put ((s.blk.drainComplete t).drainFlight t))) ∧
    (∀ row col id : Nat, x.held = none → x.run = some id → x.halted = false → x.switching = false → x.rerun = [] →
      (x.group g).state = .accum ∨ (x.group g).state = .settle ∨ (x.group g).state = .ready →
      exec (.transientFault t g row col) s = .next (s.put (Block.tileAcquire t Status.passRerun
        (s.withTile t { (x.setGroup g { x.group g with
            state := .rerun, back := (x.group g).state, target := (x.group g).k, cells := [] }) with
          rerun := [g], faultAt := (g, row, col) :: x.faultAt.filter (fun f => f.1 ≠ g) }).blk))) ∧
    (∀ rest : List Nat, x.switching = false → x.rerun = g :: rest → x.held = none →
      exec (.rerunDone t) s = .next (s.withTile t
        { (x.setGroup g (s.blk.replay t (x.group g))) with rerun := rest, faultAt := x.faultAt.filter (fun f => f.1 ≠ g) })) ∧
    (∀ (row col : Nat) (more : List (Nat × Nat × Nat)), x.switching = true → x.faultAt = (g, row, col) :: more →
      exec (.spareRowSwitchDone t) s = .next (s.put (Block.tileAcquire t (Status.passRerun + loggedMark)
        ((s.withTile t { x with switching := false, badRow := row, st := 1, faultAt := [] }).blk.almanacChange
          Status.passRerun 1 t 0 0))))

/-- LOAD, STORE, their granules and the starvation of a move access (R143 to R146, R137). -/
def Obligations.MoveOps : Prop :=
  ∀ (s : State) (t : Nat),
    let x := s.blk.tile t
    (∀ mdr ac : Nat, x.issuing = true → x.moves.length < 32 → x.dregAt.get 0 mdr ≤ x.cyc →
      ((x.mkMove true mdr ac).valid = true → exec (.load t mdr ac) s = .next (s.put (Block.tallyStart 2 t x.nextMove
        (s.withTile t { x with moves := x.moves ++ [x.mkMove true mdr ac], nextMove := x.nextMove + 1 }).blk))) ∧
      ((x.mkMove false mdr ac).valid = true → exec (.store t mdr ac) s = .next (s.put (Block.tallyStart 3 t x.nextMove
        (s.withTile t { x with moves := x.moves ++ [x.mkMove false mdr ac], nextMove := x.nextMove + 1 }).blk)))) ∧
    (∀ (m : Move) (g : Nat), x.move m.id = some m → g < m.total → m.done.contains g = false → m.asked.contains g = false →
      (m.load = true →
        (∀ addr, regionOf (m.gda g) = .host addr → exec (.loadGranuleComplete t m.id g) s = .next (s.put
          (Block.askHost addr 64 (.move t m.id g) (s.withTile t (x.setMove { m with asked := g :: m.asked })).blk))) ∧
        (∀ ex rank off, regionOf (m.gda g) = .peer ex rank off → exec (.loadGranuleComplete t m.id g) s = .next (s.put
          (Block.askPeerRead ex rank off 64 (.move t m.id g) (s.withTile t (x.setMove { m with asked := g :: m.asked })).blk))) ∧
        (∀ (bs : List Byte) (b : Block), regionOf (m.gda g) = .hbm → s.blk.readWaits (m.gda g) 64 = false →
          s.blk.daRead (m.gda g) 64 = (.ok bs false, b) →
          exec (.loadGranuleComplete t m.id g) s = .next (s.put
            (((b.memWrite (tileDa t + m.gts g) bs).tallyData 2 t m.id (m.gda g) bs).countGranule t m g)))) ∧
      (m.load = false → ∀ (bs : List Byte) (b : Block), s.blk.tsRead t (m.gts g) 64 = (some bs, b) →
        (∀ addr, regionOf (m.gda g) = .host addr → exec (.storeGranuleAck t m.id g) s = .next (s.put
          (((b.emit (.hostWrite addr bs)).tallyData 3 t m.id (m.gda g) bs).countGranule t m g))) ∧
        (∀ ex rank off, regionOf (m.gda g) = .peer ex rank off → exec (.storeGranuleAck t m.id g) s = .next (s.put
          (((b.setTile t ((b.tile t).setMove { m with asked := g :: m.asked })).tallyData 3 t m.id (m.gda g) bs).askPeerWrite
            ex rank off bs (.move t m.id g)))) ∧
        (∀ b' : Block, regionOf (m.gda g) = .hbm → localPopulated (m.gda g) 64 = true → s.blk.roHit (m.gda g) 64 = false →
          s.blk.writeWaits (m.gda g) 64 = false → b.daWrite (m.gda g) bs = (b', none) →
          exec (.storeGranuleAck t m.id g) s = .next (s.put
            ((b'.tallyData 3 t m.id (m.gda g) bs).countGranule t m g))))) ∧
    (x.moves ≠ [] → x.run.isSome = true →
      exec (.moveAccessStarvation t) s = .next (s.withTile t { x with frozen := x.frozen + 1 }))

/-! ### Scalar cores and the sync slot (R141, R144, R148, R180 to R184) -/

/-- The form R operations and VGET (R182): what RD takes, when, and that nothing else changes.
The form I operations on registers, LI, LUI and RDSC (R181, R182). -/
def Obligations.ScalarArithmetic : Prop :=
  (∀ (s : State) (t : Nat) (a : ScR), s.blk.scalarReady t a.core →
    let x := s.scalarReg t a.core a.ra
    let y := s.scalarReg t a.core a.rb
    let busy (u : State) : State :=
      u.withTile t { u.blk.tile t with busy := (u.blk.tile t).busy.set 0 a.core ((s.blk.tile t).cyc + 16) }
    exec (.scalarAdd t a) s = .next (s.scalarSets t 2 a.core a.rd (x + y)) ∧
    exec (.scalarSub t a) s = .next (s.scalarSets t 2 a.core a.rd (x - y)) ∧
    exec (.scalarAnd t a) s = .next (s.scalarSets t 2 a.core a.rd (x &&& y)) ∧
    exec (.scalarOr t a) s = .next (s.scalarSets t 2 a.core a.rd (x ||| y)) ∧
    exec (.scalarXor t a) s = .next (s.scalarSets t 2 a.core a.rd (x ^^^ y)) ∧
    exec (.scalarShl t a) s = .next (s.scalarSets t 2 a.core a.rd (x <<< (y.toNat % 32))) ∧
    exec (.scalarShr t a) s = .next (s.scalarSets t 2 a.core a.rd (x >>> (y.toNat % 32))) ∧
    exec (.scalarSar t a) s = .next (s.scalarSets t 2 a.core a.rd (x.sshiftRight (y.toNat % 32))) ∧
    exec (.scalarSlt t a) s = .next (s.scalarSets t 2 a.core a.rd (if x.toInt < y.toInt then 1 else 0)) ∧
    exec (.scalarSltu t a) s = .next (s.scalarSets t 2 a.core a.rd (if x.toNat < y.toNat then 1 else 0)) ∧
    exec (.scalarMul t a) s = .next (s.scalarSets t 3 a.core a.rd (BitVec.ofNat 32 (x.toNat * y.toNat))) ∧
    exec (.scalarMulhu t a) s = .next (s.scalarSets t 3 a.core a.rd (BitVec.ofNat 32 (x.toNat * y.toNat / 2 ^ 32))) ∧
    (s.blk.tiles.wf Tile.zero = true →
      exec (.scalarDivu t a) s = .next (busy (s.scalarSets t 16 a.core a.rd
        (if y = 0 then 0xFFFFFFFF else BitVec.ofNat 32 (x.toNat / y.toNat)))) ∧
      exec (.scalarRemu t a) s = .next (busy (s.scalarSets t 16 a.core a.rd
        (if y = 0 then x else BitVec.ofNat 32 (x.toNat % y.toNat))))) ∧
    (∀ vn lane : Nat, exec (.scalarVget t { core := a.core, rd := a.rd, vn := vn, lane := lane }) s =
      .next (s.scalarSets t 4 a.core a.rd (BitVec.ofNat 32 (((s.blk.tile t).vregs.get 0 vn).toNat / 2 ^ (32 * lane)))))) ∧
  (∀ (s : State) (t : Nat) (a : ScI) (u : ScU),
    (s.blk.scalarReady t a.core →
      let x := s.scalarReg t a.core a.ra
      let imm : Word := BitVec.ofInt 32 (if a.imm % 2 ^ 14 < 2 ^ 13 then (a.imm % 2 ^ 14 : Nat) else (a.imm % 2 ^ 14 : Nat) - 2 ^ 14)
      exec (.scalarAddi t a) s = .next (s.scalarSets t 2 a.core a.rd (x + imm)) ∧
      exec (.scalarAndi t a) s = .next (s.scalarSets t 2 a.core a.rd (x &&& imm)) ∧
      exec (.scalarOri t a) s = .next (s.scalarSets t 2 a.core a.rd (x ||| imm)) ∧
      exec (.scalarXori t a) s = .next (s.scalarSets t 2 a.core a.rd (x ^^^ imm)) ∧
      exec (.scalarShli t a) s = .next (s.scalarSets t 2 a.core a.rd (x <<< (a.imm % 32))) ∧
      exec (.scalarShri t a) s = .next (s.scalarSets t 2 a.core a.rd (x >>> (a.imm % 32))) ∧
      exec (.scalarSari t a) s = .next (s.scalarSets t 2 a.core a.rd (x.sshiftRight (a.imm % 32)))) ∧
    (s.blk.scalarReady t u.core →
      (u.imm < 2 ^ 18 → exec (.scalarLi t u) s = .next (s.scalarSets t 2 u.core u.rd (BitVec.ofNat 32 u.imm))) ∧
      (2 ^ 18 ≤ u.imm → u.imm < 2 ^ 19 →
        exec (.scalarLi t u) s = .next (s.scalarSets t 2 u.core u.rd (BitVec.ofNat 32 (2 ^ 32 - 2 ^ 19 + u.imm)))) ∧
      exec (.scalarLui t u) s = .next (s.scalarSets t 2 u.core u.rd (BitVec.ofNat 32 (u.imm * 2 ^ 13))) ∧
      (u.imm = 0 → exec (.scalarRdsc t u) s = .next (s.scalarSets t 2 u.core u.rd (s.blk.sid.sc.extractLsb' 0 32))) ∧
      (u.imm = 1 → exec (.scalarRdsc t u) s = .next (s.scalarSets t 2 u.core u.rd (s.blk.sid.sc.extractLsb' 32 32)))))

/-- The branches (R141, R182); the redirection counts the branch's own bundle and two delay bundles.
The form I and D accesses and PKT (R182, R184). The address is RA + size × IMM14 modulo 2^32. -/
def Obligations.ScalarBranchesAndAccesses : Prop :=
  (∀ (s : State) (t : Nat) (a : ScB), s.blk.scalarReady t a.core → (s.blk.tile t).branch = none →
    let x := s.scalarReg t a.core a.ra
    let y := s.scalarReg t a.core a.rb
    let taken (u : State) : State := u.withTile t { u.blk.tile t with branch := some (3, a.target) }
    exec (.scalarBr t a) s = .next (taken s) ∧
    exec (.scalarBeq t a) s = .next (if x = y then taken s else s) ∧
    exec (.scalarBne t a) s = .next (if x = y then s else taken s) ∧
    exec (.scalarBlt t a) s = .next (if x.toInt < y.toInt then taken s else s) ∧
    exec (.scalarBge t a) s = .next (if x.toInt < y.toInt then s else taken s) ∧
    (x ≠ 1 → exec (.scalarDbnz t a) s = .next (taken (s.scalarSets t 2 a.core a.ra (x - 1)))) ∧
    (x = 1 → exec (.scalarDbnz t a) s = .next (s.scalarSets t 2 a.core a.ra 0))) ∧
  (∀ (s : State) (t : Nat) (a : ScI) (d : ScD),
    let ea (n : Nat) : Nat := scEa (s.blk.tile t) a n
    (s.blk.scalarReady t a.core →
      (∀ (bs : List Byte) (b : Block), ea 4 % 4 = 0 → ea 4 + 4 ≤ 0xC00000 →
        s.blk.portRead t (5 + a.core) (ea 4) 4 = (some bs, b) →
        exec (.scalarLd t a) s = .next (State.scalarSets (s.put b) t 6 a.core a.rd (BitVec.ofNat 32 (leNat bs)))) ∧
      (ea 4 % 4 = 0 → ea 4 + 4 ≤ 0xC00000 →
        exec (.scalarSt t a) s = .next (s.withTile t ((s.blk.tile t).awaits 2 (.store (ea 4) (5 + a.core)) 0
          (leBytes 4 (s.scalarReg t a.core a.rd).toNat)))) ∧
      (∀ (bs : List Byte) (b : Block), ea 16 % 16 = 0 → ea 16 + 16 ≤ 0xC00000 →
        s.blk.portRead t (5 + a.core) (ea 16) 16 = (some bs, b) →
        exec (.scalarWdrr t a) s = .next (State.withTile (s.put b) t
          { (b.tile t).awaits 4 (.dreg a.rd) (leNat bs) [] with dregAt := (b.tile t).dregAt.set 0 a.rd ((b.tile t).cyc + 4) })) ∧
      (∀ (h ps : List Byte) (b b' : Block), s.blk.pktRoom t = true → ea 64 % 64 = 0 → ea 64 + 64 ≤ 0xC00000 →
        s.blk.portRead t (5 + a.core) (ea 64) 64 = (some h, b) →
        1 ≤ bits (leNat h) 23 16 → bits (leNat h) 23 16 ≤ 4 → ea 64 + 64 * bits (leNat h) 23 16 ≤ 0xC00000 →
        b.tsRead t (ea 64 + 64) (64 * bits (leNat h) 23 16 - 64) = (some ps, b') →
        b'.mer.tileQ.wf [] = true → b'.tiles.wf Tile.zero = true → (b'.tile t).busy.wf 0 = true →
        ∃ u, exec (.scalarPkt t a) s = .next u ∧ u.pending = s.pending ∧
          u.blk.mer.tileQ.get [] (t / 36) = b'.mer.tileQ.get [] (t / 36) ++
            [({ src := .tile t, hdr := BitVec.ofNat 512 (leNat h), params := ps },
              (((s.blk.tile t).run.bind b'.cmd).map (fun c => c.ring)).getD 0)] ∧
          (u.blk.tile t).busy.get 0 a.core = (b'.tile t).cyc + 4 * bits (leNat h) 23 16 ∧
          u.blk.mem = b'.mem) ∧
      (ea 4 % 4 ≠ 0 ∨ 0xC00000 < ea 4 + 4 →
        exec (.scalarLd t a) s = .next (s.put (s.blk.progFault t 0x23 0 none)) ∧
        exec (.scalarSt t a) s = .next (s.put (s.blk.progFault t 0x23 0 none))) ∧
      (ea 16 % 16 ≠ 0 ∨ 0xC00000 < ea 16 + 16 →
        exec (.scalarWdrr t a) s = .next (s.put (s.blk.progFault t 0x23 0 none)))) ∧
    (s.blk.scalarReady t d.core →
      ∀ (bs : List Byte) (b : Block), s.blk.portRead t (5 + d.core) (16 * d.addr) 16 = (some bs, b) →
        exec (.scalarWdr t d) s = .next (State.withTile (s.put b) t
          { (b.tile t).awaits 4 (.dreg d.dr) (leNat bs) [] with dregAt := (b.tile t).dregAt.set 0 d.dr ((b.tile t).cyc + 4) })))

/-- WAIT, ADD, SET, WAIT_AC, SET_AC (R148) and the effect of an operation on a counter (R62, R64).
SYNC_OP_EFFECT (R62, R64, R65) of one operation that belongs to no command. -/
def Obligations.SyncSlotOps : Prop :=
  (∀ (s : State) (t n cond : Nat) (v : SVal), (s.blk.tile t).issuing = true →
    let x := s.blk.tile t
    let val : Nat := match v with | .imm k => k | .reg c r => (s.scalarReg t c r).toNat
    let wait (holds : Bool) : Tile :=
      if holds then { x with waitOk := true, waitSince := none }
      else { x with waitOk := false, waitSince := some (x.waitSince.getD s.blk.sid.sc.toNat) }
    let issued (set : Bool) : State :=
      { s with blk.mer.syncPending := s.blk.mer.syncPending ++ [{ ctr := n, req := t, set := set, val := val, cmd := none }] }
    exec (.syncSlotAdd t n v) s = .next (issued false) ∧
    exec (.syncSlotSet t n v) s = .next (issued true) ∧
    exec (.syncSlotWait t n cond v) s = .next (s.withTile t (wait (condHolds cond (s.blk.mer.sync.get 0 n).toNat val))) ∧
    exec (.waitAc t n cond v) s = .next (s.withTile t (wait (condHolds cond (x.ac.get 0 n).toNat val))) ∧
    exec (.setAc t n v) s = .next (s.withTile t { x with ac := x.ac.set 0 n (BitVec.ofNat 32 val) })) ∧
  (∀ (s : State) (o : SyncOp), s.blk.mer.syncPending.filter (fun q => q.ctr = o.ctr) = [o] → o.cmd = none →
    s.blk.mer.sync.wf 0 = true → ∃ u, exec (.syncOpEffect o.ctr) s = .next u ∧ u.pending = s.pending ∧
      u.blk.syncVal o.ctr = (if o.set then o.val % 2 ^ 32 else (s.blk.syncVal o.ctr + o.val) % 2 ^ 32) ∧
      (∀ k, k ≠ o.ctr → u.blk.syncVal k = s.blk.syncVal k) ∧
      (s.blk.mer.running = [] → u.blk = { s.blk with
        mer.sync := s.blk.mer.sync.set 0 o.ctr (BitVec.ofNat 32 (u.blk.syncVal o.ctr)),
        mer.syncPending := s.blk.mer.syncPending.filter (fun q => q.ctr ≠ o.ctr) }) ∧
      u.blk.tiles = s.blk.tiles ∧ u.blk.pow = s.blk.pow ∧ u.blk.trust = s.blk.trust)

/-! ### The vector pipelines (R165 to R179) -/

/-- Form A, element-wise (R169, R170, R173, R174): the result, its latency, the lanes written.
Special functions (R171), reductions (R172) and SCALEST (R174). -/
def Obligations.VectorOps : Prop :=
  (∀ (s : State) (t : Nat) (a : VecA), (s.blk.tile t).issuing = true →
    let x := s.blk.tile t
    let lanes (r : Nat) : List Word := (List.range 512).map (fun i => BitVec.ofNat 32 ((x.vregs.get 0 r).toNat / 2 ^ (32 * i)))
    let each (f : Word → Word → Word → Word) : Nat :=
      ofLanes (((lanes a.va).zip ((lanes a.vb).zip (lanes a.vc))).map (fun w => f w.1 w.2.1 w.2.2))
    let sets (l v : Nat) : State :=
      s.withTile t (x.awaits l (.vreg a.vd (if a.pm = 0 then 2 ^ 512 - 1 else (x.masks.get 0 a.pm).toNat)) v [])
    exec (.vecAdd t a) s = .next (sets 4 (fpOp (fun p q _ => p.add q) x a)) ∧
    exec (.vecSub t a) s = .next (sets 4 (fpOp (fun p q _ => p.sub q) x a)) ∧
    exec (.vecMul t a) s = .next (sets 4 (fpOp (fun p q _ => p.mul q) x a)) ∧
    exec (.vecFma t a) s = .next (sets 4 (fpOp (fun p q r => (p.mul q).add r) x a)) ∧
    exec (.vecMin t a) s = .next (sets 4 (fpOp (fun p q _ => p.min q) x a)) ∧
    exec (.vecMax t a) s = .next (sets 4 (fpOp (fun p q _ => p.max q) x a)) ∧
    exec (.vecAbs t a) s = .next (sets 4 (each (fun p _ _ => if (dec32 p).isNan then 0x7FC00000 else p &&& 0x7FFFFFFF))) ∧
    exec (.vecNeg t a) s = .next (sets 4 (each (fun p _ _ => if (dec32 p).isNan then 0x7FC00000 else p ^^^ 0x80000000))) ∧
    exec (.vecAnd t a) s = .next (sets 3 (each (fun p q _ => p &&& q))) ∧
    exec (.vecOr t a) s = .next (sets 3 (each (fun p q _ => p ||| q))) ∧
    exec (.vecXor t a) s = .next (sets 3 (each (fun p q _ => p ^^^ q))) ∧
    exec (.vecIadd t a) s = .next (sets 3 (each (fun p q _ => p + q))) ∧
    exec (.vecCvt t a) s = .next (sets 4 (each (fun p _ _ => enc32 ((if bits a.mod 11 7 = 1 then bf16 else fp16).round (dec32 p))))) ∧
    exec (.vecBcast t a) s = .next (sets 3 (ofLanes (List.replicate 512 (s.scalarReg t (bits a.mod 6 5) (bits a.mod 4 0))))) ∧
    exec (.vecRot t a) s = .next (sets 6 (rotOp x a)) ∧
    exec (.vecFtoi t a) s = .next (sets 4 (each (fun p _ _ => ftoi (dec32 p)))) ∧
    exec (.vecItof t a) s = .next (sets 4 (each (fun p _ _ => enc32 (FV.ofDy false ⟨p.toInt, 0⟩)))) ∧
    exec (.vecSel t a) s = .next (s.withTile t (x.awaits 3 (.vreg a.vd (2 ^ 512 - 1))
      (mergeLanes (x.masks.get 0 a.pm).toNat (x.vregs.get 0 a.va).toNat (x.vregs.get 0 a.vb).toNat) [])) ∧
    exec (.vecCmp t a) s = .next (s.withTile t (x.awaits 4 (.mask (a.vd % 8))
      (((lanes a.va).zip (lanes a.vb)).zipIdx.foldl (fun acc w =>
        acc ||| (b2n (FV.cmp (a.mod % 8) (dec32 w.1.1) (dec32 w.1.2) && bit (x.pmask a.pm) w.2) <<< w.2)) 0) []))) ∧
  (∀ (s : State) (t : Nat) (a : VecA), (s.blk.tile t).issuing = true →
    let x := s.blk.tile t
    let lanes (r : Nat) : List FV := (lanesOf (x.vregs.get 0 r).toNat).map dec32
    let one (f : FV → FV) : State :=
      s.withTile t (x.awaits 12 (.vreg a.vd (if a.pm = 0 then 2 ^ 512 - 1 else (x.masks.get 0 a.pm).toNat))
        (ofLanes ((lanes a.va).map (fun v => enc32 (f v)))) [])
    let all (l v : Nat) : State := s.withTile t (x.awaits l (.vreg a.vd (2 ^ 512 - 1)) v [])
    exec (.vecExp2 t a) s = .next (one fExp2) ∧
    exec (.vecExp t a) s = .next (one fExp) ∧
    exec (.vecLog2 t a) s = .next (one fLog2) ∧
    exec (.vecRcp t a) s = .next (one fRcp) ∧
    exec (.vecRsqrt t a) s = .next (one fRsqrt) ∧
    exec (.vecSqrt t a) s = .next (one fSqrt) ∧
    exec (.vecSigm t a) s = .next (one fSigm) ∧
    exec (.vecTanh t a) s = .next (one fTanh) ∧
    exec (.vecSint t a) s = .next (one fSint) ∧
    exec (.vecCost t a) s = .next (one fCost) ∧
    exec (.vecExpd t a) s = .next
      (s.withTile t (x.awaits 12 (.vreg a.vd (if a.pm = 0 then 2 ^ 512 - 1 else (x.masks.get 0 a.pm).toNat))
        (ofLanes (((lanes a.va).zip (lanes a.vb)).map (fun v => enc32 (fExp (v.1.sub v.2))))) [])) ∧
    exec (.vecRsum t a) s = .next (all 14 (rsumOp x a)) ∧
    exec (.vecRmax t a) s = .next (all 14 (rmaxOp x a)) ∧
    exec (.vecRamax t a) s = .next (all 14 (ramaxOp x a)) ∧
    exec (.vecScalest t a) s = .next (all 8 (s.blk.scalestOp x a)))

/-- LDR.L, LDR.H, LDC and MLD (R168, R175).
STR.L, STR.H, STC, MST, CSTORE and CCLR (R169, R175 to R179). -/
def Obligations.VectorLoadsAndStores : Prop :=
  (∀ (s : State) (t : Nat) (a : VecM), (s.blk.tile t).issuing = true →
    let x := s.blk.tile t
    let ea := (s.scalarReg t a.acore a.areg).toNat + 64 * a.ofs
    let f := s.blk.fmt a.slot
    (∀ (n : Nat) (bs : List Byte) (b : Block), ea % 64 = 0 → ea + n ≤ 0xC00000 →
      s.blk.portRead t (3 + a.pipe) ea n = (some bs, b) →
      let lands (l : Nat) (d : Dest) (v : Nat) : State := s.put (b.setTile t ((b.tile t).awaits l d v []))
      (n = 1024 →
        exec (.vecLdrL t a) s = .next (lands 6 (.vreg a.vr (2 ^ 256 - 1)) (leNat bs)) ∧
        exec (.vecLdrH t a) s = .next (lands 6 (.vreg a.vr ((2 ^ 256 - 1) * 2 ^ 256)) (leNat bs * 2 ^ 8192)) ∧
        (s.blk.isBlockSlot a.slot = false →
          exec (.vecLdc t a) s = .next (lands 8 (.vreg a.vr (2 ^ 512 - 1)) (ofLanes ((List.range 512).map (fun i =>
            enc32 (f.decode (bits (leNat bs) (16 * i + 15) (16 * i))))))))) ∧
      (n = 64 → exec (.vecMld t a) s = .next (lands 4 (.mask (a.vr % 8)) (leNat bs))) ∧
      (s.blk.isBlockSlot a.slot = true → n = 64 * f.width → a.scaleAddr x % 16 = 0 → a.scaleAddr x + 16 ≤ 0xC00000 →
        ∀ (sc : List Byte) (b' : Block), b.portRead t (3 + a.pipe) (a.scaleAddr x) 16 = (some sc, b') →
          exec (.vecLdc t a) s = .next (s.put (b'.setTile t ((b'.tile t).awaits 8 (.vreg a.vr (2 ^ 512 - 1))
            (ofLanes ((List.range 512).map (fun i =>
              enc32 (decBlockElem f (sc.getD (i / 32) 0).toNat (unpackBit f.width i (leNat bs)))))) []))))) ∧
    (ea % 64 ≠ 0 →
      exec (.vecLdrL t a) s = .next (s.put (s.blk.progFault t 0x20 0 none)) ∧
      exec (.vecLdrH t a) s = .next (s.put (s.blk.progFault t 0x20 0 none)) ∧
      exec (.vecMld t a) s = .next (s.put (s.blk.progFault t 0x20 0 none)))) ∧
  (∀ (s : State) (t : Nat) (a : VecM), (s.blk.tile t).issuing = true →
    let x := s.blk.tile t
    let ea := (s.scalarReg t a.acore a.areg).toNat + 64 * a.ofs
    let f := s.blk.fmt a.slot
    let vs := (lanesOf (x.vregs.get 0 a.vr).toNat).map dec32
    let writes (l : Nat) (bs : List Byte) : State := s.withTile t (x.awaits l (.store ea (3 + a.pipe)) 0 bs)
    (ea % 64 = 0 → ea + 1024 ≤ 0xC00000 →
      exec (.vecStrL t a) s = .next (writes 4 (leBytes 1024 (x.vregs.get 0 a.vr).toNat)) ∧
      exec (.vecStrH t a) s = .next (writes 4 (leBytes 1024 ((x.vregs.get 0 a.vr).toNat / 2 ^ 8192))) ∧
      (s.blk.isBlockSlot a.slot = false →
        let es := vs.map f.enc
        let c := censusOf (es.map (·.2)) vs
        exec (.vecStc t a) s = .next (s.put (Block.censusStatus t c (s.blk.setTile t
          ((x.awaits 6 (.store ea (3 + a.pipe)) 0 ((es.map (fun e => leBytes 2 e.1)).flatten)).awaits 6 (.census a.cid c) 0
            [])))))) ∧
    (s.blk.isBlockSlot a.slot = true → ¬ (a.sr = 2 ∧ a.tensorCode x = 0xFF) → ea % 64 = 0 → ea + 64 * f.width ≤ 0xC00000 →
      a.scaleAddr x % 16 = 0 → a.scaleAddr x + 16 ≤ 0xC00000 →
      let es := (List.range 16).map (fun k => encBlock f a.sr (a.tensorCode x) ((vs.drop (32 * k)).take 32))
      let c := censusOf (es.map (·.classes)).flatten vs
      exec (.vecStc t a) s = .next (s.put (Block.censusStatus t c (s.blk.setTile t
        (((x.awaits 6 (.store ea (3 + a.pipe)) 0 (leBytes (64 * f.width) (packBits f.width (es.map (·.codes)).flatten))).awaits
          6 (.store (a.scaleAddr x) (3 + a.pipe)) 0 (es.map (fun e => BitVec.ofNat 8 e.scale))).awaits
            6 (.census a.cid c) 0 []))))) ∧
    (s.blk.isBlockSlot a.slot = true → a.sr = 2 → a.tensorCode x = 0xFF →
      exec (.vecStc t a) s = .next (s.put (s.blk.progFault t 0x26 0 none))) ∧
    (ea % 64 = 0 → ea + 64 ≤ 0xC00000 →
      exec (.vecMst t a) s = .next (writes 4 (leBytes 64 (x.masks.get 0 (a.vr % 8)).toNat)) ∧
      exec (.vecCstore t a) s = .next (writes 4 (leBytes 64 (x.seenCensus.census.get Census.empty a.cid).toNat))) ∧
    exec (.vecCclr t a) s = .next (s.withTile t (x.awaits 2 (.cclr a.cid) 0 [])) ∧
    (ea % 64 ≠ 0 →
      exec (.vecStrL t a) s = .next (s.put (s.blk.progFault t 0x20 0 none)) ∧
      exec (.vecStrH t a) s = .next (s.put (s.blk.progFault t 0x20 0 none)) ∧
      exec (.vecMst t a) s = .next (s.put (s.blk.progFault t 0x20 0 none)) ∧
      exec (.vecCstore t a) s = .next (s.put (s.blk.progFault t 0x20 0 none))))

/-- OP_RESULT_READY (R166): one result lands, alone.
Lanes (R165, R170, R172): what laneOp, mergeLanes and RSUM of SEG 1 give in each lane. -/
def Obligations.ResultsAndLanes : Prop :=
  (∀ (s : State) (t : Nat) (r : Pending),
    (s.blk.tile t).pend = [r] → r.ready = (s.blk.tile t).cyc → (s.blk.tile t).flight = [] →
    s.blk.tiles.wf Tile.zero = true →
    ∃ u, exec (.opResultReady t) s = .next u ∧ u.pending = s.pending ∧ u.blk.mem = s.blk.mem ∧
      (∀ k, k ≠ t → u.blk.tile k = s.blk.tile k) ∧ (u.blk.tile t).pend = [] ∧
      (u.blk.tile t).groups = (s.blk.tile t).groups ∧
      (∀ q m, r.dest = .vreg q m →
        ((s.blk.tile t).vregs.wf 0 = true →
          (u.blk.tile t).vregs.get 0 q = BitVec.ofNat 16384 (mergeLanes m r.value ((s.blk.tile t).vregs.get 0 q).toNat)) ∧
        (∀ k, k ≠ q → (u.blk.tile t).vregs.get 0 k = (s.blk.tile t).vregs.get 0 k) ∧
        (u.blk.tile t).sregs = (s.blk.tile t).sregs ∧ (u.blk.tile t).masks = (s.blk.tile t).masks) ∧
      (∀ c q, r.dest = .sreg c q →
        ((s.blk.tile t).sregs.wf 0 = true → (u.blk.tile t).sregs.get 0 (32 * c + q) = BitVec.ofNat 32 r.value) ∧
        (∀ k, k ≠ 32 * c + q → (u.blk.tile t).sregs.get 0 k = (s.blk.tile t).sregs.get 0 k) ∧
        (u.blk.tile t).vregs = (s.blk.tile t).vregs ∧ (u.blk.tile t).masks = (s.blk.tile t).masks) ∧
      (∀ q, r.dest = .mask q →
        ((s.blk.tile t).masks.wf 0 = true → (u.blk.tile t).masks.get 0 q = BitVec.ofNat 512 r.value) ∧
        (u.blk.tile t).vregs = (s.blk.tile t).vregs ∧ (u.blk.tile t).sregs = (s.blk.tile t).sregs) ∧
      (∀ q, r.dest = .dreg q → (s.blk.tile t).dregs.wf 0 = true →
        (u.blk.tile t).dregs.get 0 q = BitVec.ofNat 128 r.value) ∧
      (∀ at_ port, r.dest = .store at_ port →
        (u.blk.tile t).flight = [{ visible := (s.blk.tile t).cyc + 2, addr := at_, bytes := r.bytes }] ∧
        (u.blk.tile t).vregs = (s.blk.tile t).vregs ∧ (u.blk.tile t).sregs = (s.blk.tile t).sregs)) ∧
  ((∀ (f : Word → Word → Word → Word) (x : Tile) (a : VecA) (i : Nat), i < 512 →
    BitVec.ofNat 32 (laneOp f x a / 2 ^ (32 * i)) =
      f (BitVec.ofNat 32 (x.vreg a.va / 2 ^ (32 * i))) (BitVec.ofNat 32 (x.vreg a.vb / 2 ^ (32 * i)))
        (BitVec.ofNat 32 (x.vreg a.vc / 2 ^ (32 * i)))) ∧
  (∀ (mask new old i : Nat), i < 512 → mask < 2 ^ 512 →
    mergeLanes mask new old / 2 ^ (32 * i) % 2 ^ 32 = (if mask.testBit i then new else old) / 2 ^ (32 * i) % 2 ^ 32) ∧
  (∀ (x : Tile) (a : VecA) (i : Nat), i < 256 → a.mod % 16 = 1 → a.pm = 0 →
    let v (j : Nat) : FV := dec32 (BitVec.ofNat 32 (x.vreg a.va / 2 ^ (32 * j)))
    let sum := enc32 (fp32.round ((v (2 * i)).add (v (2 * i + 1))))
    BitVec.ofNat 32 (rsumOp x a / 2 ^ (64 * i)) = sum ∧ BitVec.ofNat 32 (rsumOp x a / 2 ^ (64 * i + 32)) = sum))

/-! ### The snapshot engine and recovery (spec/16) -/

/-- SNAP_CFG by ACTION, PARITY_SET, LEDGER_READ and SNAP_DRAIN, with no corrected word and no protected page in the way (R376 to R381, R388, R390, R392, R393). -/
def Obligations.SnapCommandsComplete : Prop :=
  ∀ (s : State) (p : Packet) (c : Cmd) (b1 : Block), s.blk.packetEntry p = some (c, b1) →
    (∀ rs : List SnapRegion, p.opcode = 0x0B00 → c.pkt.f 511 508 = 0 → c.pkt.f 264 258 ≤ 124 → b1.snapConfigurable = true →
      b1.trust.job = 0 ∨ b1.trust.sealedReq = false ∨ b1.trust.secretSet = true →
      rs = (List.range (c.pkt.f 264 258)).map (snapDesc c.pkt) →
      (∀ g b2 b3 b4, c.pkt.f 257 257 = 0 → b1.headFault c.pkt rs = none →
        g = ({
          resDa := c.pkt.f 507 456, resPages := c.pkt.f 455 432, destDa := c.pkt.f 431 380, destBytes := c.pkt.f 379 340,
          destSlots := c.pkt.f 339 332, fullEvery := c.pkt.f 331 316, mask := c.pkt.f 315 300,
          tables := (maskList 16 (c.pkt.f 315 300)).map (fun t => (t, b1.codec.tables.get [] t)) } : SnapCfg) →
        b1.descsFault (pageOf g.resDa, g.resPages) false 1 [] rs = none →
        b2 = (b1.snap.regions.map b1.snapPageList).flatten.foldl (fun (b : Block) h => b.clearWp h) b1 →
        b3 = b2.snap.areas.foldl (fun (b : Block) a => b.zeroArea a) b2 →
        b4 = b3.onLedgers (fun l => { l with lastComplete := 0 }) →
        exec (.config p) s = .next (s.after p (({ b4 with
          snap.st := .idle, snap.cfg := some g, snap.regions := rs, snap.bases := (rs.map b4.zeroBases).flatten,
          snap.kept := [], snap.rolled := none } : Block).done c 0))) ∧
      (∀ g : SnapCfg, c.pkt.f 257 257 = 1 → b1.snap.cfg = some g → b1.snap.st = .idle →
        2 * parityPages (b1.snap.regions ++ rs) + 16 ≤ g.resPages →
        b1.descsFault (pageOf g.resDa, g.resPages) true 1 b1.snap.regions rs = none →
        exec (.config p) s = .next (s.after p (({ b1 with
          snap.regions := b1.snap.regions ++ rs, snap.bases := b1.snap.bases ++ (rs.map b1.zeroBases).flatten } : Block).done
            c 0)))) ∧
    (p.opcode = 0x0B00 → c.pkt.f 511 508 = 1 → c.pkt.f 264 258 = 0 → b1.snap.st = .done → b1.snap.cut = c.pkt.f 299 268 →
      ∀ b2 : Block, b2 = b1.onLedgers (fun l => { l with lastComplete := c.pkt.f 299 268 }) →
      exec (.commit p) s = .next (s.after p (({ b2 with snap := { b2.snap with
        st := .idle, kept := b2.snap.images, images := [], bases := b2.snap.bases.filter (fun x => x.cut = c.pkt.f 299 268),
        streams := [], dones := b2.snap.dones.filter (fun d => d.1 ≠ c.pkt.f 299 268),
        areas := b2.snap.areas.map (fun a => if a.cut = c.pkt.f 299 268 then { a with
          halves := a.touched.foldl (fun (m : Sparse Nat) i => m.upd 0 i (fun h => 1 - h)) a.halves, touched := [], cut := 0 }
          else a) } } : Block).done c 0))) ∧
    (∀ (old l : Ledger) (bs : List Byte) (b2 : Block), p.opcode = 0x0B00 → c.pkt.f 511 508 = 2 → c.pkt.f 264 258 = 0 →
      b1.ledger (c.pkt.f 267 265) = some old → b1.snap.st = .unconfigured ∨ b1.snap.st = .idle → b1.stepIsOpen = false →
      old.openStep = 0 → localStatus (c.pkt.f 507 456) 2048 = none → b1.daRead (c.pkt.f 507 456) 2048 = (.ok bs false, b2) →
      l = Ledger.ofBytes bs → ledgerImageOk bs = true → l.rank = old.rank → l.openStep = 0 → l.ncur ≤ 16 → l.nstr ≤ 16 →
      exec (.ledgerSet p) s = .next (s.after p ((b2.setLedger (c.pkt.f 267 265) (some { l with
        lastComplete := old.lastComplete, lastCut := old.lastCut, cutSc := old.cutSc, gated := old.gated })).done c 0))) ∧
    (∀ (bs : List Byte) (b2 : Block), p.opcode = 0x0B00 → c.pkt.f 511 508 = 3 → c.pkt.f 264 258 = 0 →
      bs = (b1.snap.regions.zipIdx.map (fun x => leBytes 16 (fields [(96, x.1.dcut), (64, x.1.dstep), (40, x.1.pages),
        (0, b2n (b1.advised.contains x.2))]))).flatten →
      c.pkt.f 507 456 % 16 = 0 → bs ≠ [] → localStatus (c.pkt.f 507 456) bs.length = none →
      b1.writeWaits (c.pkt.f 507 456) bs.length = false → b1.daWrite (c.pkt.f 507 456) bs = (b2, none) →
      exec (.advise p) s = .next (s.after p (b2.done c 0))) ∧
    (p.opcode = 0x0B01 → b1.snap.cut = c.pkt.f 255 224 →
      (b1.snap.st = .done → exec (.snapDrain p) s = .next (s.after p (b1.done c b1.snap.bytes))) ∧
      (b1.snap.st = .opened → exec (.snapDrain p) s = .next (s.after p (b1.setWork c.id (.await 4 b1.snap.cut 0 0)))) ∧
      (b1.snap.st = .stalled → isHost (c.pkt.f 223 172) = true ∨ isPeer (c.pkt.f 223 172) = true →
        c.pkt.f 223 172 % 64 = 0 → c.pkt.f 171 132 % 64 = 0 →
        ∀ b2 : Block, b2 = { b1 with snap.st := .opened, snap.bytes := 0 } →
        exec (.snapDrain p) s = .next (s.after p ((b2.startStreams (c.pkt.f 223 172) (c.pkt.f 171 132)).setWork c.id
          (.await 4 b1.snap.cut 0 0))))) ∧
    (∀ bs : List Byte, p.opcode = 0x0B03 →
      let k := c.pkt.f 75 73
      let kept := if b1.snap.st = .done then b1.snap.images else b1.snap.kept
      ((k = 7 ∧ c.pkt.f 72 72 = 0 ∧ bs = b1.updSection) ∨
        (∃ l, c.pkt.f 72 72 = 0 ∧ k ≠ 7 ∧ b1.ledger k = some l ∧ bs = l.bytes) ∨
        (∃ l im, c.pkt.f 72 72 = 1 ∧ k ≠ 7 ∧ b1.ledger k = some l ∧ kept.find? (fun x => x.hidx = k) = some im ∧ bs = im.led)) →
      rspStatus (c.pkt.f 127 76) bs.length = none →
      exec (.ledgerRead p) s = .next (s.after p (b1.respond c (c.pkt.f 127 76) bs 0 bs.length))) ∧
    (∀ (rank : Nat) (t : TreeDef), p.opcode = 0x0B04 →
      let da := c.pkt.f 255 204
      let n := c.pkt.f 203 180
      let k := c.pkt.f 175 173
      let res : Nat × Nat := match b1.snap.cfg with | some g => (pageOf g.resDa, g.resPages) | none => (0, 0)
      b1.hosted[k]? = some rank → b1.tree (c.pkt.f 179 176) = some t → b1.snapConfigurable = true → da % 0x10000 = 0 → 0 < n →
      t.members.length = 8 → rank ∈ t.members → 2 * b1.unitCount k ≤ n → inHbm da (0x10000 * n) = true →
      b1.pagesAll da (0x10000 * n) (fun a => attrClass a = 3) = true → overlap (pageOf da, n) res = false →
      (∀ r ∈ b1.snap.regions, overlap (b1.snapPages r) (pageOf da, n) = false) →
      (∀ a ∈ b1.snap.areas, a.hidx ≠ k → overlap (pageOf a.da, a.pages) (pageOf da, n) = false) →
      ∀ (a : ParArea) (mine : List SnapRegion) (pages : List Nat) (b2 b3 : Block),
        a = { hidx := k, da := da, pages := n, tree := t.num, halves := [], touched := [], cut := 0 } →
        mine = b1.snap.regions.filter (fun r => r.isParity && r.hidx = k) → pages = (mine.map b1.snapPageList).flatten →
        b2 = pages.foldl (fun (b : Block) g => b.clearWp g) b1 →
        b3 = { b2 with
          snap.areas := b2.snap.areas.filter (fun (x : ParArea) => x.hidx ≠ k) ++ [a]
          snap.bases := b2.snap.bases.filter (fun (x : ParBase) => !pages.contains x.page) ++ (mine.map b2.zeroBases).flatten } →
        exec (.paritySet p) s = .next (s.after p ((b3.zeroArea a).done c 0)))

/-- RESTORE and FAILOVER by ACTION, first of the recovery commands that wait (R395, R398 to R400). -/
def Obligations.RecoveryCommandsBegin : Prop :=
  ∀ (s : State) (p : Packet) (c d : Cmd) (b1 b2 : Block), s.blk.packetEntry p = some (c, b1) →
    b2 = b1.setWork c.id (.await 6 0 0 0) → d = { c with work := .await 6 0 0 0 } →
    (b2.mer.running.any (fun x => match x.work with | .restore _ => true | .rebuild _ => true | _ => false)) = false →
    b2.mer.running.find? (fun x => x.work = .await 6 0 0 0) = some d →
    let then_ (b : Block) : State := s.after p (b.recoverKick b1.mer.running.length)
    (∀ addr : Nat, p.opcode = 0x0B02 → b2.snap.st = .unconfigured ∨ b2.snap.st = .idle → b2.stepIsOpen = false →
      b2.recoveryBusy = false → b2.hosted[c.pkt.f 371 369]? = some (c.pkt.f 387 372) →
      regionOf (c.pkt.f 511 460) = .host addr → 0 < c.pkt.f 459 420 →
      exec (.restore p) s = .next (then_ ((b2.setWork c.id (.restore {
        buf := [], got := 0, key := none, pre := [], frame := 0, segs := 0, fixes := 0, firstFix := 0 })).askHost addr
          (Nat.min 2048 (c.pkt.f 459 420)) (.restore c.id 0 (Nat.min 2048 (c.pkt.f 459 420)))))) ∧
    (p.opcode = 0x0B05 → 1 ≤ c.pkt.f 411 409 → c.pkt.f 411 409 ≤ 4 → b2.recoveryBusy = false →
      (c.pkt.f 511 508 = 0 →
        let cut := c.pkt.f 507 476
        let here : Bool := b2.snap.st = .done && b2.snap.cut = cut
        ∀ (images : List SnapImage) (b3 b4 b5 b6 b7 b8 b9 : Block),
          images = (if here then b2.snap.images else b2.snap.kept.filter (fun x => x.cut = cut)) → images ≠ [] → cut ≠ 0 →
          here = true ∨ (b2.ledgerList.any (fun l => l.2.lastComplete = cut)) = true →
          b3 = b2.rollFabric (c.pkt.f 427 412) →
          b4 = (if here then { b3 with snap := b3.snap.keepDone } else b3.abandonCut) →
          b5 = (b3.rollPages cut).foldl (fun (b : Block) x => b.memWrite (0x10000 * x.1) (b.peek (0x10000 * x.2) 0x10000)) b4 →
          b6 = { b5 with snap.bases := [] } →
          images.foldl (fun (acc : Block × List Nat) im =>
            match acc.1.ledger im.hidx with
            | none => acc
            | some old =>
              let x := acc.1.restoreLedger im.hidx { Ledger.ofBytes im.led with lastCut := old.lastCut, lastComplete := cut }
              (x.1, acc.2 ++ x.2)) (b6, ([] : List Nat)) = (b7, []) →
          b8 = (match images.head? with | some im => b7.setStepRec im.stepImg | none => b7) →
          b9 = ((b8.snap.regions.filter (fun x => !x.isParity)).map (fun x => x.hidx)).eraseDups.foldl
            (fun (b : Block) k => b.invalidate k 1) b8 →
          exec (.rollback p) s = .next (then_ (({ b9 with
            snap.rolled := some (cut, match b9.ledger 0 with | some l => l.stepNext | none => 0) } : Block).completeId c.id
              Status.ok 0 0))) ∧
      (∀ (rank : Nat) (a : ParArea), c.pkt.f 511 508 = 1 → b2.hosted[c.pkt.f 408 406]? = some rank →
        b2.snap.areas.find? (fun a => a.hidx = c.pkt.f 408 406) = some a → c.foLost.contains rank = true → b2.groupIndex a < 8 →
        c.pkt.f 405 405 = 0 →
        ∀ todo : List (Nat × Nat × Nat), todo = ((b2.snap.regions.filter (fun r => r.isParity && r.hidx = c.pkt.f 408 406)).map
            (fun r => (List.range (ceilDiv r.pages 7)).map (fun y => ((List.range 8).filter (fun ch =>
              ch = 7 || decide (7 * y + ch < r.pages))).map (fun ch => (r.region, y, ch))))).flatten.flatten →
          exec (.rebuild p) s = .next (then_ (b2.rebuildNext d a (todo.length + 1) todo))))

/-- PATH_GRANT, WP_COPY_DONE, STREAM_COMPLETE and STREAM_WRITE_FAIL (R306, R382, R384, R388). -/
def Obligations.DrainEvents : Prop :=
  ∀ s : State,
    (∀ path : Nat,
      let last := s.blk.tier.grants.get [] path
      let note (x : Bool) (b : Block) : State := s.put { b with tier.grants := b.tier.grants.set [] path ((x :: last).take 16) }
      (s.blk.drainReady path = true → (last.filter id).length < s.blk.tier.share →
        exec (.pathGrant path) s = .next (note true (s.blk.drainGrant path))) ∧
      (s.blk.drainReady path = false ∨ s.blk.tier.share ≤ (last.filter id).length → (s.blk.tierNext path).isSome = true →
        exec (.pathGrant path) s = .next (note false (s.blk.tierGrant path)))) ∧
    (∀ (g dst : Nat) (r : SnapRegion), s.blk.snapRegionOf g = some r → attrWp (s.blk.attr g) = true →
      (r.isParity = true → s.blk.parityFree = some dst →
        let b := (s.blk.copyPage g dst).clearWp g
        exec (.wpCopyDone g) s = .next (s.put { b with
          snap.bases := (s.blk.copyPage g dst).snap.bases ++
            [{ page := g, cut := (s.blk.copyPage g dst).snap.last, res := some dst }] })) ∧
      (r.isParity = false → s.blk.viewOf g = none → s.blk.snapFree.head? = some dst →
        exec (.wpCopyDone g) s = .next (s.put { (s.blk.copyPage g dst).clearWp g with
          snap.copies := (s.blk.copyPage g dst).snap.copies ++ [(g, dst)] }))) ∧
    (∀ (k : Nat) (st : SnapStream), s.blk.snap.streams.find? (fun x => x.hidx = k) = some st → s.blk.snap.st = .opened →
      st.complete = false →
      (st.trailer = true → st.buf = [] → st.acks = 0 →
        ∀ b : Block, b = { s.blk with host.reqs := s.blk.host.reqs.filter (fun r => r.2 ≠ HostReq.stream k) } →
        exec (.streamComplete k) s = .next (s.put (b.setStream { st with complete := true }).cutTest)) ∧
      exec (.streamWriteFail k) s = .next (s.put ({ s.blk with
        snap.st := .stalled,
        fab.reqs := s.blk.fab.reqs.filter (fun r => match r.2.2 with | .stream _ _ _ => false | _ => true),
        host.reqs := s.blk.host.reqs.filter (fun r => match r.2 with | .stream _ => false | _ => true) }.snapError
          Status.hostAccessFail k 0 s.blk.snap.cut)))

/-- PARITY_DELTA, PARITY_DONE, FETCH, FETCH_DATA and REBUILD_FETCH_TIMEOUT (R389, R391, R400). -/
def Obligations.ParityMessages : Prop :=
  ∀ (s : State) (src no : Nat) (m : Msg),
    (∀ (a : ParArea) (pos : Nat) (bs : List Byte) (b1 b2 : Block) (e : Bool),
      s.blk.inMsg Kind.parityDelta src no = some m → s.blk.unitAt m.dest m.shard (m.offset / 0x10000) = some (a, pos) →
      a.touched = [] ∨ a.cut = m.seq →
      let h := a.halves.get 0 pos
      let first := !a.touched.contains pos
      s.blk.memRead (s.blk.halfDa a pos (if first then h else 1 - h)) 0x10000 = (.data bs e, b1) →
      b2 = (b1.dropMsg m).memWrite (b1.halfDa a pos (1 - h)) (xorBytes bs m.data) →
      exec (.parityDelta src no) s = .next (s.put (({ b2 with snap.areas := b2.snap.areas.map (fun (x : ParArea) =>
        if x.hidx = a.hidx then { x with cut := m.seq, touched := if first then pos :: x.touched else x.touched } else x) } :
          Block).ackMsg m true))) ∧
    (∀ b1 : Block, s.blk.inMsg Kind.parityDone src no = some m → b1 = s.blk.dropMsg m →
      (m.seq, m.tree, m.node) ∉ b1.snap.dones → exec (.parityDone src no) s = .next (s.put
        ({ b1 with snap.dones := b1.snap.dones ++ [(m.seq, m.tree, m.node)] } : Block).cutTest)) ∧
    (∀ (r : Option (List Byte)) (b1 : Block), s.blk.inMsg Kind.fetch src no = some m →
      (s.blk.dropMsg m).fetchLocal m.dest m.seq m.level m.shard (m.offset / 0x10000) = (r, b1) →
      exec (.fetch src no) s = .next (s.put (match r with
        | some bs => b1.post { Msg.zero with
            kind := Kind.fetchData, src := m.dest, dest := m.src, vl := 6, tree := m.tree, seq := m.seq, shard := m.shard,
            level := m.level, offset := m.offset, length := bs.length, data := bs } none
        | none => b1.unreach m))) ∧
    (∀ (c : Cmd) (w : RebWork) (a : ParArea) (y ch : Nat) (rest : List (Nat × Nat × Nat)) (b1 : Block),
      s.blk.inMsg Kind.fetchData src no = some m →
      s.blk.mer.running.find? (fun c => match c.work with | .rebuild _ => c.foCut = m.seq | _ => false) = some c →
      c.work = .rebuild w → s.blk.snap.areas.find? (fun a => a.hidx = c.foHidx) = some a → m.tree = a.tree →
      w.todo = (m.shard, y, ch) :: rest →
      let key := ((s.blk.groupOf a).findIdx (· = m.src), m.level, m.offset / 0x10000)
      key ∈ w.waits →
      b1 = { s.blk.dropMsg m with fab.reqs := s.blk.fab.reqs.filter (fun r => !(r.2.2 = .fetch c.id && r.2.1 = m.src)) } →
      (w.waits.erase key = [] → exec (.fetchData src no) s = .next (s.put
        ((b1.rebuildWrite c a m.shard y ch (xorBytes w.acc m.data)).rebuildNext c a (rest.length + 1) rest))) ∧
      (w.waits.erase key ≠ [] → exec (.fetchData src no) s = .next (s.put
        (b1.setWork c.id (.rebuild { w with acc := xorBytes w.acc m.data, waits := w.waits.erase key }))))) ∧
    (∀ (c : Cmd) (w : RebWork) (a : ParArea) (x : Nat × Nat × Nat) (xs : List (Nat × Nat × Nat)),
      s.blk.mer.running.find? (fun c => match c.work with
        | .rebuild w => !w.waits.isEmpty && decide (w.since + 25000000 ≤ s.blk.now)
        | _ => false) = some c → c.work = .rebuild w →
      s.blk.snap.areas.find? (fun a => a.hidx = c.foHidx) = some a → w.waits = x :: xs →
      exec .rebuildFetchTimeout s = .next (s.put (s.blk.rebuildLost c ((s.blk.groupOf a).getD x.1 0))))

/-! ### Sidereal time and the Ephemeris (spec/03) -/

/-- SID_CLK_TICK, SID_CLK_ABSENT, SID_CLK_VALID, SID_MARK and HOLDOVER_LIMIT (R68, R70, R73, R75, R76, R82, R506).
SID_LOAD_ARM and SC_NOW_READ (R71, R72). -/
def Obligations.SiderealTime : Prop :=
  (∀ s : State,
    let x := s.blk.sid
    let low := x.would % 2 ^ 24
    let marked : Block := { s.blk with sid.sinceMark := 0 }
    (∀ (valid : Bool) (x1 : Sid), x1 = { x with
        missing := (if valid then 0 else Nat.min (x.missing + 1) 8), validRun := (if valid then Nat.min (x.validRun + 1) 64 else 0),
        sinceMark := Nat.min (x.sinceMark + 1) 32, holdFor := x.holdFor - 1,
        holdTicks := (if x.state = .holdover then Nat.min (x.holdTicks + 1) (2 ^ 26 - 1) else x.holdTicks) } →
      (x.state = .unset ∨ (x.state = .acquire ∧ x.checking = false) ∨ 0 < x.holdFor →
        exec (.sidClkTick valid) s = .next (s.put { s.blk with sid := x1 })) ∧
      (x.state = .locked ∨ x.state = .holdover ∨ x.state = .lost ∨ (x.state = .acquire ∧ x.checking = true) → x.holdFor = 0 →
        ∀ (v : Nat) (b : Block), v = (x.sc.toNat + 1) % 2 ^ 64 →
          b = { Block.markLate x.sc.toNat v { s.blk with sid := x1 } with sid := { x1 with sc := BitVec.ofNat 64 v } } →
          exec (.sidClkTick valid) s = .next (s.put (if v % 2 ^ 24 = 0 then b.newEpoch else b)))) ∧
    (x.clkValid = true → 8 ≤ x.missing →
      (x.state = .acquire → exec .sidClkAbsent s = .next (s.put { s.blk with
        sid := { x with clkValid := false, state := .unset, checking := false } })) ∧
      (x.state = .locked → exec .sidClkAbsent s = .next (s.put (Block.logError Status.holdover 10 0 0 0 { s.blk with
        sid := { x with clkValid := false, state := .holdover, holdTicks := 0 }, pow.sidClk := false }))) ∧
      (x.state = .holdover ∨ x.state = .lost ∨ x.state = .unset →
        exec .sidClkAbsent s = .next (s.put { s.blk with sid.clkValid := false }))) ∧
    (64 ≤ x.validRun → exec .sidClkValid s = .next (s.put { s.blk with sid.clkValid := true })) ∧
    (∀ long : Bool, x.state = .unset ∨ x.state = .lost → exec (.sidMark long) s = .next (s.put marked)) ∧
    (x.state = .acquire → x.checking = false → 32 ≤ x.sinceMark → x.clkValid = true →
      exec (.sidMark false) s = .next (s.put marked.firstMark)) ∧
    (x.state = .acquire → x.checking = true → 32 ≤ x.sinceMark → low = 0 →
      exec (.sidMark false) s = .next (s.put ({ marked.checkMark with sid.timeDue := marked.checkMark.timeDue }))) ∧
    (x.state = .locked → 32 ≤ x.sinceMark →
      let due (b : Block) : State := s.put { b with sid.timeDue := b.timeDue }
      let slipped : Block := { marked with sid.slips := Nat.min (x.slips + 1) 0xFFFF }
      (low = 0 → exec (.sidMark false) s = .next (due marked)) ∧
      (low = 1 → exec (.sidMark false) s = .next (due { slipped with sid.holdFor := 1 })) ∧
      (low = 2 ^ 24 - 1 → exec (.sidMark false) s = .next (due (slipped.stepSc (x.sc.toNat + 1)))) ∧
      (1 < low → low < 2 ^ 24 - 1 → exec (.sidMark false) s = .next (s.put { marked with
        sid.spurious := Nat.min (x.spurious + 1) 0xFFFF }))) ∧
    (∀ long : Bool, x.state = .locked ∨ x.state = .holdover ∨ x.state = .acquire → long = true ∨ x.sinceMark < 32 →
      exec (.sidMark long) s = .next (s.put { marked with sid.spurious := Nat.min (x.spurious + 1) 0xFFFF })) ∧
    (x.state = .holdover → 32 ≤ x.sinceMark → x.clkValid = true → low = 0 →
      exec (.sidMark false) s = .next (s.put { marked.lock with sid.timeDue := marked.lock.timeDue })) ∧
    (x.state = .holdover → 2 ^ 25 ≤ x.holdTicks → exec .holdoverLimit s = .next (s.put s.blk.timeLost))) ∧
  (∀ s : State, s.blk.linked = true → s.blk.isAwake = true → s.blk.boot.ready = true →
    (∀ v : Nat,
      (s.blk.trust.job ≠ 0 → exec (.sidLoadArm v) s = .next s) ∧
      (∀ b : Block, s.blk.trust.job = 0 → b = { s.blk with sid.loadEpoch := bits v 63 24 } →
        (bit v 0 = false ∨ (s.blk.sid.state ≠ .unset ∧ s.blk.sid.state ≠ .lost) → exec (.sidLoadArm v) s = .next (s.put b)) ∧
        (bit v 0 = true → s.blk.sid.state = .unset ∨ s.blk.sid.state = .lost →
          exec (.sidLoadArm v) s = .next (s.put { b with sid := { b.sid with
            state := .acquire, checking := false, holdFor := 0, codes := [] } })))) ∧
    exec (.scNowRead 0 8) s = .next (s.put (s.blk.emit (.readData (leBytes 8 s.blk.sid.sc.toNat)))) ∧
    exec (.scNowRead 0 4) s = .next (s.put (({ s.blk with
      sid.latchHi := some (s.blk.sid.sc.toNat / 2 ^ 32) } : Block).emit (.readData (leBytes 4 (s.blk.sid.sc.toNat % 2 ^ 32))))) ∧
    exec (.scNowRead 4 4) s = .next (s.put (({ s.blk with sid.latchHi := none } : Block).emit
      (.readData (leBytes 4 (s.blk.sid.latchHi.getD (s.blk.sid.sc.toNat / 2 ^ 32)))))))

/-- EPH_WRITE, EPH_CANCEL and EPH_CANCEL_APPLY (R77 to R80, R83).
The six kinds of Ephemeris event, on time, outside Shutter (R79, R81, R369, R382, R460). -/
def Obligations.EphemerisEntries : Prop :=
  ((∀ (s : State) (p : Packet) (c : Cmd) (b1 b2 : Block), s.blk.packetEntry p = some (c, b1) →
    (p.opcode = 0x0A00 → (∀ i, i < c.pkt.f 15 0 → ephEntryBad (ephWord c.pkt i) = none ∧ b1.now < ephFire c.pkt i) →
      b1.sid.state = .locked → b1.eph.entries.length + c.pkt.f 15 0 ≤ 4096 →
      b2 = { b1 with eph := {
        nextSerial := b1.eph.nextSerial + c.pkt.f 15 0
        entries := b1.eph.entries ++ (List.range (c.pkt.f 15 0)).map (fun i =>
          let w := ephWord c.pkt i
          { serial := b1.eph.nextSerial + i, fire := BitVec.ofNat 64 (ephFire c.pkt i), arg0 := bits w 159 128,
            arg1 := bits w 191 160, guardEn := bit w 47, guardCtr := bits w 63 51, guardCond := bits w 50 48,
            guardVal := bits w 127 96, tag := bits w 95 64, kind := bits w 35 32, lateBy := 0 }) } } →
      exec (.ephWrite p) s = .next (s.after p (b2.done c (4096 - b2.eph.entries.length)))) ∧
    (p.opcode = 0x0A01 → exec (.ephCancel p) s = .next (s.after p (b1.setWork c.id (.await 2 b1.now 0 0))))) ∧
  (∀ (s : State) (c : Cmd) (b1 : Block),
    s.blk.mer.running.find? (fun c => match c.work with | .await 2 sc _ _ => decide (sc < s.blk.now) | _ => false) = some c →
    let hit (e : EphEntry) : Bool :=
      decide ((e.tag ^^^ c.pkt.f 127 96) &&& c.pkt.f 95 64 = 0) && !(decide (e.fire.toNat ≤ s.blk.now) &&
        (s.blk.guardHolds e || (s.blk.shut.shut && decide (e.kind ≤ 3))))
    b1 = { s.blk with eph.entries := s.blk.eph.entries.filter (fun e => !hit e) } →
    exec .ephCancelApply s = .next (s.put (b1.done c (s.blk.eph.entries.filter hit).length)))) ∧
  (∀ (s : State) (e : EphEntry), s.blk.eph.entries.find? (fun x => x.serial = e.serial && x.kind = e.kind) = some e →
    e.fire.toNat = s.blk.now → s.blk.guardHolds e = true → s.blk.shut.shut = false →
    let fired (b : Block) : State := s.put { b with eph.entries := b.eph.entries.filter (fun x => x.serial ≠ e.serial) }
    let op (set : Bool) : SyncOp := { ctr := e.arg0 % 8192, req := 218, set := set, val := e.arg1, cmd := none }
    (s.blk.isAwake = true → s.blk.ephBefore e = false →
      (∀ x : Coll, s.blk.fab.colls.find? (fun y => y.isHeld && y.hold = e.kind && y.tag = e.arg0) = some x →
        ∀ b : Block, b = { s.blk.setColl { x with startable := true, order := s.blk.fab.nextOrder } with
            fab.nextOrder := s.blk.fab.nextOrder + 1 } →
          (e.kind = 1 → exec (.ephCollStart e.serial) s = .next (fired (b.collKick 17))) ∧
          (e.kind = 2 → exec (.bucketRelease e.serial) s = .next (fired (b.collKick 17)))) ∧
      (s.blk.fab.colls.find? (fun y => y.isHeld && y.hold = e.kind && y.tag = e.arg0) = none → s.blk.fab.releases.length < 256 →
        ∀ b : Block, b = { s.blk with
            fab.releases := s.blk.fab.releases ++ [{ kind := e.kind, arg := e.arg0, due := e.fire.toNat, tag := e.tag }] } →
          (e.kind = 1 → exec (.ephCollStart e.serial) s = .next (fired b)) ∧
          (e.kind = 2 → exec (.bucketRelease e.serial) s = .next (fired b))) ∧
      (∀ g : SnapCfg, e.kind = 3 → s.blk.snap.st = .idle → s.blk.snap.cfg = some g → s.blk.recovering = false →
        (∀ c ∈ s.blk.mer.running, c.pkt.opcode ≠ 0x0800) → (∀ l ∈ s.blk.ledgerList, l.2.lastCut < e.arg0 ∧ l.2.gated = false) →
        0 < e.arg0 → s.blk.train.invalid = [] → s.blk.train.updStarted ≤ s.blk.train.updFinal →
        exec (.snapCut e.serial) s = .next (fired (s.blk.openCut g e.arg0))) ∧
      (e.kind = 4 → exec (.plChange e.serial) s = .next (fired
        (s.blk.onPower (fun p => { p with requested := e.arg0 % 8 })))) ∧
      (e.kind = 5 → exec (.ephSyncAdd e.serial) s = .next (fired (s.blk.issueSync (op false)))) ∧
      (e.kind = 6 → exec (.ephSyncSet e.serial) s = .next (fired (s.blk.issueSync (op true))))) ∧
    (s.blk.isAwake = false → e.kind = 5 → exec (.ephSyncAdd e.serial) s = .next (s.put (s.blk.wakeBy 4 10 0))))

/-! ### Power, clocks and sleep (spec/20) -/

/-- PL_SET, the limiter events and the events of a level or clock switch (R460 to R467). -/
def Obligations.PowerCommandsAndEvents : Prop :=
  (∀ (s : State) (p : Packet) (c : Cmd) (b1 b2 : Block), s.blk.packetEntry p = some (c, b1) → p.opcode = 0x0D00 →
    b2 = b1.onPower (fun x => { x with requested := c.pkt.f 127 125 }) →
    exec (.plSet p) s = .next (s.after p (b2.done c (8 * b2.pow.requested + b2.pow.target)))) ∧
  (∀ s : State,
    let x := s.blk.pow
    let go (f : PowerS → PowerS) : State := s.put (s.blk.onPower f)
    (x.throttle = false → exec .throttleAssert s = .next (go (fun p => { p with throttle := true, held := 0 }))) ∧
    (x.throttle = true →
      exec .throttleRelease s = .next (go (fun p => { p with throttle := false, held := 0 })) ∧
      exec .throttlePeriod s = .next (s.put (Block.logError Status.throttled 12 0 2 (x.held + 10) { s.blk with
        pow.held := x.held + 10, pow.throttleTime := Nat.min (x.throttleTime + 1) (2 ^ 32 - 1) }))) ∧
    exec .fastCurrentTrip s = .next (go (PowerS.impose 3 7)) ∧
    exec .fastCurrentRelease s = .next (go (PowerS.release 3)) ∧
    (∀ (watts : Nat) (b : Block), b = { s.blk with pow.watts := watts } →
      (exec (.inputPowerStep watts) s = .next (s.put (if x.cap < watts
        then b.onPower (fun p => p.impose 4 (Nat.min 7 (p.target + 1))) else b))) ∧
      (exec (.inputPowerRelease watts) s = .next (s.put (if 100 * watts < 95 * x.cap
        then b.onPower (PowerS.release 4) else b)))) ∧
    (∀ (sensor temp : Nat) (b : Block), sensor < 5 → b = { s.blk with pow.dieTemps := x.dieTemps.set 0 sensor temp } →
      (exec (.dieTempStep sensor temp) s = .next (s.put (if b.pow.dieTemps.any (fun e => decide (100 ≤ e.2))
        then b.onPower (fun p => p.impose 5 (Nat.min 7 (p.target + 1))) else b))) ∧
      (exec (.dieTempHard sensor temp) s = .next (s.put (if b.pow.dieTemps.any (fun e => decide (105 ≤ e.2))
        then b.onPower (PowerS.impose 6 7) else b)))) ∧
    (∀ (t0 t1 t2 t3 t4 : Nat) (b : Block), b = { s.blk with
        pow.dieTemps := ((((x.dieTemps.set 0 0 t0).set 0 1 t1).set 0 2 t2).set 0 3 t3).set 0 4 t4 } →
      exec (.dieTempRelease [t0, t1, t2, t3, t4]) s = .next (s.put (if b.pow.dieTemps.all (fun e => decide (e.2 < 97))
        then b.onPower (fun p => (p.release 5).release 6) else b))) ∧
    exec .stackTempStep s = .next (if s.blk.stackLimit then go (fun p => p.impose 7 (Nat.min 7 (p.target + 1))) else s) ∧
    exec .limiterReturnStep s = .next (go (PowerS.returnStep s.blk.stackLimit)) ∧
    (x.eff = 7 → s.blk.overLimit = true → bit s.blk.shut.active 4 = false →
      exec .pl7LimitPersist s = .next (s.put (s.blk.latchCause 4 Status.thermalLimit))) ∧
    (s.blk.overLimit = false →
      exec .thermalCauseClear s = .next (s.put { s.blk with shut.active := setBit s.blk.shut.active 4 false })) ∧
    (x.switching = true → x.target < x.eff → exec .plVoltageReached s = .next (s.put { s.blk with
      pow := { x with eff := x.target, switching := false, limiter := x.boundAt x.target } })) ∧
    (x.switching = true → x.target = x.eff → exec .voltageSlewDownDone s = .next (s.put { s.blk with pow.switching := false })) ∧
    (s.blk.sid.state = .locked → exec .clockSourceSwitchDone s = .next (s.put { s.blk with pow.sidClk := true })))

/-- SLEEP by STATE, SLEEP_ENTRY_DONE, SLEEP_WAKE_DONE, the wake pins and pattern, D3HOT_ENTRY, D0_ENTRY and PME_TURN_OFF (R468 to R473). -/
def Obligations.SleepCommandsAndEvents : Prop :=
  (∀ (s : State) (p : Packet) (c : Cmd) (b1 : Block), s.blk.packetEntry p = some (c, b1) → p.opcode = 0x0D01 →
    c.pkt.f 125 0 = 0 →
    (c.pkt.f 127 126 = 1 → b1.sleepBar 1 (some c.id) = none →
      ∀ b2 : Block, b2 = b1.setWork c.id (.await 7 1 0 0) →
        exec (.sleepIdleGate p) s = .next (s.after p { b2 with pow.sleep := .entering 1, pow.sleepCmd := some c.id })) ∧
    (c.pkt.f 127 126 = 2 → b1.sleepBar 2 (some c.id) = none →
      ∀ b2 b3 : Block, b2 = b1.setWork c.id (.await 7 2 0 0) →
        b3 = { b2 with pow.sleep := .entering 2, pow.sleepCmd := some c.id } →
        exec (.sleepStow p) s = .next (s.after p ((List.range 8).foldl
          (fun (b : Block) m => if (b.port m).st.isUp then b.queueLocal m 5 0 0 else b) b3))) ∧
    (c.pkt.f 127 126 = 3 → b1.sleepBar 3 (some c.id) = none →
      ∀ b2 : Block, b2 = b1.done c 0 →
        exec (.sleepDark p) s = .next (s.after p { b2 with pow.sleep := .entering 3, pow.sleepCmd := none }))) ∧
  (∀ s : State,
    (s.blk.pow.sleep = .entering 1 → exec .sleepEntryDone s = .next (s.put { s.blk with
      pow.sleep := .asleep 1, pow.sleptAt := s.blk.now, pins.wakeDriven := false })) ∧
    (s.blk.pow.sleep = .entering 2 → s.blk.sleepUnsent = false → exec .sleepEntryDone s = .next (s.put { s.blk with
      pow.sleep := .asleep 2, pow.sleptAt := s.blk.now, pins.wakeDriven := false,
      fab.ports := s.blk.fab.ports.map (fun (e : Nat × Port) =>
        (e.1, { e.2 with st := if e.2.st.isUp then .asleep else e.2.st })) })) ∧
    (s.blk.pow.sleep = .entering 3 → s.blk.pow.darkWake = false →
      exec .sleepEntryDone s = .next (s.put { s.blk.moduleReset with boot.dark := true })) ∧
    (∀ (t src id : Nat) (b : Block), s.blk.pow.sleep = .waking t src → b = { s.blk with
        pow.sleep := .awake, pow.sleepCmd := none, pow.sleepTime := Nat.min (s.blk.now - s.blk.pow.sleptAt) (2 ^ 32 - 1),
        pow.wakeReg := fields [(28, src), (26, t)] } →
      (s.blk.pow.sleepCmd = none → exec .sleepWakeDone s = .next (s.put b)) ∧
      (s.blk.pow.sleepCmd = some id → exec .sleepWakeDone s = .next (s.put (b.completeId id Status.ok 0
        ((s.blk.now - s.blk.pow.sleptAt) % 2 ^ 32 * 2 ^ 32 + src))))) ∧
    (∀ (rested : Bool) (b : Block), s.blk.pins.wakeDriven = false → s.blk.pow.wakeIgnored = false ∨ rested = true →
      b = s.blk.wakeBy 2 12 0xFFFF → exec (.wakePin rested) s = .next (s.put { b with
        pow.wakeIgnored := s.blk.boot.dark || decide (s.blk.pow.sleep ≠ .awake) })) ∧
    exec .wakeDriveEnd s = .next (s.put { s.blk with pins.wakeDriven := false }) ∧
    (∀ m : Nat, (s.blk.port m).st = .asleep → exec (.wakePattern m) s = .next (s.put
      ((s.blk.setPort m { s.blk.port m with st := .train }).wakeBy 3 7 m))) ∧
    (∀ b : Block, b = { s.blk with host.d3hot := true } → s.blk.isAwake = true → s.blk.isReady = true →
      s.blk.sleepBar 2 none = none → exec .d3hotEntry s = .next (s.put (b.beginSleep 2 none))) ∧
    exec .d0Entry s = .next (s.put (Block.wakeBy 1 13 0 { s.blk with host.d3hot := false })) ∧
    exec .pmeTurnOff s = .next s)

/-- CSU_CFG, CSU_READ and CSU_WRITE (R456, R457). -/
def Obligations.TallyCommandsComplete : Prop :=
  ∀ (s : State) (p : Packet) (c : Cmd) (b1 : Block), s.blk.packetEntry p = some (c, b1) →
    (p.opcode = 0x0E00 →
      let f := c.pkt.f
      let i := f 511 507
      let u := b1.csu.get Csu.zero i
      let on := bit c.pkt.pnum 506
      on = false ∨ u.enable = false → f 505 502 < 8 → f 493 492 ≠ 3 → on = true ∨ u.pend = [] →
      ∀ u1 : Csu, u1 = { u with
        enable := on, kind := f 505 502, index := f 501 494, poly := f 493 492, lo := f 491 440, hi := f 439 388,
        limit := f 387 348, expect := f 347 284, matchCtr := f 283 271, missCtr := f 270 258, sigEn := bit c.pkt.pnum 257 } →
      let u2 : Csu := if bit c.pkt.pnum 256 then
        { u1 with state := polyInit u1.poly, bytes := 0, done := false, latched := 0, discarded := 0 } else u1
      exec (.csuCfg p) s = .next (s.after p (({ b1 with csu := b1.csu.set Csu.zero i u2 } : Block).done c 0))) ∧
    (∀ bs : List Byte, p.opcode = 0x0E01 →
      bs = ((maskList 32 (c.pkt.f 75 44)).map (fun i => (b1.csu.get Csu.zero i).image i)).flatten →
      rspStatus (c.pkt.f 127 76) bs.length = none →
      exec (.csuRead p) s = .next (s.after p (b1.respond c (c.pkt.f 127 76) bs 0 0))) ∧
    (p.opcode = 0x0E02 →
      let i := c.pkt.f 127 123
      let u := b1.csu.get Csu.zero i
      ∀ u1 : Csu, u.enable = false → u.pend = [] →
        u1 = { u with state := c.pkt.f 255 192, bytes := c.pkt.f 191 128, done := false, latched := 0 } →
        exec (.csuWrite p) s = .next (s.after p (({ b1 with csu := b1.csu.set Csu.zero i u1 } : Block).done c 0)))

/-! ### The trust engine (spec/17) -/

/-- SESSION_OPEN, SESSION_CLOSE, ATTEST, KEY_ROTATE by TARGET and DEBUG_UNLOCK (R413, R416, R417, R419, R421, R422). -/
def Obligations.TrustCommandsComplete : Prop :=
  ∀ (s : State) (p : Packet) (c : Cmd) (b1 : Block), s.blk.packetEntry p = some (c, b1) →
    (∀ (e n : Nat) (b2 b3 b4 : Block) (lms msg : List Byte) (num : List Byte), p.opcode = 0x0C00 → b1.sessionBar c.pkt = none →
      rspStatus (c.pkt.f 127 76 * 0x1000) 5852 = none → b1.draw 384 = (e, b2) → b2.draw 256 = (n, b3) →
      let ownerEph := (c.pkt.params.drop 0x40).take 96
      let ownerNonce := (c.pkt.params.drop 0x20).take 32
      let head := fit 96 (Config.ecdsaPub e) ++ leBytes 32 n ++ num ++ zeros 6
      num = leBytes 2 (c.pkt.f 47 32) → msg = head ++ ownerEph ++ ownerNonce → b3.pbSign msg = (lms, b4) →
      ∀ prk : Nat, prk = Config.hkdfExtract (ownerNonce ++ leBytes 32 n) (Config.ecdhX e ownerEph) →
      ∀ b5 : Block, b5 = { b4 with trust.sessions := b4.trust.sessions ++ [{
          num := c.pkt.f 47 32, key := Config.hkdfExpand prk (ascii "A9 seal" ++ num) 32,
          salt := Config.hkdfExpand prk (ascii "A9 salt" ++ num) 4, last := 0, fails := 0 }] } →
      exec (.sessionOpen p) s = .next (s.after p (b5.respond c (c.pkt.f 127 76 * 0x1000)
        (head ++ deviceSign msg ++ lms ++ fit 2784 b5.trust.pbCert ++ leBytes 48 (Config.sha384 c.pkt.params) ++ zeros 280) 0 5852))) ∧
    (p.opcode = 0x0C01 → c.sealedOk.isSome = true → c.pkt.session = c.pkt.f 15 0 →
      exec (.sessionClose p) s = .next (s.after p (b1.done c 0)) ∧ b1.session (c.pkt.f 15 0) = none) ∧
    (∀ (head lms : List Byte) (b2 : Block), p.opcode = 0x0C02 → c.pkt.f 307 256 % 64 = 0 → rspStatus (c.pkt.f 307 256) 5796 = none →
      0 < b1.trust.bootLeft → head = b1.reportHead (c.pkt.params.take 32) → b1.pbSign head = (lms, b2) →
      exec (.attest p) s = .next (s.after p (b2.respond c (c.pkt.f 307 256)
        (head ++ deviceSign head ++ lms ++ fit 2784 b1.trust.pbCert) 0 5796))) ∧
    (∀ (k : Nat) (b2 : Block) (w : Walk), p.opcode = 0x0C03 → c.pkt.f 127 124 = 0 → c.pkt.f 123 120 < 15 → b1.draw 512 = (k, b2) →
      w = { domain := c.pkt.f 123 120, cmd := c.id, touches := [c.pkt.f 123 120], pos := 0, last := pageOf hbmTop, gran := 0,
            move := none, old := some ((b2.trust.domainKeys.get none (c.pkt.f 123 120)).getD 0) } →
      exec (.keyRotateDomain p) s = .next (s.after p { b2 with
        trust.domainKeys := b2.trust.domainKeys.set none (c.pkt.f 123 120) (some k), mem.walks := b2.mem.walks ++ [w] })) ∧
    (∀ ms : List Nat, p.opcode = 0x0C03 → c.pkt.f 127 124 = 1 →
      ms = (maskList 8 (c.pkt.f 119 112)).filter (fun m =>
        (b1.port m).st.isUp && (b1.port m).txKey.isSome && !(b1.port m).failed) →
      (b1.trust.prk = none ∨ ms = [] → exec (.keyRotatePorts p) s = .next (s.after p (b1.done c 0))) ∧
      (∀ prk : Nat, b1.trust.prk = some prk → ms ≠ [] → (∀ m ∈ ms, (b1.port m).keyCmd = none) →
        exec (.keyRotatePorts p) s = .next (s.after p (ms.foldl (fun (b : Block) m =>
          let r := b.draw 256
          let k := portKey prk Config.deviceId (b.port m).peerId (leBytes 32 r.1)
          (r.2.onPort m (fun x => { x with txNext := some k, keyCmd := some c.id })).queueLocal m 4 r.1 2)
          (b1.setWork c.id (.await 8 0 0 0)))))) ∧
    (∀ (g : Nat) (b2 : Block), p.opcode = 0x0C03 → c.pkt.f 127 124 = 2 →
      g = (if b1.trust.secretSet then b1.trust.generation + 1 else 1) →
      b2 = { b1 with trust := { b1.trust with
        prkPrev := b1.trust.prk, prk := some (jobPrk b1.trust.job g (leBytes 48 (c.pkt.f 511 128))), generation := g,
        secretSet := true } } →
      exec (.keyRotateJobSecret p) s = .next (s.after p (b2.retrainPorts.done c (g % 2 ^ 32 * 2 ^ 32)))) ∧
    (∀ (n l : Nat) (b2 b3 : Block), p.opcode = 0x0C04 → b1.draw 256 = (n, b2) → b3 = { b2 with trust.debugNonce := n } →
      l = oField (oBody c.pkt.params) 0 1 →
      (b1.grantOk c.pkt.params = true → b1.levelOk l = true → exec (.debugUnlock p) s = .next (s.after p
        (({ b3 with trust.debugLevel := Nat.max b3.trust.debugLevel l } : Block).done c 0))) ∧
      (b1.grantOk c.pkt.params = false ∨ b1.levelOk l = false →
        exec (.debugUnlock p) s = .next (s.after p (b3.refuse c Status.debugLocked 0))))

/-- TRUST_FAILURE and TRUST_KAT (R423). -/
def Obligations.TrustFailureDestroysKeys : Prop :=
  ∀ s : State,
    (∃ t, exec .trustFailure s = .next t ∧ t.pending = s.pending ∧ t.blk.trust.prk = none ∧ t.blk.trust.prkPrev = none ∧
      t.blk.trust.tierKey = none ∧ t.blk.trust.secretSet = false ∧ t.blk.trust.sessions = [] ∧ t.blk.trust.bootSeed = none ∧
      t.blk.trust.bootState = 4 ∧ t.blk.boot.phase = .trustFailed ∧ (∀ e ∈ t.blk.trust.domainKeys, e.1 = 15)) ∧
    (s.blk.hubUp = true → exec (.trustKat false) s = exec .trustFailure s) ∧ exec (.trustKat true) s = .next s

/-! ### The host interface and Merlen's rings (spec/01, spec/02, spec/18) -/

/-- RING_ENABLE, RING_DISABLE, SUB_TAIL_WRITE and CPL_HEAD_WRITE with the module awake (R38, R39, R42, R43, R61). -/
def Obligations.RingRegisterWrites : Prop :=
  ∀ (s : State) (n v : Nat), s.blk.linked = true → s.blk.isAwake = true → s.blk.boot.ready = true →
    let r := s.blk.ring n
    (∀ cfg : RingCfg, bit v 31 = true → r.enable = false → cfg = r.cfg.put v → cfg.ssize < 7 → cfg.csize < 7 →
      s.blk.ringIdle n = true →
      exec (.ringEnable n v) s = .next (s.put (s.blk.setRing n { r with
        cfg := cfg, enable := true, latched := cfg, stopped := false, subTail := 0, subHead := 0, cplTail := 0, cplHead := 0,
        phase := true, fetched := 0, asked := 0, buf := [] }))) ∧
    (∀ b1 : Block, r.enable = true → b1 = { s.blk with
        host.reqs := s.blk.host.reqs.filter (fun r => match r.2 with | .slots m _ _ => m ≠ n | _ => true) } →
      exec (.ringDisable n) s = .next (s.put (((b1.setRing n { r with enable := false, asked := 0 }).haltWhere
        (fun c => c.pkt.src = .ring n && (match c.work with | .syncWait _ _ _ => true | _ => false))
        Status.ringDisabled).abortHeld n Status.ringDisabled))) ∧
    (r.enable = true →
      (v % 4096 < r.subSize → exec (.subTailWrite n v) s = .next (s.put ((s.blk.setRing n { r with subTail := v % 4096 }).fetchSlots n))) ∧
      (r.subSize ≤ v % 4096 → exec (.subTailWrite n v) s = .next (s.put (s.blk.ringError n Status.badParam))) ∧
      (v % 4096 < r.cplSize →
        exec (.cplHeadWrite n v) s = .next (s.put (s.blk.setRing n { r with cplHead := v % 4096 }).flushTileFailed)) ∧
      (r.cplSize ≤ v % 4096 → exec (.cplHeadWrite n v) s = .next (s.put (s.blk.ringError n Status.badParam))))

/-- LOG_ACK_WRITE, FIRST_FAULT_CLR, MSIX_UNMASK, MSIX_SPACING_EXPIRY, REGISTER_WRITE and CONFIG_WRITE with the module awake (R9, R426, R433, R448, R449, R465, R307). -/
def Obligations.RegisterWrites : Prop :=
  ∀ s : State,
    (∀ v : Nat, (s.blk.host.msix.get Vector128.zero v).spacing = true →
      let x := s.blk.host.msix.get Vector128.zero v
      ∀ b : Block, b = { s.blk with host.msix := s.blk.host.msix.set Vector128.zero v { x with spacing := false, due := false } } →
      exec (.msixSpacingExpiry v) s = .next (s.put (if x.due then b.sendVector v else b))) ∧
    (s.blk.linked = true → s.blk.isAwake = true →
      (∀ (v : Nat) (e : LogEntry) (es : List LogEntry), s.blk.log.oldestFirst = e :: es →
        0 ≤ sx 32 (v + 2 ^ 32 - (e.seq + 2 ^ 32 - 1) % 2 ^ 32) → 0 ≤ sx 32 (s.blk.log.newest + 2 ^ 32 - v) →
        exec (.logAckWrite v) s = .next (s.put (Block.refreshAlert { s.blk with log.ack := v }))) ∧
      (∀ v : Nat, bit v 0 = true → exec (.firstFaultClr v) s = .next (s.put { s.blk with log.firstFault := none })) ∧
      (s.blk.host.tdisp = .unlocked →
        (∀ (v : Nat) (b : Block), b = { s.blk with
            host.msix := s.blk.host.msix.upd Vector128.zero v (fun x => { x with masked := false }) } →
          exec (.msixUnmask (some v)) s = .next (s.put b.sendPending)) ∧
        (∀ b : Block, b = { s.blk with host.funcMask := false } → exec (.msixUnmask none) s = .next (s.put b.sendPending)) ∧
        (∀ v : Nat, exec (.configWrite (.bar 2) v) s = .next (s.put { s.blk with
          host.bar2 := putHalf s.blk.host.bar2 0 v / 2 ^ 25 * 2 ^ 25 })) ∧
        (∀ v : Nat, exec (.configWrite .command v) s = .next (s.put { s.blk with
          host.memEnable := bit v 1, host.busMaster := bit v 2 }))) ∧
      (∀ off v : Nat,
        (off % 4 = 0 → exec (.registerWrite off 4 v) s = .next (s.put (s.blk.regWrite off (v % 2 ^ 32)))) ∧
        (off % 8 = 0 → off ≠ 0x3018 → exec (.registerWrite off 8 v) s = .next (s.put
          ((s.blk.regWrite off (v % 2 ^ 32)).regWrite (off + 4) (v / 2 ^ 32 % 2 ^ 32))))) ∧
      (∀ v : Nat, s.blk.boot.ready = true →
        exec (.registerWrite 0x6000 4 v) s = .next (s.put { s.blk with tier.share := v % 2 ^ 32 % 16 }) ∧
        (1700 ≤ v → v ≤ 4200 → exec (.registerWrite 0x104 4 v) s = .next (s.put { s.blk with pow.cap := v })) ∧
        (4200 < v → v < 8192 → exec (.registerWrite 0x104 4 v) s = .next s) ∧
        exec (.registerWrite 0x0C 4 v) s = .next (s.put { s.blk with host.apertureBase := bits (v % 2 ^ 32) 19 4 })))

/-- BAR2_READ, BAR2_WRITE, BAR4_READ and BAR4_WRITE with the module awake and IDE letting them in (R38, R430, R431). -/
def Obligations.WindowAndAperture : Prop :=
  ∀ (s : State) (x n ide : Nat) (bs : List Byte), s.blk.linked = true → s.blk.isAwake = true → s.blk.boot.ready = true →
    s.blk.ideTakes ide = true →
    let a := s.blk.alm.ringAreaDa + x
    let da := s.blk.host.apertureBase * 2 ^ 36 + x
    (s.blk.host.tdisp ≠ .error →
      (∀ (out : List Byte) (e : Bool) (b1 : Block), x + n ≤ 0x2000000 → s.blk.daRead a n = (.ok out e, b1) →
        exec (.bar2Read x n ide) s = .next (s.put (b1.emit (.readData
          (out.zipIdx.map (fun (e : Byte × Nat) => if windowReserved (x + e.2) then 0 else e.1)))))) ∧
      (x + bs.length ≤ 0x2000000 → exec (.bar2Write x bs ide) s = .next (s.put (s.blk.memWrite a
        (bs.zipIdx.map (fun (e : Byte × Nat) => if windowReserved (x + e.2) then s.blk.mem.bytes.get 0 (a + e.2) else e.1)))))) ∧
    (∀ (out : List Byte) (e : Bool) (b1 : Block), s.blk.bar4Bar da n false = none → s.blk.readWaits da n = false →
      s.blk.daRead da n = (.ok out e, b1) → exec (.bar4Read x n ide) s = .next (s.put (b1.emit (.readData out)))) ∧
    (s.blk.bar4Bar da bs.length true = none → s.blk.writeWaits da bs.length = false →
      exec (.bar4Write x bs ide) s = .next (s.put ((s.blk.daWrite da bs).1.tallyWhole 7 0 0 da bs))) ∧
    (∀ st : Nat, s.blk.bar4Bar da n false = some st →
      exec (.bar4Read x n ide) s = .next (s.put ((s.blk.logError st 13 0 0 da).emit .completerAbort))) ∧
    (∀ st : Nat, s.blk.bar4Bar da bs.length true = some st →
      exec (.bar4Write x bs ide) s = .next (s.put (s.blk.logError st 13 0 0 da)))

/-- HOST_READ_COMPLETION and COMPLETION_TIMEOUT (R38, R432). -/
def Obligations.HostCompletions : Prop :=
  ∀ (s : State) (tag : Nat) (who : HostReq) (bs : List Byte) (b1 : Block), s.blk.linked = true →
    s.blk.host.reqs.find? (fun x => x.1 = tag) = some (tag, who) →
    b1 = { s.blk with host.reqs := s.blk.host.reqs.filter (fun y => y.1 ≠ tag) } →
    exec (.completionTimeout tag) s = exec (.hostReadCompletion tag false bs) s ∧
    (∀ n first k : Nat, who = .slots n first k →
      exec (.hostReadCompletion tag true bs) s = .next (s.put ((b1.setRing n { b1.ring n with
        fetched := (b1.ring n).fetched + k, asked := 0, buf := (b1.ring n).buf.setL 0 (64 * first) bs }).fetchSlots n)) ∧
      exec (.completionTimeout tag) s = .next (s.put ((b1.setRing n { b1.ring n with asked := 0 }).ringError n
        Status.hostAccessFail))) ∧
    (∀ id off n : Nat, who = .tier id off n →
      exec (.hostReadCompletion tag true bs) s = .next (s.put (b1.tierArrive id off bs)) ∧
      exec (.completionTimeout tag) s = .next (s.put (b1.tierEnd id Status.hostAccessFail 0 0))) ∧
    (∀ k : Nat, who = .stream k → exec (.completionTimeout tag) s = .next (s.put (b1.streamWriteFail k))) ∧
    (∀ (c : Cmd) (off n : Nat), who = .restore c.id off n → b1.cmd c.id = some c →
      exec (.hostReadCompletion tag true bs) s = .next (s.put (b1.restArrive c.id bs)) ∧
      exec (.completionTimeout tag) s = .next (s.put (b1.restFail c Status.hostAccessFail 0)))

/-- PACKET_DISPATCH (R55, R56). -/
def Obligations.PacketDispatchServes : Prop :=
  ∀ (s : State) (core : Nat),
    (∀ (c : Cmd) (cs : List Cmd), s.blk.mer.tileHeld.get [] core = c :: cs → s.blk.heldOf c.pkt.src = c :: cs →
      s.blk.canStart c = true → exec (.packetDispatch core true) s = .next (s.put ((s.blk.setHeld c.pkt.src cs).dispatch c))) ∧
    (∀ (q : Packet) (ring : Nat) (l : List (Packet × Nat)), s.blk.mer.tileHeld.get [] core = [] →
      s.blk.mer.tileQ.get [] core = (q, ring) :: l → exec (.packetDispatch core true) s = .next (s.put (s.blk.take q))) ∧
    (∀ n : Nat, s.blk.pickRing core s.blk.ringDue = some n →
      ((s.blk.ring n).held = [] → exec (.packetDispatch core false) s = .next (s.put (s.blk.take (s.blk.headPacket n)))) ∧
      (∀ (c : Cmd) (cs : List Cmd), (s.blk.ring n).held = c :: cs → s.blk.canStart c = true →
        exec (.packetDispatch core false) s = .next (s.put ((s.blk.setHeld (.ring n) cs).dispatch c))))

/-! ### Resets, start-up, management and test access (spec/18, spec/21) -/

/-- The resets (R434, R476 to R479) and the phases of start-up (R408, R409, R480 to R486). -/
def Obligations.ResetsAndStartUp : Prop :=
  ∀ s : State,
    (∀ (n : Nat) (b1 : Block), s.blk.draw 256 = (n, b1) → exec .powerOnReset s = .next (s.put { Block.powerOn with
      mer := { Block.powerOn.mer with draws := b1.mer.draws, frees := s.blk.mer.frees },
      trust := { Block.powerOn.trust with
        lmsUsed := s.blk.trust.lmsUsed, svnFused := s.blk.trust.svnFused, rootRevoke := s.blk.trust.rootRevoke,
        debugNonce := n },
      out := s.blk.out })) ∧
    (s.blk.boot.phase ≠ .commit →
      exec .perstAssert s = .next (s.put { s.blk.moduleReset with boot.perst := true, boot.dark := false }) ∧
      exec .brownout s = .next (s.put { s.blk.moduleReset with boot.brown := true, boot.dark := false })) ∧
    (s.blk.boot.due = none →
      (s.blk.boot.phase = .commit →
        exec .perstAssert s = .next (s.put { s.blk with boot.due := some 1 }) ∧
        exec .brownout s = .next (s.put { s.blk with boot.due := some 2 })) ∧
      exec .perstDeassert s = .next (s.put { s.blk with boot.perst := false }) ∧
      (s.blk.boot.perst = false → exec .brownoutRecovery s = .next (s.put { s.blk with boot.brown := false }))) ∧
    (s.blk.hubUp = true → exec .functionLevelReset s = .next (s.put s.blk.flr) ∧ exec .linkDown s = .next (s.put s.blk.flr) ∧
      exec .hotReset s = .next (s.put { s.blk.flr with host := s.blk.flr.host.clearConfig })) ∧
    (∀ us : Nat, us < 2 ^ 32 →
      let at_ (p : Phase) (b : Block) : State := s.put { b with boot.phase := p, boot.timeUs := us }
      (∀ (k y : Nat) (b1 b2 : Block), s.blk.hubUp = true → s.blk.boot.phase = .romInit → s.blk.draw 512 = (k, b1) →
        b1.draw 512 = (y, b2) → exec (.romInitDone true us) s = .next (at_ .waitImage { b2 with
          trust.domainKeys := [(15, some k)], trust.sysKey := y, host.linkUp := true })) ∧
      (∀ b1 : Block, s.blk.hubUp = true → s.blk.boot.phase = .waitImage → s.blk.host.busMaster = true → 64 ≤ s.blk.boot.len →
        s.blk.boot.len ≤ 8388608 → s.blk.boot.len % 64 = 0 → s.blk.boot.addr + s.blk.boot.len ≤ 2 ^ 64 →
        b1 = { s.blk with boot.fetchErr := 0, boot.bundle := [], boot.phase := .fetch, boot.timeUs := us } →
        exec (.bootGo us) s = .next (s.put (b1.askHost b1.boot.addr (Nat.min 4096 b1.boot.len)
          (.boot 0 (Nat.min 4096 b1.boot.len))))) ∧
      (s.blk.boot.phase = .fetch → s.blk.boot.bundle.length = s.blk.boot.len →
        exec (.bootFetchDone us) s = .next (at_ .verify { s.blk with trust.bootState := 1 })) ∧
      (s.blk.boot.phase = .verify →
        (s.blk.bootCheck s.blk.boot.bundle = none →
          exec (.bootVerifyDone us) s = .next (at_ .commit { s.blk with trust.bootErr := 0 })) ∧
        (∀ n : Nat, s.blk.bootCheck s.blk.boot.bundle = some n → s.blk.trust.bootTries + 1 < 8 →
          exec (.bootVerifyDone us) s = .next (at_ .waitImage { s.blk with
            boot.bundle := [], trust.bootErr := n, trust.bootTries := s.blk.trust.bootTries + 1, trust.bootState := 0 }))) ∧
      (∀ b1 : Block, s.blk.boot.phase = .commit → s.blk.boot.due = none → b1 = s.blk.commitSteps →
        exec (.bootCommitDone true us) s = .next (at_ .merlenInit { b1 with boot.due := none, trust.bootState := 2 })) ∧
      (s.blk.boot.phase = .merlenInit → exec (.merlenInitDone us) s = .next (at_ .selfTest s.blk)) ∧
      (∀ (unit index : Nat) (pcs phys : List Nat) (rows : List (Nat × Nat)) (b1 b2 b3 : Block), s.blk.boot.phase = .selfTest →
        b1 = { s.blk with fab.ports := (List.range 8).foldl (fun (m : Sparse Port) k =>
          m.upd Port.zero k (fun p => if p.st = .down then { p with st := .train } else p)) s.blk.fab.ports } →
        b2 = b1.testPcs pcs → b3 = { b2 with boot := b2.boot.testTiles phys rows } →
        exec (.selfTestDone 0 unit index pcs phys rows us) s = .next (s.put
          ((b3.boot.numbering.foldl (fun (b : Block) x => b.setTile x.1 (b3.boot.startTile x.1 x.2)) b3).publish us))))

/-- The management commands on a served transport, the module awake (R412, R435 to R439); the message bytes of MCTP and SPDM are the model's, PRESUMED from their own specifications (log entry 7). -/
def Obligations.ManagementCommands : Prop :=
  ∀ (s : State) (t : Nat),
    (s.blk.mctpServes t = true → s.blk.boot.dark = false → s.blk.isAwake = true →
      (∀ e : Nat, 0 < e → e < 255 → exec (.mctpControl t 1 0 e) s = .next (s.put
        (Block.reply t (natBytes [1, 0, 0, e, 0]) { s.blk with host := s.blk.host.setEid t e }))) ∧
      (∀ a e : Nat, exec (.mctpControl t 2 a e) s = .next (s.put (s.blk.reply t (natBytes [2, 0, s.blk.host.eid t, 0, 0])))) ∧
      (∀ (req body : List Byte) (b1 : Block), s.blk.trust.bootState ≠ 4 → s.blk.spdmBody req = (body, b1) →
        ((req.getD 1 0).toNat = 0xE4 → s.blk.trust.spdmSessions < 4 → exec (.spdmRequest t req) s = .next (s.put
          (Block.reply t body { b1 with trust.spdmSessions := b1.trust.spdmSessions + 1 }))) ∧
        ((req.getD 1 0).toNat = 0xEC → exec (.spdmRequest t req) s = .next (s.put
          (Block.reply t body { b1 with trust.spdmSessions := b1.trust.spdmSessions - 1 }))) ∧
        ((req.getD 1 0).toNat = 0xE0 → bit (req.getD 2 0).toNat 0 = true → exec (.spdmRequest t req) s = .next (s.put
          (Block.reply t body { b1 with trust.spdmTranscript := b1.trust.spdmTranscript.set [] t (req ++ body) })))) ∧
      (∀ (sig : List Byte) (b1 : Block), s.blk.trust.bootState ≠ 4 → 0 < s.blk.trust.bootLeft →
        s.blk.trust.spdmTranscript.get [] t ≠ [] →
        s.blk.pbSign (leBytes 48 (Config.sha384 (s.blk.trust.spdmTranscript.get [] t))) = (sig, b1) →
        exec (.vendorDefinedRequest t 1) s = .next (s.put (b1.reply t sig))) ∧
      (∀ (stream set : Nat) (body : List Byte) (b1 : Block), 0 < s.blk.trust.spdmSessions → s.blk.trust.bootState ≠ 4 →
        (s.blk.spdmBody (natBytes [0, stream, set]) = (body, b1) → exec (.ideKm t 0 stream set) s = .next (s.put
          (Block.reply t body { b1 with host.ideKeys := (stream, set) :: b1.host.ideKeys.filter (fun k => k ≠ (stream, set)) }))) ∧
        (s.blk.spdmBody (natBytes [1, stream, set]) = (body, b1) → (stream, set) ∈ b1.host.ideKeys →
          exec (.ideKm t 1 stream set) s = .next (s.put ((b1.ideSet stream true).reply t body))) ∧
        (s.blk.spdmBody (natBytes [2, stream, set]) = (body, b1) → ∀ b2 : Block, b2 = { b1 with
            host.ideKeys := b1.host.ideKeys.filter (fun k => k.1 ≠ stream) } →
          exec (.ideKm t 2 stream set) s = .next (s.put ((b2.ideSet stream false).reply t body)))) ∧
      (∀ seq : Nat,
        exec (.getHealth t seq) s = .next (s.put (s.blk.board t 1 seq 0 s.blk.health)) ∧
        exec (.getTemps t seq) s = .next (s.put (s.blk.board t 2 seq 0 s.blk.tempBytes)) ∧
        (∀ mv ma aux : Nat, exec (.getPower t seq mv ma aux) s = .next (s.put
          (s.blk.board t 3 seq 0 (leBytes 4 mv ++ leBytes 4 ma ++ leBytes 4 aux)))) ∧
        (s.blk.isReady = true →
          exec (.getAlmanac t seq) s = .next (s.put (s.blk.board t 4 seq 0 s.blk.almanac)) ∧
          (∀ first count : Nat, 1 ≤ count → count ≤ 16 → exec (.getLog t seq first count) s = .next (s.put
            (s.blk.board t 5 seq 0 (((s.blk.log.from_ first count).1.map
              (fun e => (if s.blk.trust.sealedReq then e.masked else e).bytes)).flatten)))) ∧
          (∀ (l : Nat) (b1 : Block), l ≤ 7 → b1 = s.blk.onPower (fun p => { p with ceiling := l }) →
            exec (.setPlCeiling t seq l) s = .next (s.put (b1.board t 6 seq 0 (natBytes [b1.pow.target]))))) ∧
        (∀ b1 : Block, s.blk.boot.phase ≠ .commit → b1 = (s.blk.board t 7 seq 0 []).moduleReset →
          exec (.resetModule t seq) s = .next (s.put { b1 with boot.dark := false })))) ∧
    (s.blk.hubUp = true →
      (s.blk.host.tdisp = .unlocked → s.blk.trust.job ≠ 0 → s.blk.host.ideSel = true →
        exec .lockInterface s = .next (s.put { s.blk with host.tdisp := .locked })) ∧
      (s.blk.host.tdisp = .locked → exec .startInterface s = .next (s.put { s.blk with host.tdisp := .run })) ∧
      exec .stopInterface s = .next (s.put { s.blk with host.tdisp := .unlocked })) ∧
    (∀ a : Nat, exec (.i3cDynamicAddress a) s = .next (s.put { s.blk with host.i3cAddr := a }))

/-- TAP_RESET, JTAG_IR_LOAD and the data scans (R422, R440, R441). -/
def Obligations.TestAccess : Prop :=
  ∀ (s : State) (n captured v : Nat),
    let out (k x : Nat) (b : Block) : State := s.put (b.emit (.tdo k x))
    let cells : Block := { s.blk with jtag.cells := v % 2 ^ n }
    exec .tapReset s = .next (s.put { s.blk with jtag.ir := 1 }) ∧
    (∀ code : Nat,
      (s.blk.irOk code = true → exec (.jtagIrLoad code) s = .next (s.put { s.blk with jtag.ir := code })) ∧
      (s.blk.irOk code = false → s.blk.hubUp = true → exec (.jtagIrLoad code) s = .next (s.put
        (Block.logError Status.debugLocked 14 code 0 0 { s.blk with
          jtag.ir := 0xFF, jtag.refused := s.blk.jtag.refused + 1 })))) ∧
    (s.blk.jtag.ir = 0xFF → exec (.bypass n v) s = .next (out n (2 * v % 2 ^ n) s.blk)) ∧
    (s.blk.jtag.ir = 0x01 → exec .idcode s = .next (out 32 idcodeWord s.blk)) ∧
    (s.blk.jtag.ir = 0x02 → exec (.samplePreload n captured v) s = .next (out n (captured % 2 ^ n) cells)) ∧
    (s.blk.jtag.ir = 0x00 → exec (.extest n captured v) s = .next (out n (captured % 2 ^ n) cells)) ∧
    (s.blk.jtag.ir = 0x04 → exec (.clamp n v) s = .next (out n (2 * v % 2 ^ n) s.blk)) ∧
    (s.blk.jtag.ir = 0x05 → exec (.highz n v) s = .next (out n (2 * v % 2 ^ n) s.blk)) ∧
    (s.blk.jtag.ir = 0x06 → exec (.extestPulse n captured v) s = .next (out n (captured % 2 ^ n) cells)) ∧
    (s.blk.jtag.ir = 0x07 → exec (.extestTrain n captured v) s = .next (out n (captured % 2 ^ n) cells)) ∧
    (∀ off : Nat, s.blk.jtag.ir = 0x10 → 1 ≤ s.blk.trust.debugLevel → debugReads off = true →
      exec (.dbgRead off) s = .next (out 32 (s.blk.reg off) s.blk)) ∧
    (∀ (da : Nat) (xs bs : List Byte) (e : Bool) (b1 : Block), s.blk.jtag.ir = 0x11 → s.blk.trust.debugLevel = 2 →
      (s.blk.daRead da n = (.ok xs e, b1) → exec (.dbgFull da n []) s = .next (out (8 * n) (leNat xs) b1)) ∧
      (bs ≠ [] → localPopulated da bs.length = true → s.blk.writeWaits da bs.length = false → s.blk.roHit da bs.length = false →
        exec (.dbgFull da n bs) s = .next (s.put (s.blk.daWrite da bs).1)))
end

