-- ==== Sys2Proof/Laws/Complete.lean ====
section
/-!
SUPPORT. What completing a command, writing a log entry and sending a vector leave alone (R44 to R47, R449, R505).
-/

namespace Sys2Proof.Machine

theorem Block.Apart.refl (b : Block) : b.Apart b := by constructor <;> simp
theorem Block.Apart.trans {a b c : Block} (h : a.Apart b) (k : b.Apart c) : a.Apart c := by
  cases h
  cases k
  constructor
  all_goals simp only [*, and_self]

theorem apart_foldl {α : Type} (f : Block → α → Block) (hf : ∀ (b : Block) x, b.Apart (f b x)) :
    ∀ (l : List α) (b : Block), b.Apart (l.foldl f b)
  | [], b => Block.Apart.refl b
  | x :: l, b => (hf b x).trans (apart_foldl f hf l (f b x))

theorem sendVector_apart (v : Nat) (b : Block) : b.Apart (b.sendVector v) := by
  unfold Block.sendVector
  dsimp only
  split
  · exact .refl b
  · split
    · constructor <;> simp
    · split
      · constructor <;> simp
      · constructor <;> simp [Block.emit]

theorem Block.Apart.setLog {a b : Block} (h : a.Apart b) (l : Log) : a.Apart { b with log := l } := by
  cases h; constructor <;> assumption
theorem Block.Apart.setAlert {a b : Block} (h : a.Apart b) (v : Bool) : a.Apart { b with pins.alert := v } := by
  cases h; constructor <;> assumption
theorem Block.Apart.setRunning {a b : Block} (h : a.Apart b) (l : List Cmd) : a.Apart { b with mer.running := l } := by
  cases h; constructor <;> assumption
theorem Block.Apart.setFailed {a b : Block} (h : a.Apart b) (l : List (Cmd × Nat)) : a.Apart { b with mer.tileFailed := l } := by
  cases h; constructor <;> assumption

theorem logEntry_apart (e : LogEntry) (b : Block) : b.Apart (b.logEntry e) := by
  unfold Block.logEntry Block.refreshAlert
  dsimp only
  apply Block.Apart.setAlert
  refine Block.Apart.trans ?_ (sendVector_apart _ _)
  exact (Block.Apart.refl b).setLog _

theorem logCmd_apart (c : Cmd) (st u i d n : Nat) (b : Block) : b.Apart (b.logCmd c st u i d n) := logEntry_apart _ _
theorem logError_apart (st u i d n : Nat) (b : Block) : b.Apart (b.logError st u i d n) := logEntry_apart _ _
theorem logState_apart (st r : Nat) (b : Block) : b.Apart (b.logState st r) := logEntry_apart _ _

theorem writeRecord_apart (n : Nat) (r : Bool → Nat) (b : Block) : b.Apart (b.writeRecord n r) := by
  unfold Block.writeRecord
  by_cases h : (b.ring n).latched.loc = true
  · simp only [h, if_true]
    constructor <;> simp [Block.setRing, Block.rawWrite]
  · simp only [h, Bool.false_eq_true, if_false]
    constructor <;> simp [Block.setRing, Block.emit]

theorem cmdRecord_apart (c : Cmd) (st d r : Nat) (b : Block) : b.Apart (b.cmdRecord c st d r) := by
  unfold Block.cmdRecord
  dsimp only
  split <;> exact writeRecord_apart _ _ _

theorem signal_apart (c : Cmd) (st : Nat) (b : Block) : b.Apart (b.signal c st) := by
  unfold Block.signal Block.issueSync
  split
  · constructor <;> simp
  · exact .refl b

theorem logUnshown_apart (c : Cmd) (sh : Nat) (l : List Nat) (b : Block) : b.Apart (b.logUnshown c sh l) := by
  unfold Block.logUnshown
  apply apart_foldl
  intro b x
  split
  · exact logCmd_apart _ _ _ _ _ _ _
  · exact .refl b

theorem flushTileFailed_apart (b : Block) : b.Apart b.flushTileFailed := by
  unfold Block.flushTileFailed
  apply apart_foldl
  intro b x
  dsimp only
  split
  · refine Block.Apart.trans ?_ (sendVector_apart _ _)
    refine Block.Apart.trans ?_ (cmdRecord_apart _ _ _ _ _)
    exact (Block.Apart.refl b).setFailed _
  · exact .refl b

/-- Completing a command leaves every unit but Merlen, the log, the MSI-X table and the outputs alone. -/
theorem complete_apart (c : Cmd) (st d r : Nat) (b : Block) : b.Apart (b.complete c st d r) := by
  unfold Block.complete
  dsimp only
  split
  · split
    · exact (((((Block.Apart.refl b).setRunning _).trans (logUnshown_apart _ _ _ _)).trans (signal_apart _ _ _)).trans
        (cmdRecord_apart _ _ _ _ _)).trans (sendVector_apart _ _)
    · exact ((((Block.Apart.refl b).setRunning _).trans (logUnshown_apart _ _ _ _)).trans (signal_apart _ _ _)).trans
        (cmdRecord_apart _ _ _ _ _)
  · split
    · exact (((Block.Apart.refl b).setRunning _).trans (logUnshown_apart _ _ _ _)).trans (signal_apart _ _ _)
    · exact (((((((Block.Apart.refl b).setRunning _).trans (logUnshown_apart _ _ _ _)).trans (signal_apart _ _ _)).trans
        (logCmd_apart _ _ _ _ _ _ _)).setFailed _)).trans (flushTileFailed_apart _)

theorem completeId_apart (id st d r : Nat) (b : Block) : b.Apart (b.completeId id st d r) := by
  unfold Block.completeId
  split
  · exact complete_apart _ _ _ _ _
  · exact .refl b

theorem done_apart (c : Cmd) (r : Nat) (b : Block) : b.Apart (b.done c r) := completeId_apart _ _ _ _ _

end Sys2Proof.Machine
end

