-- ==== Sys2Proof/Laws/Halt.lean ====
section
/-!
SUPPORT. What ending commands and entering Shutter leave alone (R33, R35, R420): the time base, the Ephemeris, the trust
engine, the Almanac, the Filter Wheel, the snapshot engine and the TAP.
-/

namespace Sys2Proof.Machine

/-- The units that the end of a command never touches. -/
structure Block.Steady (b b' : Block) : Prop where
  sid : b'.sid = b.sid
  eph : b'.eph = b.eph
  trust : b'.trust = b.trust
  alm : b'.alm = b.alm
  fw : b'.fw = b.fw
  snap : b'.snap = b.snap
  jtag : b'.jtag = b.jtag

theorem Block.Steady.refl (b : Block) : b.Steady b := ⟨rfl, rfl, rfl, rfl, rfl, rfl, rfl⟩
theorem Block.Steady.trans {a b c : Block} (h : a.Steady b) (k : b.Steady c) : a.Steady c := by
  cases h
  cases k
  constructor
  all_goals simp only [*]
theorem Block.Apart.steady {a b : Block} (h : a.Apart b) : a.Steady b :=
  ⟨h.sid, h.eph, h.trust, h.alm, h.fw, h.snap, h.jtag⟩

/-! ### Units that may change -/

theorem Block.Steady.onMer {a b : Block} (h : a.Steady b) (x : Merlen) : a.Steady { b with mer := x } := ⟨h.1, h.2, h.3, h.4, h.5, h.6, h.7⟩
theorem Block.Steady.onHost {a b : Block} (h : a.Steady b) (x : HostIf) : a.Steady { b with host := x } := ⟨h.1, h.2, h.3, h.4, h.5, h.6, h.7⟩
theorem Block.Steady.onFab {a b : Block} (h : a.Steady b) (x : Fabric) : a.Steady { b with fab := x } := ⟨h.1, h.2, h.3, h.4, h.5, h.6, h.7⟩
theorem Block.Steady.onTrain {a b : Block} (h : a.Steady b) (x : Train) : a.Steady { b with train := x } := ⟨h.1, h.2, h.3, h.4, h.5, h.6, h.7⟩
theorem Block.Steady.onShut {a b : Block} (h : a.Steady b) (x : Shutter) : a.Steady { b with shut := x } := ⟨h.1, h.2, h.3, h.4, h.5, h.6, h.7⟩
theorem Block.Steady.onPins {a b : Block} (h : a.Steady b) (x : Pins) : a.Steady { b with pins := x } := ⟨h.1, h.2, h.3, h.4, h.5, h.6, h.7⟩
theorem Block.Steady.onPow {a b : Block} (h : a.Steady b) (x : PowerS) : a.Steady { b with pow := x } := ⟨h.1, h.2, h.3, h.4, h.5, h.6, h.7⟩
theorem Block.Steady.onBoot {a b : Block} (h : a.Steady b) (x : Boot) : a.Steady { b with boot := x } := ⟨h.1, h.2, h.3, h.4, h.5, h.6, h.7⟩
theorem Block.Steady.onMem {a b : Block} (h : a.Steady b) (x : MemSys) : a.Steady { b with mem := x } := ⟨h.1, h.2, h.3, h.4, h.5, h.6, h.7⟩

theorem steady_foldl {α : Type} {f : Block → α → Block} (hf : ∀ (b : Block) x, b.Steady (f b x)) :
    ∀ (l : List α) (b : Block), b.Steady (l.foldl f b)
  | [], b => .refl b
  | x :: l, b => (hf b x).trans (steady_foldl hf l (f b x))

theorem completeId_steady (id st d r : Nat) (b : Block) : b.Steady (b.completeId id st d r) := (completeId_apart id st d r b).steady
theorem complete_steady (c : Cmd) (st d r : Nat) (b : Block) : b.Steady (b.complete c st d r) := (complete_apart c st d r b).steady

theorem unzero_steady (da n : Nat) (b : Block) : b.Steady (b.unzero da n) := by
  unfold Block.unzero
  split
  · exact .refl b
  · refine steady_foldl (fun b p => ?_) _ b
    dsimp only
    split
    · exact ⟨rfl, rfl, rfl, rfl, rfl, rfl, rfl⟩
    · exact .refl b

theorem markMigrated_steady (da n : Nat) (b : Block) : b.Steady (b.markMigrated da n) := by
  unfold Block.markMigrated
  split
  · split
    · refine steady_foldl (f := fun b i => _) (fun c i => ?_) _ b
      dsimp only
      split
      · exact ⟨rfl, rfl, rfl, rfl, rfl, rfl, rfl⟩
      · exact .refl c
    · exact .refl b
  · exact .refl b

theorem memWrite_steady (da : Nat) (bs : List Byte) (b : Block) : b.Steady (b.memWrite da bs) := by
  have h := (unzero_steady da bs.length b).trans (markMigrated_steady da bs.length _)
  unfold Block.memWrite
  refine h.trans ?_
  dsimp only
  split <;> split <;> exact ⟨rfl, rfl, rfl, rfl, rfl, rfl, rfl⟩

theorem wr_steady (da n v : Nat) (b : Block) : b.Steady (b.wr da n v) := by
  unfold Block.wr
  exact memWrite_steady _ _ b

theorem onPageE_steady (pl : Pool) (p : Nat) (f : PageE → PageE) (b : Block) : b.Steady (b.onPageE pl p f) := wr_steady _ _ _ b
theorem setPageE_steady (pl : Pool) (p : Nat) (e : PageE) (b : Block) : b.Steady (b.setPageE pl p e) := wr_steady _ _ _ b

theorem free_steady (w : Nat) (b : Block) : b.Steady (b.free w).2 := ⟨rfl, rfl, rfl, rfl, rfl, rfl, rfl⟩
theorem setPool_steady (pl : Pool) (b : Block) : b.Steady (b.setPool pl) := ⟨rfl, rfl, rfl, rfl, rfl, rfl, rfl⟩

theorem freePage_steady (p : Nat) (b : Block) : b.Steady (b.freePage p) := by
  unfold Block.freePage
  split
  · exact .refl b
  · exact ((free_steady 24 b).trans (onPageE_steady _ _ _ _)).trans (setPool_steady _ _)

theorem unpin_steady (p : Nat) (b : Block) : b.Steady (b.unpin p) := by
  unfold Block.unpin
  split
  · exact .refl b
  · dsimp only
    split
    · exact (setPageE_steady _ _ _ b).trans (freePage_steady _ _)
    · exact setPageE_steady _ _ _ b

theorem dropKvPage_steady (p : Nat) (b : Block) : b.Steady (b.dropKvPage p) := by
  unfold Block.dropKvPage
  split
  · exact .refl b
  · exact (onPageE_steady _ _ _ b).trans (freePage_steady _ _)

theorem kvRelease_steady (c : Cmd) (w : AttnWork) (b : Block) : b.Steady (b.kvRelease c w) := by
  unfold Block.kvRelease
  split
  · rename_i pl _ _
    dsimp only
    have last : ∀ b1 : Block, b.Steady b1 →
        b.Steady (if c.kvAppend then b1.setSeqE pl c.kvSeq { (b1.seqE pl c.kvSeq) with busy := false } else b1) := by
      intro b1 h
      split
      · exact h.trans (wr_steady _ _ _ _)
      · exact h
    refine last _ ?_
    refine Block.Steady.trans ?_ (steady_foldl (fun b x => ?_) w.toRegen _)
    · refine Block.Steady.trans ?_ (steady_foldl (fun b p => unpin_steady p b) w.pins _)
      have h1 := steady_foldl (f := fun (b : Block) p => b.onPageE pl p (fun e => { e with filling := false }))
        (fun b p => onPageE_steady pl p _ b) w.fresh b
      split
      · exact h1.trans (unpin_steady _ _)
      · exact h1
    · split
      · exact .refl b
      · exact dropKvPage_steady _ b
  · exact .refl b

theorem onTile_steady (t : Nat) (f : Tile → Tile) (b : Block) : b.Steady (b.onTile t f) := ⟨rfl, rfl, rfl, rfl, rfl, rfl, rfl⟩
theorem setTile_steady (t : Nat) (x : Tile) (b : Block) : b.Steady (b.setTile t x) := ⟨rfl, rfl, rfl, rfl, rfl, rfl, rfl⟩
theorem setCmd_steady (c : Cmd) (b : Block) : b.Steady (b.setCmd c) := ⟨rfl, rfl, rfl, rfl, rfl, rfl, rfl⟩
theorem setWork_steady (id : Nat) (w : Work) (b : Block) : b.Steady (b.setWork id w) := ⟨rfl, rfl, rfl, rfl, rfl, rfl, rfl⟩

theorem drainFlight_steady (t : Nat) (b : Block) : b.Steady (b.drainFlight t) := by
  unfold Block.drainFlight
  exact (setTile_steady _ _ b).trans (steady_foldl (fun b f => memWrite_steady _ _ b) _ _)

theorem finishOps_steady (t : Nat) (b : Block) : b.Steady (b.finishOps t) := (setTile_steady _ _ b).trans (drainFlight_steady _ _)

theorem haltTiles_steady (ts : List Nat) (b : Block) : b.Steady (b.haltTiles ts) :=
  steady_foldl (fun b t => (finishOps_steady t b).trans (onTile_steady t _ _)) ts b

theorem preemptDrop_steady (id : Nat) (v : Bool) (b : Block) : b.Steady (b.preemptDrop id v) := by
  unfold Block.preemptDrop
  refine steady_foldl (fun b c => ?_) _ b
  split
  · split
    · dsimp only
      split
      · exact (setWork_steady _ _ b).trans (completeId_steady _ _ _ _ _)
      · exact setWork_steady _ _ b
    · exact .refl b
  · exact .refl b

theorem regenEnd_steady (c : Cmd) (w : RunWork) (n st d r : Nat) (b : Block) : b.Steady (b.regenEnd c w n st d r) := by
  unfold Block.regenEnd
  have h0 : b.Steady { b with mer.running := b.mer.running.filter (fun x => x.id ≠ c.id) } := ⟨rfl, rfl, rfl, rfl, rfl, rfl, rfl⟩
  dsimp only
  split
  · exact h0
  · split
    · rename_i aw _
      have h1 := h0.trans (steady_foldl
        (f := fun (b : Block) t => b.onTile t (fun x => { x with held := some n, halted := false }))
        (fun b t => onTile_steady t _ b) w.tiles _)
      split
      · refine Block.Steady.trans ?_ (setCmd_steady _ _)
        split
        · exact h1.trans (onPageE_steady _ _ _ _)
        · exact h1
      · exact h1.trans (setCmd_steady _ _)
    · exact h0

theorem endRun_steady (id st d r : Nat) (b : Block) : b.Steady (b.endRun id st d r) := by
  unfold Block.endRun
  split
  · split
    · dsimp only
      split
      · exact (haltTiles_steady _ b).trans (regenEnd_steady _ _ _ _ _ _ _)
      · exact ((haltTiles_steady _ b).trans (complete_steady _ _ _ _ _)).trans (preemptDrop_steady _ _ _)
    · exact complete_steady _ _ _ _ b
  · exact .refl b

theorem haltCmd_steady (id st : Nat) (b : Block) : b.Steady (b.haltCmd id st) := by
  unfold Block.haltCmd
  split
  · exact .refl b
  · split
    · exact endRun_steady _ _ _ _ b
    · exact (haltTiles_steady _ b).trans (completeId_steady _ _ _ _ _)
    · exact (((haltTiles_steady _ b).onMer _).trans (kvRelease_steady _ _ _)).trans (completeId_steady _ _ _ _ _)
    · exact ((Block.Steady.refl b).onTrain _).trans (completeId_steady _ _ _ _ _)
    · exact completeId_steady _ _ _ _ b

theorem haltWhere_steady (p : Cmd → Bool) (st : Nat) (b : Block) : b.Steady (b.haltWhere p st) := by
  unfold Block.haltWhere
  exact steady_foldl (fun b (c : Cmd) => haltCmd_steady c.id st b) _ b

theorem setCsu_steady (i : Nat) (c : Csu) (b : Block) : b.Steady (b.setCsu i c) := by
  unfold Block.setCsu
  dsimp only
  split
  · unfold Block.issueAdd Block.issueSync
    exact ⟨rfl, rfl, rfl, rfl, rfl, rfl, rfl⟩
  · exact ⟨rfl, rfl, rfl, rfl, rfl, rfl, rfl⟩

theorem onCsu_steady (p : Csu → Bool) (f : Csu → Csu) (b : Block) : b.Steady (b.onCsu p f) := by
  unfold Block.onCsu
  refine steady_foldl (fun b e => ?_) _ b
  split
  · exact setCsu_steady _ _ b
  · exact .refl b

theorem reap_steady (b : Block) : b.Steady b.reap := by
  unfold Block.reap
  dsimp only
  refine Block.Steady.trans ?_ (onCsu_steady _ _ _)
  exact ⟨rfl, rfl, rfl, rfl, rfl, rfl, rfl⟩

theorem abortHeld_steady (n st : Nat) (b : Block) : b.Steady (b.abortHeld n st) := by
  unfold Block.abortHeld
  exact (((Block.Steady.refl b).onMer _).trans (steady_foldl (fun b (c : Cmd) => complete_steady c st 0 0 b) _ _))

theorem abortAllHeld_steady (st : Nat) (b : Block) : b.Steady (b.abortAllHeld st) := by
  unfold Block.abortAllHeld
  dsimp only
  exact ((steady_foldl (f := fun (b : Block) (e : Nat × Ring) => b.abortHeld e.1 st) (fun b e => abortHeld_steady e.1 st b) _ b).onMer
    _).trans (steady_foldl (fun b (c : Cmd) => complete_steady c st 0 0 b) _ _)

/-- Actions 2 and 3 of R33 leave every unit of `Block.Steady` alone. -/
theorem shutterActions_steady (b : Block) : b.Steady b.shutterActions := by
  unfold Block.shutterActions
  exact (((haltWhere_steady _ _ b).trans (haltWhere_steady _ _ _)).trans (haltWhere_steady _ _ _)).trans
    ((abortAllHeld_steady _ _).trans (reap_steady _))

theorem wakePorts_steady (b : Block) : b.Steady b.wakePorts := (Block.Steady.refl b).onFab _

theorem wakeBy_steady (src unit index : Nat) (b : Block) : b.Steady (b.wakeBy src unit index) := by
  unfold Block.wakeBy Block.leaveDark
  split
  · split
    · exact ⟨rfl, rfl, rfl, rfl, rfl, rfl, rfl⟩
    · exact .refl b
  · split
    · exact .refl b
    · exact .refl b
    · split
      · split
        · exact (Block.Steady.refl b).onPow _
        · exact .refl b
      · unfold Block.abortSleep
        dsimp only
        have h := ((Block.Steady.refl b).onPow { b.pow with
          sleep := .awake, sleepCmd := none, aborted := Nat.min (b.pow.aborted + 1) (2 ^ 32 - 1), aborter := sleepWord unit index src })
        split
        · exact (h.trans (wakePorts_steady _)).trans (completeId_steady _ _ _ _ _)
        · exact h.trans (wakePorts_steady _)
    · exact ((Block.Steady.refl b).onPow _).trans (wakePorts_steady _)

/-- Latching a Shutter cause leaves the time base, the armed entries and the trust engine alone. -/
theorem latchCause_steady (k st : Nat) (b : Block) : b.Steady (b.latchCause k st) := by
  unfold Block.latchCause
  dsimp only
  have h1 := (((Block.Steady.refl b).onShut
    { shut := true, active := setBit b.shut.active k true, seen := setBit b.shut.seen k true })).trans (logState_apart st 0 _).steady
  have h2 : ∀ b1 : Block, b.Steady b1 →
      b.Steady (if k = 0 ∨ k = 1 ∨ k = 3 then { b1 with shut.active := setBit b1.shut.active k false } else b1) := by
    intro b1 h
    split
    · exact h.onShut _
    · exact h
  have h3 := (h2 _ h1).trans (wakeBy_steady 6 10 1 _)
  split
  · exact (h3.trans (shutterActions_steady _)).onPins _
  · exact h3

end Sys2Proof.Machine
end

