-- ==== Sys2Proof/Laws/Sparse.lean ====
section
/-!
SUPPORT. Sparse tables: what a key reads after a write, and that every operation keeps the canonical form.
-/

namespace Sys2Proof.Machine

variable {α : Type} [DecidableEq α]

theorem Sparse.get_set_ne (d v : α) {k j : Nat} (h : j ≠ k) : ∀ m : Sparse α, (Sparse.set d k v m).get d j = m.get d j
  | [] => by
    unfold Sparse.set
    split
    · rfl
    · simp [Sparse.get, Ne.symm h]
  | (i, w) :: m => by
    unfold Sparse.set
    split
    · split
      · rfl
      · simp [Sparse.get, Ne.symm h]
    · split
      · rename_i h1 h2
        subst h2
        split
        · simp [Sparse.get, Ne.symm h]
        · simp [Sparse.get, Ne.symm h]
      · simp only [Sparse.get]
        rw [Sparse.get_set_ne d v h m]

omit [DecidableEq α] in
theorem Sparse.get_above (d : α) {k : Nat} : ∀ {b : Nat} {m : Sparse α}, Sparse.above b m = true → k ≤ b → m.get d k = d
  | _, [], _, _ => rfl
  | b, (i, w) :: m, h, hk => by
    simp only [Sparse.above, List.all_cons, Bool.and_eq_true, decide_eq_true_eq] at h
    have : i ≠ k := by omega
    simp only [Sparse.get, this, if_false]
    exact Sparse.get_above d (b := b) (by simpa [Sparse.above] using h.2) hk

omit [DecidableEq α] in
theorem Sparse.above_mono {b c : Nat} {m : Sparse α} (h : Sparse.above b m = true) (hc : c ≤ b) : Sparse.above c m = true := by
  simp only [Sparse.above, List.all_eq_true, decide_eq_true_eq] at *
  intro e he
  exact Nat.lt_of_le_of_lt hc (h e he)

theorem Sparse.get_set_eq (d v : α) {k : Nat} : ∀ {m : Sparse α}, m.wf d = true → (Sparse.set d k v m).get d k = v
  | [], _ => by
    unfold Sparse.set
    split
    · rename_i h; simp [Sparse.get, h]
    · simp [Sparse.get]
  | (i, w) :: m, h => by
    simp only [Sparse.wf, Bool.and_eq_true, decide_eq_true_eq] at h
    unfold Sparse.set
    split
    · rename_i hk
      split
      · rename_i hv
        have : i ≠ k := by omega
        simp only [Sparse.get, this, if_false, hv]
        exact Sparse.get_above d h.1.2 (by omega)
      · simp [Sparse.get]
    · split
      · rename_i h1 h2
        subst h2
        split
        · rename_i hv
          rw [hv]
          exact Sparse.get_above d h.1.2 (by omega)
        · simp [Sparse.get]
      · rename_i h1 h2
        have : i ≠ k := by omega
        simp only [Sparse.get, this, if_false]
        exact Sparse.get_set_eq d v h.2

theorem Sparse.above_set {d v : α} {b k : Nat} (hk : b < k) : ∀ {m : Sparse α}, Sparse.above b m = true →
    Sparse.above b (Sparse.set d k v m) = true
  | [], _ => by
    unfold Sparse.set
    split
    · rfl
    · simp [Sparse.above, hk]
  | (i, w) :: m, h => by
    have h' := h
    simp only [Sparse.above, List.all_cons, Bool.and_eq_true, decide_eq_true_eq] at h'
    unfold Sparse.set
    split
    · split
      · exact h
      · simp [Sparse.above, hk, h'.1]
        simpa using h'.2
    · split
      · split
        · simpa [Sparse.above] using h'.2
        · simp [Sparse.above, hk]
          simpa using h'.2
      · simp only [Sparse.above, List.all_cons, Bool.and_eq_true, decide_eq_true_eq]
        exact ⟨h'.1, Sparse.above_set (d := d) (v := v) hk (by simpa [Sparse.above] using h'.2)⟩

/-- Writing a key keeps the canonical form. -/
theorem Sparse.set_wf {d v : α} {k : Nat} : ∀ {m : Sparse α}, m.wf d = true → (Sparse.set d k v m).wf d = true
  | [], _ => by
    unfold Sparse.set
    split
    · rfl
    · rename_i h; simp [Sparse.wf, h, Sparse.above]
  | (i, w) :: m, h => by
    have h' := h
    simp only [Sparse.wf, Bool.and_eq_true, decide_eq_true_eq] at h'
    unfold Sparse.set
    split
    · rename_i hk
      split
      · exact h
      · rename_i hv
        simp only [Sparse.wf, Bool.and_eq_true, decide_eq_true_eq, Sparse.above, List.all_cons]
        exact ⟨⟨hv, hk, by simpa [Sparse.above] using Sparse.above_mono h'.1.2 (Nat.le_of_lt hk)⟩, ⟨h'.1.1, by simpa [Sparse.above] using h'.1.2⟩, h'.2⟩
    · split
      · rename_i h1 h2
        subst h2
        split
        · exact h'.2
        · rename_i hv
          simp only [Sparse.wf, Bool.and_eq_true, decide_eq_true_eq]
          exact ⟨⟨hv, h'.1.2⟩, h'.2⟩
      · rename_i h1 h2
        simp only [Sparse.wf, Bool.and_eq_true, decide_eq_true_eq]
        exact ⟨⟨h'.1.1, Sparse.above_set (by omega) h'.1.2⟩, Sparse.set_wf h'.2⟩

/-- Writing consecutive keys keeps the canonical form. -/
theorem Sparse.setL_wf {d : α} : ∀ {vs : List α} {k : Nat} {m : Sparse α}, m.wf d = true → (Sparse.setL d k vs m).wf d = true
  | [], _, _, h => h
  | _ :: _, _, _, h => by unfold Sparse.setL; exact Sparse.setL_wf (Sparse.set_wf h)

/-- Dropping entries keeps the canonical form. -/
theorem Sparse.filter_wf {d : α} (p : Nat × α → Bool) : ∀ {m : Sparse α}, m.wf d = true → Sparse.wf d (m.filter p) = true
  | [], _ => rfl
  | (i, w) :: m, h => by
    simp only [Sparse.wf, Bool.and_eq_true, decide_eq_true_eq] at h
    rw [List.filter_cons]
    split
    · simp only [Sparse.wf, Bool.and_eq_true, decide_eq_true_eq]
      refine ⟨⟨h.1.1, ?_⟩, Sparse.filter_wf p h.2⟩
      have := h.1.2
      simp only [Sparse.above, List.all_eq_true, decide_eq_true_eq, List.mem_filter] at *
      exact fun e he => this e he.1
    · exact Sparse.filter_wf p h.2

theorem Sparse.clear_wf {d : α} {lo hi : Nat} {m : Sparse α} (h : m.wf d = true) : (Sparse.clear lo hi m).wf d = true :=
  Sparse.filter_wf _ h

/-- Keys outside a written range read as before. -/
theorem Sparse.get_setL_out (d : α) {j : Nat} : ∀ {vs : List α} {k : Nat} {m : Sparse α}, (j < k ∨ k + vs.length ≤ j) →
    (Sparse.setL d k vs m).get d j = m.get d j
  | [], _, _, _ => rfl
  | v :: vs, k, m, h => by
    simp only [List.length_cons] at h
    unfold Sparse.setL
    rw [Sparse.get_setL_out d (by omega), Sparse.get_set_ne d v (by omega)]

/-- Keys of a written range read the values written. -/
theorem Sparse.get_setL_in (d : α) {i : Nat} : ∀ {vs : List α} {k : Nat} {m : Sparse α}, m.wf d = true → (h : i < vs.length) →
    (Sparse.setL d k vs m).get d (k + i) = vs[i]
  | v :: vs, k, m, hm, h => by
    unfold Sparse.setL
    cases i with
    | zero =>
      rw [Sparse.get_setL_out d (by omega)]
      exact Sparse.get_set_eq d v hm
    | succ i =>
      rw [show k + (i + 1) = (k + 1) + i by omega, Sparse.get_setL_in d (Sparse.set_wf hm) (by simpa using h)]
      rfl

end Sys2Proof.Machine
end

