-- ==== Sys2Proof/Laws/Memory.lean ====
section
/-!
SUPPORT. The byte store keeps its canonical form (R252, R253, R257), and what its operations below code words and codec give.
-/

namespace Sys2Proof.Machine

/-- Memory at reset lists nothing. -/
theorem reset_memory_wf : Memory.wf State.reset.blk.mem.bytes = true := rfl

theorem rawWrite_wf (da : Nat) (bs : List Byte) (b : Block) (h : Memory.wf b.mem.bytes = true) :
    Memory.wf (b.rawWrite da bs).mem.bytes = true := Sparse.setL_wf h

theorem dropPage_bytes_wf (g : Nat) (b : Block) (h : Memory.wf b.mem.bytes = true) : Memory.wf (b.dropPage g).mem.bytes = true :=
  Sparse.clear_wf h

theorem zeroPage_wf (g a : Nat) (b : Block) (h : Memory.wf b.mem.bytes = true) : Memory.wf (b.zeroPage g a).mem.bytes = true :=
  Sparse.clear_wf h

theorem bytes_foldl {α : Type} {f : Block → α → Block} (hf : ∀ (b : Block) x, (f b x).mem.bytes = b.mem.bytes) :
    ∀ (l : List α) (b : Block), (l.foldl f b).mem.bytes = b.mem.bytes
  | [], _ => rfl
  | x :: l, b => (bytes_foldl hf l (f b x)).trans (hf b x)

/-- Clearing ZEROED touches attributes only. -/
theorem unzero_bytes (da n : Nat) (b : Block) : (b.unzero da n).mem.bytes = b.mem.bytes := by
  unfold Block.unzero
  split
  · rfl
  · refine bytes_foldl (fun b p => ?_) _ b
    dsimp only
    split <;> rfl

/-- Marking a location migrated touches the migration's own list only. -/
theorem markMigrated_bytes (da n : Nat) (b : Block) : (b.markMigrated da n).mem.bytes = b.mem.bytes := by
  unfold Block.markMigrated
  split
  · split
    · refine bytes_foldl (f := fun b i => _) (fun c i => ?_) _ b
      dsimp only
      split <;> rfl
    · rfl
  · rfl

/-- A write below the codec changes the byte store as a plain write does. -/
theorem memWrite_bytes (da : Nat) (bs : List Byte) (b : Block) : (b.memWrite da bs).mem.bytes = b.mem.bytes.setL 0 da bs := by
  unfold Block.memWrite
  simp only [Block.rawWrite]
  split <;> split <;> simp [markMigrated_bytes, unzero_bytes]

end Sys2Proof.Machine
end

