-- ==== Sys2Proof/Laws/Packet.lean ====
section
/-!
SUPPORT. A packet that Merlen can dispatch at once reaches its engine (R54, R60), and the command it becomes.
-/

namespace Sys2Proof.Machine

/-- What `accept` does with a command that passes steps 8 to 11, is alone in its queue and may start. -/
theorem accept_of_entry {c c0 : Cmd} {b0 b1 : Block}
    (h : (if (b0.checkBody c0.pkt).isSome then none
      else
        let b := b0.atValidation c0
        let b := b.setHeld c0.pkt.src (b.heldOf c0.pkt.src ++ [c0])
        match b.heldOf c0.pkt.src with
        | [] => none
        | d :: rest => if d = c0 && b.canStart c0 then some (c0, (b.setHeld c0.pkt.src rest).dispatched c0) else none) =
      some (c, b1)) : c = c0 ∧ b0.accept c0 = b1.startEngine c := by
  split at h
  · cases h
  · rename_i hb
    have hb' : b0.checkBody c0.pkt = none := by simpa using hb
    simp only [Block.accept, hb', Block.tryDispatch]
    dsimp only at h
    split at h
    · cases h
    · rename_i d rest heq
      split at h
      · rename_i hd
        simp only [Bool.and_eq_true, decide_eq_true_eq] at hd
        obtain ⟨rfl, hc⟩ := hd
        simp only [Option.some.injEq, Prod.mk.injEq] at h
        obtain ⟨rfl, rfl⟩ := h
        try rw [heq]
        simp only [hc, if_true, Block.dispatch, and_self]
      · cases h

/-- A packet with an entry reaches its engine, and its ring's pointers pass it. -/
theorem packet_entry {b : Block} {op : Nat} {act : Packet → Bool} {p : Packet} {c : Cmd} {b1 : Block}
    (h : b.packetEntry p = some (c, b1)) (hs : b.spells op act p = true) :
    b.packet op act p = b.past p (b1.startEngine c) := by
  unfold Block.packet
  rw [if_pos hs]
  unfold Block.packetEntry at h
  split at h
  · cases h
  · rename_i c0 b0 hr
    have hk := (accept_of_entry h).2
    unfold Block.readable at hr
    unfold Block.take Block.past
    split at hr
    · rename_i n hn
      split at hr
      · rename_i hcond
        simp only [Bool.and_eq_true, Bool.not_eq_true', decide_eq_false_iff_not, Option.isNone_iff_eq_none] at hcond
        obtain ⟨⟨hc, hsl⟩, hck⟩ := hcond
        simp only [hn, hc, if_true]
        unfold Block.readRing
        simp only [hsl, if_false, Block.validate, hck]
        unfold Block.opened at hr
        split at hr
        · cases hr
        · rename_i b2 hq; simp only [Option.some.injEq] at hr; try rw [hq]
          simp only [hr]; rw [hk]
        · rename_i key salt b2 hq; simp only [Option.some.injEq] at hr; try rw [hq]
          simp only [hr]; rw [hk]
      · cases hr
    · rename_i t ht
      simp only [ht]
      split at hr
      · cases hr
      · rename_i q ring rest hq
        split at hr
        · rename_i hcond
          simp only [Bool.and_eq_true, Option.isNone_iff_eq_none] at hcond
          obtain ⟨hc, hck⟩ := hcond
          try rw [hq]
          simp only [hc, Bool.and_self, if_true, Block.validateTile]
          simp only [Option.some.injEq] at hr
          have hck' : ({ b with mer.tileQ := b.mer.tileQ.set [] (t / 36) rest } : Block).checkHead p = none := hck
          simp only [hr, hk]
          rw [hck']
        · cases hr

/-- The command of an entry carries the packet as its engine reads it: decrypted where it is sealed. -/
theorem packetEntry_pkt {b : Block} {p : Packet} {c : Cmd} {b1 : Block} (h : b.packetEntry p = some (c, b1)) :
    c.pkt = b.clear p := by
  unfold Block.packetEntry at h
  split at h
  · cases h
  · rename_i c0 b0 hr
    rw [(accept_of_entry h).1]
    unfold Block.readable at hr
    unfold Block.clear
    split at hr
    · rename_i n hn
      simp only [hn]
      split at hr
      · unfold Block.opened Block.checkSeal at hr
        by_cases hse : p.isSealed = true
        · simp only [hse, Bool.not_true, if_true, Bool.false_eq_true, if_false] at hr ⊢
          split at hr
          · cases hr
          · rename_i b2 hq
            split at hq
            · cases hq
            · split at hq
              · cases hq
              · split at hq
                · cases hq
                · split at hq <;> cases hq
          · rename_i key salt b2 hq
            split at hq
            · cases hq
            · rename_i s hs
              rw [hs]
              split at hq
              · cases hq
              · split at hq
                · cases hq
                  simp only [Option.some.injEq] at hr
                  rw [← (Prod.mk.inj hr).1]
                  rfl
                · split at hq <;> cases hq
        · simp only [hse, Bool.not_false, if_true, Bool.false_eq_true, if_false] at hr ⊢
          split at hr
          · cases hr
          · simp only [Option.some.injEq] at hr
            rw [← (Prod.mk.inj hr).1]
          · rename_i hq
            split at hq <;> cases hq
      · cases hr
    · rename_i t ht
      simp only [ht]
      split at hr
      · cases hr
      · split at hr
        · simp only [Option.some.injEq] at hr
          rw [← (Prod.mk.inj hr).1]
        · cases hr

@[simp] theorem openWith_hdr (p : Packet) (s : Session) : (openWith p s).hdr = p.hdr := rfl
@[simp] theorem openWith_src (p : Packet) (s : Session) : (openWith p s).src = p.src := rfl

/-- Decryption leaves the header and the source of a packet alone. -/
theorem clear_hdr (b : Block) (p : Packet) : (b.clear p).hdr = p.hdr ∧ (b.clear p).src = p.src := by
  unfold Block.clear
  split
  · exact ⟨rfl, rfl⟩
  · split
    · split
      · exact ⟨rfl, rfl⟩
      · exact ⟨rfl, rfl⟩
    · exact ⟨rfl, rfl⟩

theorem packetEntry_opcode {b : Block} {p : Packet} {c : Cmd} {b1 : Block} (h : b.packetEntry p = some (c, b1)) :
    c.pkt.opcode = p.opcode := by
  unfold Packet.opcode Packet.h
  rw [packetEntry_pkt h, (clear_hdr b p).1]

/-- The meaning of a packet command: where it has an entry and spells the command, its engine starts. -/
theorem packet_run {s : State} {op : Nat} {act : Packet → Bool} {p : Packet} {c : Cmd} {b1 : Block}
    (h : s.blk.packetEntry p = some (c, b1)) (ho : p.opcode = op) (ha : act c.pkt = true) :
    s.run (Block.packet op act p) = .next (s.after p (b1.startEngine c)) := by
  have hs : s.blk.spells op act p = true := by
    unfold Block.spells
    rw [← packetEntry_pkt h]
    simp [ho, ha]
  unfold State.run State.on State.after
  rw [packet_entry h hs]

/-- The class of a command is the high byte of its opcode (R48). -/
theorem cls_of_opcode (p : Packet) : p.cls = p.opcode / 256 := by
  unfold Packet.cls Packet.opcode Packet.h bits
  simp only [Nat.shiftRight_eq_div_pow]
  omega

/-- Outside class FABRIC the check of R418 has no bearing. -/
theorem startEngine_eq {c : Cmd} {b : Block} (h : c.pkt.opcode / 256 ≠ 9) : b.startEngine c = b.engineStart c := by
  unfold Block.startEngine Cmd.needsPortKey
  rw [cls_of_opcode]
  simp [h]

/-- In class FABRIC the check of R418 passes where the job is not sealed, or has its secret. -/
theorem startEngine_fabric {c : Cmd} {b : Block} (h : b.trust.sealedReq = true → b.trust.secretSet = true) :
    b.startEngine c = b.engineStart c := by
  unfold Block.startEngine
  cases hs : b.trust.sealedReq
  · simp
  · simp [h hs]

/-- A packet of another class than FABRIC that has an entry: its engine's checks and start follow. -/
theorem engine_run {s : State} {op : Nat} {act : Packet → Bool} {p : Packet} {c : Cmd} {b1 : Block}
    (h : s.blk.packetEntry p = some (c, b1)) (ho : p.opcode = op) (ha : act c.pkt = true) (h9 : op / 256 ≠ 9) :
    s.run (Block.packet op act p) = .next (s.after p (b1.engineStart c)) := by
  rw [packet_run h ho ha, startEngine_eq]
  rw [packetEntry_opcode h, ho]
  exact h9

theorem fabric_run {s : State} {op : Nat} {act : Packet → Bool} {p : Packet} {c : Cmd} {b1 : Block}
    (h : s.blk.packetEntry p = some (c, b1)) (ho : p.opcode = op) (ha : act c.pkt = true)
    (hk : b1.trust.sealedReq = true → b1.trust.secretSet = true) :
    s.run (Block.packet op act p) = .next (s.after p (b1.engineStart c)) := by
  rw [packet_run h ho ha, startEngine_fabric hk]

end Sys2Proof.Machine
end

