-- ==== Sys2Proof/Laws/State.lean ====
section
/-!
SUPPORT. What each update of the state leaves alone: one lemma for each field and update, true by definition.
-/

namespace Sys2Proof.Machine

@[simp] theorem State.put_pending (s : State) (b : Block) : (s.put b).pending = s.pending := rfl
@[simp] theorem State.put_blk (s : State) (b : Block) : (s.put b).blk = b := rfl
@[simp] theorem State.on_pending (s : State) (f : Block → Block) : (s.on f).pending = s.pending := rfl
@[simp] theorem State.on_blk (s : State) (f : Block → Block) : (s.on f).blk = f s.blk := rfl
@[simp] theorem State.after_pending (s : State) (p : Packet) (b : Block) : (s.after p b).pending = s.pending := rfl
@[simp] theorem State.after_blk (s : State) (p : Packet) (b : Block) : (s.after p b).blk = s.blk.past p b := rfl
@[simp] theorem State.withTile_pending (s : State) (t : Nat) (x : Tile) : (s.withTile t x).pending = s.pending := rfl
@[simp] theorem State.withTile_blk (s : State) (t : Nat) (x : Tile) : (s.withTile t x).blk = s.blk.setTile t x := rfl
/-- A command that runs answers a next state. -/
@[simp] theorem State.run_eq (s : State) (f : Block → Block) : s.run f = .next (s.on f) := rfl

@[simp] theorem State.withTile_mer (s : State) (t : Nat) (x : Tile) : (s.withTile t x).blk.mer = s.blk.mer := rfl
@[simp] theorem State.withTile_sid (s : State) (t : Nat) (x : Tile) : (s.withTile t x).blk.sid = s.blk.sid := rfl
@[simp] theorem State.withTile_eph (s : State) (t : Nat) (x : Tile) : (s.withTile t x).blk.eph = s.blk.eph := rfl
@[simp] theorem State.withTile_log (s : State) (t : Nat) (x : Tile) : (s.withTile t x).blk.log = s.blk.log := rfl
@[simp] theorem State.withTile_shut (s : State) (t : Nat) (x : Tile) : (s.withTile t x).blk.shut = s.blk.shut := rfl
@[simp] theorem State.withTile_pins (s : State) (t : Nat) (x : Tile) : (s.withTile t x).blk.pins = s.blk.pins := rfl
@[simp] theorem State.withTile_host (s : State) (t : Nat) (x : Tile) : (s.withTile t x).blk.host = s.blk.host := rfl
@[simp] theorem State.withTile_alm (s : State) (t : Nat) (x : Tile) : (s.withTile t x).blk.alm = s.blk.alm := rfl
@[simp] theorem State.withTile_fw (s : State) (t : Nat) (x : Tile) : (s.withTile t x).blk.fw = s.blk.fw := rfl
@[simp] theorem State.withTile_mem (s : State) (t : Nat) (x : Tile) : (s.withTile t x).blk.mem = s.blk.mem := rfl
@[simp] theorem State.withTile_codec (s : State) (t : Nat) (x : Tile) : (s.withTile t x).blk.codec = s.blk.codec := rfl
@[simp] theorem State.withTile_trust (s : State) (t : Nat) (x : Tile) : (s.withTile t x).blk.trust = s.blk.trust := rfl
@[simp] theorem State.withTile_fab (s : State) (t : Nat) (x : Tile) : (s.withTile t x).blk.fab = s.blk.fab := rfl
@[simp] theorem State.withTile_csu (s : State) (t : Nat) (x : Tile) : (s.withTile t x).blk.csu = s.blk.csu := rfl
@[simp] theorem State.withTile_train (s : State) (t : Nat) (x : Tile) : (s.withTile t x).blk.train = s.blk.train := rfl
@[simp] theorem State.withTile_pool (s : State) (t : Nat) (x : Tile) : (s.withTile t x).blk.pool = s.blk.pool := rfl
@[simp] theorem State.withTile_tier (s : State) (t : Nat) (x : Tile) : (s.withTile t x).blk.tier = s.blk.tier := rfl
@[simp] theorem State.withTile_snap (s : State) (t : Nat) (x : Tile) : (s.withTile t x).blk.snap = s.blk.snap := rfl
@[simp] theorem State.withTile_pow (s : State) (t : Nat) (x : Tile) : (s.withTile t x).blk.pow = s.blk.pow := rfl
@[simp] theorem State.withTile_boot (s : State) (t : Nat) (x : Tile) : (s.withTile t x).blk.boot = s.blk.boot := rfl
@[simp] theorem State.withTile_jtag (s : State) (t : Nat) (x : Tile) : (s.withTile t x).blk.jtag = s.blk.jtag := rfl
@[simp] theorem State.withTile_out (s : State) (t : Nat) (x : Tile) : (s.withTile t x).blk.out = s.blk.out := rfl

@[simp] theorem emit_mer (o : Output) (b : Block) : (b.emit o).mer = b.mer := rfl
@[simp] theorem emit_sid (o : Output) (b : Block) : (b.emit o).sid = b.sid := rfl
@[simp] theorem emit_eph (o : Output) (b : Block) : (b.emit o).eph = b.eph := rfl
@[simp] theorem emit_log (o : Output) (b : Block) : (b.emit o).log = b.log := rfl
@[simp] theorem emit_shut (o : Output) (b : Block) : (b.emit o).shut = b.shut := rfl
@[simp] theorem emit_pins (o : Output) (b : Block) : (b.emit o).pins = b.pins := rfl
@[simp] theorem emit_host (o : Output) (b : Block) : (b.emit o).host = b.host := rfl
@[simp] theorem emit_alm (o : Output) (b : Block) : (b.emit o).alm = b.alm := rfl
@[simp] theorem emit_fw (o : Output) (b : Block) : (b.emit o).fw = b.fw := rfl
@[simp] theorem emit_tiles (o : Output) (b : Block) : (b.emit o).tiles = b.tiles := rfl
@[simp] theorem emit_mem (o : Output) (b : Block) : (b.emit o).mem = b.mem := rfl
@[simp] theorem emit_codec (o : Output) (b : Block) : (b.emit o).codec = b.codec := rfl
@[simp] theorem emit_trust (o : Output) (b : Block) : (b.emit o).trust = b.trust := rfl
@[simp] theorem emit_fab (o : Output) (b : Block) : (b.emit o).fab = b.fab := rfl
@[simp] theorem emit_csu (o : Output) (b : Block) : (b.emit o).csu = b.csu := rfl
@[simp] theorem emit_train (o : Output) (b : Block) : (b.emit o).train = b.train := rfl
@[simp] theorem emit_pool (o : Output) (b : Block) : (b.emit o).pool = b.pool := rfl
@[simp] theorem emit_tier (o : Output) (b : Block) : (b.emit o).tier = b.tier := rfl
@[simp] theorem emit_snap (o : Output) (b : Block) : (b.emit o).snap = b.snap := rfl
@[simp] theorem emit_pow (o : Output) (b : Block) : (b.emit o).pow = b.pow := rfl
@[simp] theorem emit_boot (o : Output) (b : Block) : (b.emit o).boot = b.boot := rfl
@[simp] theorem emit_jtag (o : Output) (b : Block) : (b.emit o).jtag = b.jtag := rfl

@[simp] theorem setRing_sid (n : Nat) (r : Ring) (b : Block) : (b.setRing n r).sid = b.sid := rfl
@[simp] theorem setRing_eph (n : Nat) (r : Ring) (b : Block) : (b.setRing n r).eph = b.eph := rfl
@[simp] theorem setRing_log (n : Nat) (r : Ring) (b : Block) : (b.setRing n r).log = b.log := rfl
@[simp] theorem setRing_shut (n : Nat) (r : Ring) (b : Block) : (b.setRing n r).shut = b.shut := rfl
@[simp] theorem setRing_pins (n : Nat) (r : Ring) (b : Block) : (b.setRing n r).pins = b.pins := rfl
@[simp] theorem setRing_host (n : Nat) (r : Ring) (b : Block) : (b.setRing n r).host = b.host := rfl
@[simp] theorem setRing_alm (n : Nat) (r : Ring) (b : Block) : (b.setRing n r).alm = b.alm := rfl
@[simp] theorem setRing_fw (n : Nat) (r : Ring) (b : Block) : (b.setRing n r).fw = b.fw := rfl
@[simp] theorem setRing_tiles (n : Nat) (r : Ring) (b : Block) : (b.setRing n r).tiles = b.tiles := rfl
@[simp] theorem setRing_mem (n : Nat) (r : Ring) (b : Block) : (b.setRing n r).mem = b.mem := rfl
@[simp] theorem setRing_codec (n : Nat) (r : Ring) (b : Block) : (b.setRing n r).codec = b.codec := rfl
@[simp] theorem setRing_trust (n : Nat) (r : Ring) (b : Block) : (b.setRing n r).trust = b.trust := rfl
@[simp] theorem setRing_fab (n : Nat) (r : Ring) (b : Block) : (b.setRing n r).fab = b.fab := rfl
@[simp] theorem setRing_csu (n : Nat) (r : Ring) (b : Block) : (b.setRing n r).csu = b.csu := rfl
@[simp] theorem setRing_train (n : Nat) (r : Ring) (b : Block) : (b.setRing n r).train = b.train := rfl
@[simp] theorem setRing_pool (n : Nat) (r : Ring) (b : Block) : (b.setRing n r).pool = b.pool := rfl
@[simp] theorem setRing_tier (n : Nat) (r : Ring) (b : Block) : (b.setRing n r).tier = b.tier := rfl
@[simp] theorem setRing_snap (n : Nat) (r : Ring) (b : Block) : (b.setRing n r).snap = b.snap := rfl
@[simp] theorem setRing_pow (n : Nat) (r : Ring) (b : Block) : (b.setRing n r).pow = b.pow := rfl
@[simp] theorem setRing_boot (n : Nat) (r : Ring) (b : Block) : (b.setRing n r).boot = b.boot := rfl
@[simp] theorem setRing_jtag (n : Nat) (r : Ring) (b : Block) : (b.setRing n r).jtag = b.jtag := rfl
@[simp] theorem setRing_out (n : Nat) (r : Ring) (b : Block) : (b.setRing n r).out = b.out := rfl

@[simp] theorem setTile_mer (t : Nat) (x : Tile) (b : Block) : (b.setTile t x).mer = b.mer := rfl
@[simp] theorem setTile_sid (t : Nat) (x : Tile) (b : Block) : (b.setTile t x).sid = b.sid := rfl
@[simp] theorem setTile_eph (t : Nat) (x : Tile) (b : Block) : (b.setTile t x).eph = b.eph := rfl
@[simp] theorem setTile_log (t : Nat) (x : Tile) (b : Block) : (b.setTile t x).log = b.log := rfl
@[simp] theorem setTile_shut (t : Nat) (x : Tile) (b : Block) : (b.setTile t x).shut = b.shut := rfl
@[simp] theorem setTile_pins (t : Nat) (x : Tile) (b : Block) : (b.setTile t x).pins = b.pins := rfl
@[simp] theorem setTile_host (t : Nat) (x : Tile) (b : Block) : (b.setTile t x).host = b.host := rfl
@[simp] theorem setTile_alm (t : Nat) (x : Tile) (b : Block) : (b.setTile t x).alm = b.alm := rfl
@[simp] theorem setTile_fw (t : Nat) (x : Tile) (b : Block) : (b.setTile t x).fw = b.fw := rfl
@[simp] theorem setTile_mem (t : Nat) (x : Tile) (b : Block) : (b.setTile t x).mem = b.mem := rfl
@[simp] theorem setTile_codec (t : Nat) (x : Tile) (b : Block) : (b.setTile t x).codec = b.codec := rfl
@[simp] theorem setTile_trust (t : Nat) (x : Tile) (b : Block) : (b.setTile t x).trust = b.trust := rfl
@[simp] theorem setTile_fab (t : Nat) (x : Tile) (b : Block) : (b.setTile t x).fab = b.fab := rfl
@[simp] theorem setTile_csu (t : Nat) (x : Tile) (b : Block) : (b.setTile t x).csu = b.csu := rfl
@[simp] theorem setTile_train (t : Nat) (x : Tile) (b : Block) : (b.setTile t x).train = b.train := rfl
@[simp] theorem setTile_pool (t : Nat) (x : Tile) (b : Block) : (b.setTile t x).pool = b.pool := rfl
@[simp] theorem setTile_tier (t : Nat) (x : Tile) (b : Block) : (b.setTile t x).tier = b.tier := rfl
@[simp] theorem setTile_snap (t : Nat) (x : Tile) (b : Block) : (b.setTile t x).snap = b.snap := rfl
@[simp] theorem setTile_pow (t : Nat) (x : Tile) (b : Block) : (b.setTile t x).pow = b.pow := rfl
@[simp] theorem setTile_boot (t : Nat) (x : Tile) (b : Block) : (b.setTile t x).boot = b.boot := rfl
@[simp] theorem setTile_jtag (t : Nat) (x : Tile) (b : Block) : (b.setTile t x).jtag = b.jtag := rfl
@[simp] theorem setTile_out (t : Nat) (x : Tile) (b : Block) : (b.setTile t x).out = b.out := rfl

@[simp] theorem onTile_mer (t : Nat) (f : Tile → Tile) (b : Block) : (b.onTile t f).mer = b.mer := rfl
@[simp] theorem onTile_sid (t : Nat) (f : Tile → Tile) (b : Block) : (b.onTile t f).sid = b.sid := rfl
@[simp] theorem onTile_eph (t : Nat) (f : Tile → Tile) (b : Block) : (b.onTile t f).eph = b.eph := rfl
@[simp] theorem onTile_log (t : Nat) (f : Tile → Tile) (b : Block) : (b.onTile t f).log = b.log := rfl
@[simp] theorem onTile_shut (t : Nat) (f : Tile → Tile) (b : Block) : (b.onTile t f).shut = b.shut := rfl
@[simp] theorem onTile_pins (t : Nat) (f : Tile → Tile) (b : Block) : (b.onTile t f).pins = b.pins := rfl
@[simp] theorem onTile_host (t : Nat) (f : Tile → Tile) (b : Block) : (b.onTile t f).host = b.host := rfl
@[simp] theorem onTile_alm (t : Nat) (f : Tile → Tile) (b : Block) : (b.onTile t f).alm = b.alm := rfl
@[simp] theorem onTile_fw (t : Nat) (f : Tile → Tile) (b : Block) : (b.onTile t f).fw = b.fw := rfl
@[simp] theorem onTile_mem (t : Nat) (f : Tile → Tile) (b : Block) : (b.onTile t f).mem = b.mem := rfl
@[simp] theorem onTile_codec (t : Nat) (f : Tile → Tile) (b : Block) : (b.onTile t f).codec = b.codec := rfl
@[simp] theorem onTile_trust (t : Nat) (f : Tile → Tile) (b : Block) : (b.onTile t f).trust = b.trust := rfl
@[simp] theorem onTile_fab (t : Nat) (f : Tile → Tile) (b : Block) : (b.onTile t f).fab = b.fab := rfl
@[simp] theorem onTile_csu (t : Nat) (f : Tile → Tile) (b : Block) : (b.onTile t f).csu = b.csu := rfl
@[simp] theorem onTile_train (t : Nat) (f : Tile → Tile) (b : Block) : (b.onTile t f).train = b.train := rfl
@[simp] theorem onTile_pool (t : Nat) (f : Tile → Tile) (b : Block) : (b.onTile t f).pool = b.pool := rfl
@[simp] theorem onTile_tier (t : Nat) (f : Tile → Tile) (b : Block) : (b.onTile t f).tier = b.tier := rfl
@[simp] theorem onTile_snap (t : Nat) (f : Tile → Tile) (b : Block) : (b.onTile t f).snap = b.snap := rfl
@[simp] theorem onTile_pow (t : Nat) (f : Tile → Tile) (b : Block) : (b.onTile t f).pow = b.pow := rfl
@[simp] theorem onTile_boot (t : Nat) (f : Tile → Tile) (b : Block) : (b.onTile t f).boot = b.boot := rfl
@[simp] theorem onTile_jtag (t : Nat) (f : Tile → Tile) (b : Block) : (b.onTile t f).jtag = b.jtag := rfl
@[simp] theorem onTile_out (t : Nat) (f : Tile → Tile) (b : Block) : (b.onTile t f).out = b.out := rfl

@[simp] theorem setCmd_sid (c : Cmd) (b : Block) : (b.setCmd c).sid = b.sid := rfl
@[simp] theorem setCmd_eph (c : Cmd) (b : Block) : (b.setCmd c).eph = b.eph := rfl
@[simp] theorem setCmd_log (c : Cmd) (b : Block) : (b.setCmd c).log = b.log := rfl
@[simp] theorem setCmd_shut (c : Cmd) (b : Block) : (b.setCmd c).shut = b.shut := rfl
@[simp] theorem setCmd_pins (c : Cmd) (b : Block) : (b.setCmd c).pins = b.pins := rfl
@[simp] theorem setCmd_host (c : Cmd) (b : Block) : (b.setCmd c).host = b.host := rfl
@[simp] theorem setCmd_alm (c : Cmd) (b : Block) : (b.setCmd c).alm = b.alm := rfl
@[simp] theorem setCmd_fw (c : Cmd) (b : Block) : (b.setCmd c).fw = b.fw := rfl
@[simp] theorem setCmd_tiles (c : Cmd) (b : Block) : (b.setCmd c).tiles = b.tiles := rfl
@[simp] theorem setCmd_mem (c : Cmd) (b : Block) : (b.setCmd c).mem = b.mem := rfl
@[simp] theorem setCmd_codec (c : Cmd) (b : Block) : (b.setCmd c).codec = b.codec := rfl
@[simp] theorem setCmd_trust (c : Cmd) (b : Block) : (b.setCmd c).trust = b.trust := rfl
@[simp] theorem setCmd_fab (c : Cmd) (b : Block) : (b.setCmd c).fab = b.fab := rfl
@[simp] theorem setCmd_csu (c : Cmd) (b : Block) : (b.setCmd c).csu = b.csu := rfl
@[simp] theorem setCmd_train (c : Cmd) (b : Block) : (b.setCmd c).train = b.train := rfl
@[simp] theorem setCmd_pool (c : Cmd) (b : Block) : (b.setCmd c).pool = b.pool := rfl
@[simp] theorem setCmd_tier (c : Cmd) (b : Block) : (b.setCmd c).tier = b.tier := rfl
@[simp] theorem setCmd_snap (c : Cmd) (b : Block) : (b.setCmd c).snap = b.snap := rfl
@[simp] theorem setCmd_pow (c : Cmd) (b : Block) : (b.setCmd c).pow = b.pow := rfl
@[simp] theorem setCmd_boot (c : Cmd) (b : Block) : (b.setCmd c).boot = b.boot := rfl
@[simp] theorem setCmd_jtag (c : Cmd) (b : Block) : (b.setCmd c).jtag = b.jtag := rfl
@[simp] theorem setCmd_out (c : Cmd) (b : Block) : (b.setCmd c).out = b.out := rfl

@[simp] theorem setWork_sid (id : Nat) (w : Work) (b : Block) : (b.setWork id w).sid = b.sid := rfl
@[simp] theorem setWork_eph (id : Nat) (w : Work) (b : Block) : (b.setWork id w).eph = b.eph := rfl
@[simp] theorem setWork_log (id : Nat) (w : Work) (b : Block) : (b.setWork id w).log = b.log := rfl
@[simp] theorem setWork_shut (id : Nat) (w : Work) (b : Block) : (b.setWork id w).shut = b.shut := rfl
@[simp] theorem setWork_pins (id : Nat) (w : Work) (b : Block) : (b.setWork id w).pins = b.pins := rfl
@[simp] theorem setWork_host (id : Nat) (w : Work) (b : Block) : (b.setWork id w).host = b.host := rfl
@[simp] theorem setWork_alm (id : Nat) (w : Work) (b : Block) : (b.setWork id w).alm = b.alm := rfl
@[simp] theorem setWork_fw (id : Nat) (w : Work) (b : Block) : (b.setWork id w).fw = b.fw := rfl
@[simp] theorem setWork_tiles (id : Nat) (w : Work) (b : Block) : (b.setWork id w).tiles = b.tiles := rfl
@[simp] theorem setWork_mem (id : Nat) (w : Work) (b : Block) : (b.setWork id w).mem = b.mem := rfl
@[simp] theorem setWork_codec (id : Nat) (w : Work) (b : Block) : (b.setWork id w).codec = b.codec := rfl
@[simp] theorem setWork_trust (id : Nat) (w : Work) (b : Block) : (b.setWork id w).trust = b.trust := rfl
@[simp] theorem setWork_fab (id : Nat) (w : Work) (b : Block) : (b.setWork id w).fab = b.fab := rfl
@[simp] theorem setWork_csu (id : Nat) (w : Work) (b : Block) : (b.setWork id w).csu = b.csu := rfl
@[simp] theorem setWork_train (id : Nat) (w : Work) (b : Block) : (b.setWork id w).train = b.train := rfl
@[simp] theorem setWork_pool (id : Nat) (w : Work) (b : Block) : (b.setWork id w).pool = b.pool := rfl
@[simp] theorem setWork_tier (id : Nat) (w : Work) (b : Block) : (b.setWork id w).tier = b.tier := rfl
@[simp] theorem setWork_snap (id : Nat) (w : Work) (b : Block) : (b.setWork id w).snap = b.snap := rfl
@[simp] theorem setWork_pow (id : Nat) (w : Work) (b : Block) : (b.setWork id w).pow = b.pow := rfl
@[simp] theorem setWork_boot (id : Nat) (w : Work) (b : Block) : (b.setWork id w).boot = b.boot := rfl
@[simp] theorem setWork_jtag (id : Nat) (w : Work) (b : Block) : (b.setWork id w).jtag = b.jtag := rfl
@[simp] theorem setWork_out (id : Nat) (w : Work) (b : Block) : (b.setWork id w).out = b.out := rfl

@[simp] theorem issueSync_sid (o : SyncOp) (b : Block) : (b.issueSync o).sid = b.sid := rfl
@[simp] theorem issueSync_eph (o : SyncOp) (b : Block) : (b.issueSync o).eph = b.eph := rfl
@[simp] theorem issueSync_log (o : SyncOp) (b : Block) : (b.issueSync o).log = b.log := rfl
@[simp] theorem issueSync_shut (o : SyncOp) (b : Block) : (b.issueSync o).shut = b.shut := rfl
@[simp] theorem issueSync_pins (o : SyncOp) (b : Block) : (b.issueSync o).pins = b.pins := rfl
@[simp] theorem issueSync_host (o : SyncOp) (b : Block) : (b.issueSync o).host = b.host := rfl
@[simp] theorem issueSync_alm (o : SyncOp) (b : Block) : (b.issueSync o).alm = b.alm := rfl
@[simp] theorem issueSync_fw (o : SyncOp) (b : Block) : (b.issueSync o).fw = b.fw := rfl
@[simp] theorem issueSync_tiles (o : SyncOp) (b : Block) : (b.issueSync o).tiles = b.tiles := rfl
@[simp] theorem issueSync_mem (o : SyncOp) (b : Block) : (b.issueSync o).mem = b.mem := rfl
@[simp] theorem issueSync_codec (o : SyncOp) (b : Block) : (b.issueSync o).codec = b.codec := rfl
@[simp] theorem issueSync_trust (o : SyncOp) (b : Block) : (b.issueSync o).trust = b.trust := rfl
@[simp] theorem issueSync_fab (o : SyncOp) (b : Block) : (b.issueSync o).fab = b.fab := rfl
@[simp] theorem issueSync_csu (o : SyncOp) (b : Block) : (b.issueSync o).csu = b.csu := rfl
@[simp] theorem issueSync_train (o : SyncOp) (b : Block) : (b.issueSync o).train = b.train := rfl
@[simp] theorem issueSync_pool (o : SyncOp) (b : Block) : (b.issueSync o).pool = b.pool := rfl
@[simp] theorem issueSync_tier (o : SyncOp) (b : Block) : (b.issueSync o).tier = b.tier := rfl
@[simp] theorem issueSync_snap (o : SyncOp) (b : Block) : (b.issueSync o).snap = b.snap := rfl
@[simp] theorem issueSync_pow (o : SyncOp) (b : Block) : (b.issueSync o).pow = b.pow := rfl
@[simp] theorem issueSync_boot (o : SyncOp) (b : Block) : (b.issueSync o).boot = b.boot := rfl
@[simp] theorem issueSync_jtag (o : SyncOp) (b : Block) : (b.issueSync o).jtag = b.jtag := rfl
@[simp] theorem issueSync_out (o : SyncOp) (b : Block) : (b.issueSync o).out = b.out := rfl

@[simp] theorem draw_sid (w : Nat) (b : Block) : ((b.draw w).2).sid = b.sid := rfl
@[simp] theorem draw_eph (w : Nat) (b : Block) : ((b.draw w).2).eph = b.eph := rfl
@[simp] theorem draw_log (w : Nat) (b : Block) : ((b.draw w).2).log = b.log := rfl
@[simp] theorem draw_shut (w : Nat) (b : Block) : ((b.draw w).2).shut = b.shut := rfl
@[simp] theorem draw_pins (w : Nat) (b : Block) : ((b.draw w).2).pins = b.pins := rfl
@[simp] theorem draw_host (w : Nat) (b : Block) : ((b.draw w).2).host = b.host := rfl
@[simp] theorem draw_alm (w : Nat) (b : Block) : ((b.draw w).2).alm = b.alm := rfl
@[simp] theorem draw_fw (w : Nat) (b : Block) : ((b.draw w).2).fw = b.fw := rfl
@[simp] theorem draw_tiles (w : Nat) (b : Block) : ((b.draw w).2).tiles = b.tiles := rfl
@[simp] theorem draw_mem (w : Nat) (b : Block) : ((b.draw w).2).mem = b.mem := rfl
@[simp] theorem draw_codec (w : Nat) (b : Block) : ((b.draw w).2).codec = b.codec := rfl
@[simp] theorem draw_trust (w : Nat) (b : Block) : ((b.draw w).2).trust = b.trust := rfl
@[simp] theorem draw_fab (w : Nat) (b : Block) : ((b.draw w).2).fab = b.fab := rfl
@[simp] theorem draw_csu (w : Nat) (b : Block) : ((b.draw w).2).csu = b.csu := rfl
@[simp] theorem draw_train (w : Nat) (b : Block) : ((b.draw w).2).train = b.train := rfl
@[simp] theorem draw_pool (w : Nat) (b : Block) : ((b.draw w).2).pool = b.pool := rfl
@[simp] theorem draw_tier (w : Nat) (b : Block) : ((b.draw w).2).tier = b.tier := rfl
@[simp] theorem draw_snap (w : Nat) (b : Block) : ((b.draw w).2).snap = b.snap := rfl
@[simp] theorem draw_pow (w : Nat) (b : Block) : ((b.draw w).2).pow = b.pow := rfl
@[simp] theorem draw_boot (w : Nat) (b : Block) : ((b.draw w).2).boot = b.boot := rfl
@[simp] theorem draw_jtag (w : Nat) (b : Block) : ((b.draw w).2).jtag = b.jtag := rfl
@[simp] theorem draw_out (w : Nat) (b : Block) : ((b.draw w).2).out = b.out := rfl

@[simp] theorem free_sid (w : Nat) (b : Block) : ((b.free w).2).sid = b.sid := rfl
@[simp] theorem free_eph (w : Nat) (b : Block) : ((b.free w).2).eph = b.eph := rfl
@[simp] theorem free_log (w : Nat) (b : Block) : ((b.free w).2).log = b.log := rfl
@[simp] theorem free_shut (w : Nat) (b : Block) : ((b.free w).2).shut = b.shut := rfl
@[simp] theorem free_pins (w : Nat) (b : Block) : ((b.free w).2).pins = b.pins := rfl
@[simp] theorem free_host (w : Nat) (b : Block) : ((b.free w).2).host = b.host := rfl
@[simp] theorem free_alm (w : Nat) (b : Block) : ((b.free w).2).alm = b.alm := rfl
@[simp] theorem free_fw (w : Nat) (b : Block) : ((b.free w).2).fw = b.fw := rfl
@[simp] theorem free_tiles (w : Nat) (b : Block) : ((b.free w).2).tiles = b.tiles := rfl
@[simp] theorem free_mem (w : Nat) (b : Block) : ((b.free w).2).mem = b.mem := rfl
@[simp] theorem free_codec (w : Nat) (b : Block) : ((b.free w).2).codec = b.codec := rfl
@[simp] theorem free_trust (w : Nat) (b : Block) : ((b.free w).2).trust = b.trust := rfl
@[simp] theorem free_fab (w : Nat) (b : Block) : ((b.free w).2).fab = b.fab := rfl
@[simp] theorem free_csu (w : Nat) (b : Block) : ((b.free w).2).csu = b.csu := rfl
@[simp] theorem free_train (w : Nat) (b : Block) : ((b.free w).2).train = b.train := rfl
@[simp] theorem free_pool (w : Nat) (b : Block) : ((b.free w).2).pool = b.pool := rfl
@[simp] theorem free_tier (w : Nat) (b : Block) : ((b.free w).2).tier = b.tier := rfl
@[simp] theorem free_snap (w : Nat) (b : Block) : ((b.free w).2).snap = b.snap := rfl
@[simp] theorem free_pow (w : Nat) (b : Block) : ((b.free w).2).pow = b.pow := rfl
@[simp] theorem free_boot (w : Nat) (b : Block) : ((b.free w).2).boot = b.boot := rfl
@[simp] theorem free_jtag (w : Nat) (b : Block) : ((b.free w).2).jtag = b.jtag := rfl
@[simp] theorem free_out (w : Nat) (b : Block) : ((b.free w).2).out = b.out := rfl

@[simp] theorem rawWrite_mer (da : Nat) (bs : List Byte) (b : Block) : (b.rawWrite da bs).mer = b.mer := rfl
@[simp] theorem rawWrite_sid (da : Nat) (bs : List Byte) (b : Block) : (b.rawWrite da bs).sid = b.sid := rfl
@[simp] theorem rawWrite_eph (da : Nat) (bs : List Byte) (b : Block) : (b.rawWrite da bs).eph = b.eph := rfl
@[simp] theorem rawWrite_log (da : Nat) (bs : List Byte) (b : Block) : (b.rawWrite da bs).log = b.log := rfl
@[simp] theorem rawWrite_shut (da : Nat) (bs : List Byte) (b : Block) : (b.rawWrite da bs).shut = b.shut := rfl
@[simp] theorem rawWrite_pins (da : Nat) (bs : List Byte) (b : Block) : (b.rawWrite da bs).pins = b.pins := rfl
@[simp] theorem rawWrite_host (da : Nat) (bs : List Byte) (b : Block) : (b.rawWrite da bs).host = b.host := rfl
@[simp] theorem rawWrite_alm (da : Nat) (bs : List Byte) (b : Block) : (b.rawWrite da bs).alm = b.alm := rfl
@[simp] theorem rawWrite_fw (da : Nat) (bs : List Byte) (b : Block) : (b.rawWrite da bs).fw = b.fw := rfl
@[simp] theorem rawWrite_tiles (da : Nat) (bs : List Byte) (b : Block) : (b.rawWrite da bs).tiles = b.tiles := rfl
@[simp] theorem rawWrite_codec (da : Nat) (bs : List Byte) (b : Block) : (b.rawWrite da bs).codec = b.codec := rfl
@[simp] theorem rawWrite_trust (da : Nat) (bs : List Byte) (b : Block) : (b.rawWrite da bs).trust = b.trust := rfl
@[simp] theorem rawWrite_fab (da : Nat) (bs : List Byte) (b : Block) : (b.rawWrite da bs).fab = b.fab := rfl
@[simp] theorem rawWrite_csu (da : Nat) (bs : List Byte) (b : Block) : (b.rawWrite da bs).csu = b.csu := rfl
@[simp] theorem rawWrite_train (da : Nat) (bs : List Byte) (b : Block) : (b.rawWrite da bs).train = b.train := rfl
@[simp] theorem rawWrite_pool (da : Nat) (bs : List Byte) (b : Block) : (b.rawWrite da bs).pool = b.pool := rfl
@[simp] theorem rawWrite_tier (da : Nat) (bs : List Byte) (b : Block) : (b.rawWrite da bs).tier = b.tier := rfl
@[simp] theorem rawWrite_snap (da : Nat) (bs : List Byte) (b : Block) : (b.rawWrite da bs).snap = b.snap := rfl
@[simp] theorem rawWrite_pow (da : Nat) (bs : List Byte) (b : Block) : (b.rawWrite da bs).pow = b.pow := rfl
@[simp] theorem rawWrite_boot (da : Nat) (bs : List Byte) (b : Block) : (b.rawWrite da bs).boot = b.boot := rfl
@[simp] theorem rawWrite_jtag (da : Nat) (bs : List Byte) (b : Block) : (b.rawWrite da bs).jtag = b.jtag := rfl
@[simp] theorem rawWrite_out (da : Nat) (bs : List Byte) (b : Block) : (b.rawWrite da bs).out = b.out := rfl

@[simp] theorem setAttr_mer (g a : Nat) (b : Block) : (b.setAttr g a).mer = b.mer := rfl
@[simp] theorem setAttr_sid (g a : Nat) (b : Block) : (b.setAttr g a).sid = b.sid := rfl
@[simp] theorem setAttr_eph (g a : Nat) (b : Block) : (b.setAttr g a).eph = b.eph := rfl
@[simp] theorem setAttr_log (g a : Nat) (b : Block) : (b.setAttr g a).log = b.log := rfl
@[simp] theorem setAttr_shut (g a : Nat) (b : Block) : (b.setAttr g a).shut = b.shut := rfl
@[simp] theorem setAttr_pins (g a : Nat) (b : Block) : (b.setAttr g a).pins = b.pins := rfl
@[simp] theorem setAttr_host (g a : Nat) (b : Block) : (b.setAttr g a).host = b.host := rfl
@[simp] theorem setAttr_alm (g a : Nat) (b : Block) : (b.setAttr g a).alm = b.alm := rfl
@[simp] theorem setAttr_fw (g a : Nat) (b : Block) : (b.setAttr g a).fw = b.fw := rfl
@[simp] theorem setAttr_tiles (g a : Nat) (b : Block) : (b.setAttr g a).tiles = b.tiles := rfl
@[simp] theorem setAttr_codec (g a : Nat) (b : Block) : (b.setAttr g a).codec = b.codec := rfl
@[simp] theorem setAttr_trust (g a : Nat) (b : Block) : (b.setAttr g a).trust = b.trust := rfl
@[simp] theorem setAttr_fab (g a : Nat) (b : Block) : (b.setAttr g a).fab = b.fab := rfl
@[simp] theorem setAttr_csu (g a : Nat) (b : Block) : (b.setAttr g a).csu = b.csu := rfl
@[simp] theorem setAttr_train (g a : Nat) (b : Block) : (b.setAttr g a).train = b.train := rfl
@[simp] theorem setAttr_pool (g a : Nat) (b : Block) : (b.setAttr g a).pool = b.pool := rfl
@[simp] theorem setAttr_tier (g a : Nat) (b : Block) : (b.setAttr g a).tier = b.tier := rfl
@[simp] theorem setAttr_snap (g a : Nat) (b : Block) : (b.setAttr g a).snap = b.snap := rfl
@[simp] theorem setAttr_pow (g a : Nat) (b : Block) : (b.setAttr g a).pow = b.pow := rfl
@[simp] theorem setAttr_boot (g a : Nat) (b : Block) : (b.setAttr g a).boot = b.boot := rfl
@[simp] theorem setAttr_jtag (g a : Nat) (b : Block) : (b.setAttr g a).jtag = b.jtag := rfl
@[simp] theorem setAttr_out (g a : Nat) (b : Block) : (b.setAttr g a).out = b.out := rfl

@[simp] theorem dropPage_mer (g : Nat) (b : Block) : (b.dropPage g).mer = b.mer := rfl
@[simp] theorem dropPage_sid (g : Nat) (b : Block) : (b.dropPage g).sid = b.sid := rfl
@[simp] theorem dropPage_eph (g : Nat) (b : Block) : (b.dropPage g).eph = b.eph := rfl
@[simp] theorem dropPage_log (g : Nat) (b : Block) : (b.dropPage g).log = b.log := rfl
@[simp] theorem dropPage_shut (g : Nat) (b : Block) : (b.dropPage g).shut = b.shut := rfl
@[simp] theorem dropPage_pins (g : Nat) (b : Block) : (b.dropPage g).pins = b.pins := rfl
@[simp] theorem dropPage_host (g : Nat) (b : Block) : (b.dropPage g).host = b.host := rfl
@[simp] theorem dropPage_alm (g : Nat) (b : Block) : (b.dropPage g).alm = b.alm := rfl
@[simp] theorem dropPage_fw (g : Nat) (b : Block) : (b.dropPage g).fw = b.fw := rfl
@[simp] theorem dropPage_tiles (g : Nat) (b : Block) : (b.dropPage g).tiles = b.tiles := rfl
@[simp] theorem dropPage_codec (g : Nat) (b : Block) : (b.dropPage g).codec = b.codec := rfl
@[simp] theorem dropPage_trust (g : Nat) (b : Block) : (b.dropPage g).trust = b.trust := rfl
@[simp] theorem dropPage_fab (g : Nat) (b : Block) : (b.dropPage g).fab = b.fab := rfl
@[simp] theorem dropPage_csu (g : Nat) (b : Block) : (b.dropPage g).csu = b.csu := rfl
@[simp] theorem dropPage_train (g : Nat) (b : Block) : (b.dropPage g).train = b.train := rfl
@[simp] theorem dropPage_pool (g : Nat) (b : Block) : (b.dropPage g).pool = b.pool := rfl
@[simp] theorem dropPage_tier (g : Nat) (b : Block) : (b.dropPage g).tier = b.tier := rfl
@[simp] theorem dropPage_snap (g : Nat) (b : Block) : (b.dropPage g).snap = b.snap := rfl
@[simp] theorem dropPage_pow (g : Nat) (b : Block) : (b.dropPage g).pow = b.pow := rfl
@[simp] theorem dropPage_boot (g : Nat) (b : Block) : (b.dropPage g).boot = b.boot := rfl
@[simp] theorem dropPage_jtag (g : Nat) (b : Block) : (b.dropPage g).jtag = b.jtag := rfl
@[simp] theorem dropPage_out (g : Nat) (b : Block) : (b.dropPage g).out = b.out := rfl

@[simp] theorem setPc_mer (h : Nat) (p : Pc) (b : Block) : (b.setPc h p).mer = b.mer := rfl
@[simp] theorem setPc_sid (h : Nat) (p : Pc) (b : Block) : (b.setPc h p).sid = b.sid := rfl
@[simp] theorem setPc_eph (h : Nat) (p : Pc) (b : Block) : (b.setPc h p).eph = b.eph := rfl
@[simp] theorem setPc_log (h : Nat) (p : Pc) (b : Block) : (b.setPc h p).log = b.log := rfl
@[simp] theorem setPc_shut (h : Nat) (p : Pc) (b : Block) : (b.setPc h p).shut = b.shut := rfl
@[simp] theorem setPc_pins (h : Nat) (p : Pc) (b : Block) : (b.setPc h p).pins = b.pins := rfl
@[simp] theorem setPc_host (h : Nat) (p : Pc) (b : Block) : (b.setPc h p).host = b.host := rfl
@[simp] theorem setPc_alm (h : Nat) (p : Pc) (b : Block) : (b.setPc h p).alm = b.alm := rfl
@[simp] theorem setPc_fw (h : Nat) (p : Pc) (b : Block) : (b.setPc h p).fw = b.fw := rfl
@[simp] theorem setPc_tiles (h : Nat) (p : Pc) (b : Block) : (b.setPc h p).tiles = b.tiles := rfl
@[simp] theorem setPc_codec (h : Nat) (p : Pc) (b : Block) : (b.setPc h p).codec = b.codec := rfl
@[simp] theorem setPc_trust (h : Nat) (p : Pc) (b : Block) : (b.setPc h p).trust = b.trust := rfl
@[simp] theorem setPc_fab (h : Nat) (p : Pc) (b : Block) : (b.setPc h p).fab = b.fab := rfl
@[simp] theorem setPc_csu (h : Nat) (p : Pc) (b : Block) : (b.setPc h p).csu = b.csu := rfl
@[simp] theorem setPc_train (h : Nat) (p : Pc) (b : Block) : (b.setPc h p).train = b.train := rfl
@[simp] theorem setPc_pool (h : Nat) (p : Pc) (b : Block) : (b.setPc h p).pool = b.pool := rfl
@[simp] theorem setPc_tier (h : Nat) (p : Pc) (b : Block) : (b.setPc h p).tier = b.tier := rfl
@[simp] theorem setPc_snap (h : Nat) (p : Pc) (b : Block) : (b.setPc h p).snap = b.snap := rfl
@[simp] theorem setPc_pow (h : Nat) (p : Pc) (b : Block) : (b.setPc h p).pow = b.pow := rfl
@[simp] theorem setPc_boot (h : Nat) (p : Pc) (b : Block) : (b.setPc h p).boot = b.boot := rfl
@[simp] theorem setPc_jtag (h : Nat) (p : Pc) (b : Block) : (b.setPc h p).jtag = b.jtag := rfl
@[simp] theorem setPc_out (h : Nat) (p : Pc) (b : Block) : (b.setPc h p).out = b.out := rfl

@[simp] theorem setPool_mer (p : Pool) (b : Block) : (b.setPool p).mer = b.mer := rfl
@[simp] theorem setPool_sid (p : Pool) (b : Block) : (b.setPool p).sid = b.sid := rfl
@[simp] theorem setPool_eph (p : Pool) (b : Block) : (b.setPool p).eph = b.eph := rfl
@[simp] theorem setPool_log (p : Pool) (b : Block) : (b.setPool p).log = b.log := rfl
@[simp] theorem setPool_shut (p : Pool) (b : Block) : (b.setPool p).shut = b.shut := rfl
@[simp] theorem setPool_pins (p : Pool) (b : Block) : (b.setPool p).pins = b.pins := rfl
@[simp] theorem setPool_host (p : Pool) (b : Block) : (b.setPool p).host = b.host := rfl
@[simp] theorem setPool_alm (p : Pool) (b : Block) : (b.setPool p).alm = b.alm := rfl
@[simp] theorem setPool_fw (p : Pool) (b : Block) : (b.setPool p).fw = b.fw := rfl
@[simp] theorem setPool_tiles (p : Pool) (b : Block) : (b.setPool p).tiles = b.tiles := rfl
@[simp] theorem setPool_mem (p : Pool) (b : Block) : (b.setPool p).mem = b.mem := rfl
@[simp] theorem setPool_codec (p : Pool) (b : Block) : (b.setPool p).codec = b.codec := rfl
@[simp] theorem setPool_trust (p : Pool) (b : Block) : (b.setPool p).trust = b.trust := rfl
@[simp] theorem setPool_fab (p : Pool) (b : Block) : (b.setPool p).fab = b.fab := rfl
@[simp] theorem setPool_csu (p : Pool) (b : Block) : (b.setPool p).csu = b.csu := rfl
@[simp] theorem setPool_train (p : Pool) (b : Block) : (b.setPool p).train = b.train := rfl
@[simp] theorem setPool_tier (p : Pool) (b : Block) : (b.setPool p).tier = b.tier := rfl
@[simp] theorem setPool_snap (p : Pool) (b : Block) : (b.setPool p).snap = b.snap := rfl
@[simp] theorem setPool_pow (p : Pool) (b : Block) : (b.setPool p).pow = b.pow := rfl
@[simp] theorem setPool_boot (p : Pool) (b : Block) : (b.setPool p).boot = b.boot := rfl
@[simp] theorem setPool_jtag (p : Pool) (b : Block) : (b.setPool p).jtag = b.jtag := rfl
@[simp] theorem setPool_out (p : Pool) (b : Block) : (b.setPool p).out = b.out := rfl

@[simp] theorem setPort_mer (m : Nat) (p : Port) (b : Block) : (b.setPort m p).mer = b.mer := rfl
@[simp] theorem setPort_sid (m : Nat) (p : Port) (b : Block) : (b.setPort m p).sid = b.sid := rfl
@[simp] theorem setPort_eph (m : Nat) (p : Port) (b : Block) : (b.setPort m p).eph = b.eph := rfl
@[simp] theorem setPort_log (m : Nat) (p : Port) (b : Block) : (b.setPort m p).log = b.log := rfl
@[simp] theorem setPort_shut (m : Nat) (p : Port) (b : Block) : (b.setPort m p).shut = b.shut := rfl
@[simp] theorem setPort_pins (m : Nat) (p : Port) (b : Block) : (b.setPort m p).pins = b.pins := rfl
@[simp] theorem setPort_host (m : Nat) (p : Port) (b : Block) : (b.setPort m p).host = b.host := rfl
@[simp] theorem setPort_alm (m : Nat) (p : Port) (b : Block) : (b.setPort m p).alm = b.alm := rfl
@[simp] theorem setPort_fw (m : Nat) (p : Port) (b : Block) : (b.setPort m p).fw = b.fw := rfl
@[simp] theorem setPort_tiles (m : Nat) (p : Port) (b : Block) : (b.setPort m p).tiles = b.tiles := rfl
@[simp] theorem setPort_mem (m : Nat) (p : Port) (b : Block) : (b.setPort m p).mem = b.mem := rfl
@[simp] theorem setPort_codec (m : Nat) (p : Port) (b : Block) : (b.setPort m p).codec = b.codec := rfl
@[simp] theorem setPort_trust (m : Nat) (p : Port) (b : Block) : (b.setPort m p).trust = b.trust := rfl
@[simp] theorem setPort_csu (m : Nat) (p : Port) (b : Block) : (b.setPort m p).csu = b.csu := rfl
@[simp] theorem setPort_train (m : Nat) (p : Port) (b : Block) : (b.setPort m p).train = b.train := rfl
@[simp] theorem setPort_pool (m : Nat) (p : Port) (b : Block) : (b.setPort m p).pool = b.pool := rfl
@[simp] theorem setPort_tier (m : Nat) (p : Port) (b : Block) : (b.setPort m p).tier = b.tier := rfl
@[simp] theorem setPort_snap (m : Nat) (p : Port) (b : Block) : (b.setPort m p).snap = b.snap := rfl
@[simp] theorem setPort_pow (m : Nat) (p : Port) (b : Block) : (b.setPort m p).pow = b.pow := rfl
@[simp] theorem setPort_boot (m : Nat) (p : Port) (b : Block) : (b.setPort m p).boot = b.boot := rfl
@[simp] theorem setPort_jtag (m : Nat) (p : Port) (b : Block) : (b.setPort m p).jtag = b.jtag := rfl
@[simp] theorem setPort_out (m : Nat) (p : Port) (b : Block) : (b.setPort m p).out = b.out := rfl

@[simp] theorem setColl_mer (c : Coll) (b : Block) : (b.setColl c).mer = b.mer := rfl
@[simp] theorem setColl_sid (c : Coll) (b : Block) : (b.setColl c).sid = b.sid := rfl
@[simp] theorem setColl_eph (c : Coll) (b : Block) : (b.setColl c).eph = b.eph := rfl
@[simp] theorem setColl_log (c : Coll) (b : Block) : (b.setColl c).log = b.log := rfl
@[simp] theorem setColl_shut (c : Coll) (b : Block) : (b.setColl c).shut = b.shut := rfl
@[simp] theorem setColl_pins (c : Coll) (b : Block) : (b.setColl c).pins = b.pins := rfl
@[simp] theorem setColl_host (c : Coll) (b : Block) : (b.setColl c).host = b.host := rfl
@[simp] theorem setColl_alm (c : Coll) (b : Block) : (b.setColl c).alm = b.alm := rfl
@[simp] theorem setColl_fw (c : Coll) (b : Block) : (b.setColl c).fw = b.fw := rfl
@[simp] theorem setColl_tiles (c : Coll) (b : Block) : (b.setColl c).tiles = b.tiles := rfl
@[simp] theorem setColl_mem (c : Coll) (b : Block) : (b.setColl c).mem = b.mem := rfl
@[simp] theorem setColl_codec (c : Coll) (b : Block) : (b.setColl c).codec = b.codec := rfl
@[simp] theorem setColl_trust (c : Coll) (b : Block) : (b.setColl c).trust = b.trust := rfl
@[simp] theorem setColl_csu (c : Coll) (b : Block) : (b.setColl c).csu = b.csu := rfl
@[simp] theorem setColl_train (c : Coll) (b : Block) : (b.setColl c).train = b.train := rfl
@[simp] theorem setColl_pool (c : Coll) (b : Block) : (b.setColl c).pool = b.pool := rfl
@[simp] theorem setColl_tier (c : Coll) (b : Block) : (b.setColl c).tier = b.tier := rfl
@[simp] theorem setColl_snap (c : Coll) (b : Block) : (b.setColl c).snap = b.snap := rfl
@[simp] theorem setColl_pow (c : Coll) (b : Block) : (b.setColl c).pow = b.pow := rfl
@[simp] theorem setColl_boot (c : Coll) (b : Block) : (b.setColl c).boot = b.boot := rfl
@[simp] theorem setColl_jtag (c : Coll) (b : Block) : (b.setColl c).jtag = b.jtag := rfl
@[simp] theorem setColl_out (c : Coll) (b : Block) : (b.setColl c).out = b.out := rfl

@[simp] theorem setWalk_mer (w : Walk) (b : Block) : (b.setWalk w).mer = b.mer := rfl
@[simp] theorem setWalk_sid (w : Walk) (b : Block) : (b.setWalk w).sid = b.sid := rfl
@[simp] theorem setWalk_eph (w : Walk) (b : Block) : (b.setWalk w).eph = b.eph := rfl
@[simp] theorem setWalk_log (w : Walk) (b : Block) : (b.setWalk w).log = b.log := rfl
@[simp] theorem setWalk_shut (w : Walk) (b : Block) : (b.setWalk w).shut = b.shut := rfl
@[simp] theorem setWalk_pins (w : Walk) (b : Block) : (b.setWalk w).pins = b.pins := rfl
@[simp] theorem setWalk_host (w : Walk) (b : Block) : (b.setWalk w).host = b.host := rfl
@[simp] theorem setWalk_alm (w : Walk) (b : Block) : (b.setWalk w).alm = b.alm := rfl
@[simp] theorem setWalk_fw (w : Walk) (b : Block) : (b.setWalk w).fw = b.fw := rfl
@[simp] theorem setWalk_tiles (w : Walk) (b : Block) : (b.setWalk w).tiles = b.tiles := rfl
@[simp] theorem setWalk_codec (w : Walk) (b : Block) : (b.setWalk w).codec = b.codec := rfl
@[simp] theorem setWalk_trust (w : Walk) (b : Block) : (b.setWalk w).trust = b.trust := rfl
@[simp] theorem setWalk_fab (w : Walk) (b : Block) : (b.setWalk w).fab = b.fab := rfl
@[simp] theorem setWalk_csu (w : Walk) (b : Block) : (b.setWalk w).csu = b.csu := rfl
@[simp] theorem setWalk_train (w : Walk) (b : Block) : (b.setWalk w).train = b.train := rfl
@[simp] theorem setWalk_pool (w : Walk) (b : Block) : (b.setWalk w).pool = b.pool := rfl
@[simp] theorem setWalk_tier (w : Walk) (b : Block) : (b.setWalk w).tier = b.tier := rfl
@[simp] theorem setWalk_snap (w : Walk) (b : Block) : (b.setWalk w).snap = b.snap := rfl
@[simp] theorem setWalk_pow (w : Walk) (b : Block) : (b.setWalk w).pow = b.pow := rfl
@[simp] theorem setWalk_boot (w : Walk) (b : Block) : (b.setWalk w).boot = b.boot := rfl
@[simp] theorem setWalk_jtag (w : Walk) (b : Block) : (b.setWalk w).jtag = b.jtag := rfl
@[simp] theorem setWalk_out (w : Walk) (b : Block) : (b.setWalk w).out = b.out := rfl

@[simp] theorem setStream_mer (k : SnapStream) (b : Block) : (b.setStream k).mer = b.mer := rfl
@[simp] theorem setStream_sid (k : SnapStream) (b : Block) : (b.setStream k).sid = b.sid := rfl
@[simp] theorem setStream_eph (k : SnapStream) (b : Block) : (b.setStream k).eph = b.eph := rfl
@[simp] theorem setStream_log (k : SnapStream) (b : Block) : (b.setStream k).log = b.log := rfl
@[simp] theorem setStream_shut (k : SnapStream) (b : Block) : (b.setStream k).shut = b.shut := rfl
@[simp] theorem setStream_pins (k : SnapStream) (b : Block) : (b.setStream k).pins = b.pins := rfl
@[simp] theorem setStream_host (k : SnapStream) (b : Block) : (b.setStream k).host = b.host := rfl
@[simp] theorem setStream_alm (k : SnapStream) (b : Block) : (b.setStream k).alm = b.alm := rfl
@[simp] theorem setStream_fw (k : SnapStream) (b : Block) : (b.setStream k).fw = b.fw := rfl
@[simp] theorem setStream_tiles (k : SnapStream) (b : Block) : (b.setStream k).tiles = b.tiles := rfl
@[simp] theorem setStream_mem (k : SnapStream) (b : Block) : (b.setStream k).mem = b.mem := rfl
@[simp] theorem setStream_codec (k : SnapStream) (b : Block) : (b.setStream k).codec = b.codec := rfl
@[simp] theorem setStream_trust (k : SnapStream) (b : Block) : (b.setStream k).trust = b.trust := rfl
@[simp] theorem setStream_fab (k : SnapStream) (b : Block) : (b.setStream k).fab = b.fab := rfl
@[simp] theorem setStream_csu (k : SnapStream) (b : Block) : (b.setStream k).csu = b.csu := rfl
@[simp] theorem setStream_train (k : SnapStream) (b : Block) : (b.setStream k).train = b.train := rfl
@[simp] theorem setStream_pool (k : SnapStream) (b : Block) : (b.setStream k).pool = b.pool := rfl
@[simp] theorem setStream_tier (k : SnapStream) (b : Block) : (b.setStream k).tier = b.tier := rfl
@[simp] theorem setStream_pow (k : SnapStream) (b : Block) : (b.setStream k).pow = b.pow := rfl
@[simp] theorem setStream_boot (k : SnapStream) (b : Block) : (b.setStream k).boot = b.boot := rfl
@[simp] theorem setStream_jtag (k : SnapStream) (b : Block) : (b.setStream k).jtag = b.jtag := rfl
@[simp] theorem setStream_out (k : SnapStream) (b : Block) : (b.setStream k).out = b.out := rfl

end Sys2Proof.Machine
end

