-- ==== Sys2Proof/Tests/Slice0.lean ====
section
/-!
SUPPORT. Tests: ill-formed commands are refused, the spec's own figures come out, and the statements' premises can be met.
-/

namespace Sys2Proof.Tests
open Sys2Proof Sys2Proof.Machine

/-! ### Well-formedness: one term for each check, which the check refuses -/

/-- A packet of ring n or tile t with the PLEN and SLOTS its header gives, and a number of parameter bytes. -/
def rawPacket (src : Src) (plen slots n : Nat) : Packet :=
  { src := src, hdr := BitVec.ofNat 512 (plen * 2 ^ 24 + slots * 2 ^ 16), params := List.replicate n 0 }

theorem test_wf_accepts_packets :
    ([.nop (rawPacket (.ring 63) 0 1 0), .jobBind (rawPacket (.ring 0) 128 3 128), .syncAdd (rawPacket (.tile 143) 16 2 64)] :
      List Instr).all Instr.wf = true := by decide +kernel

/-- R37, R48; R13, R184. -/
theorem test_wf_refuses_packets :
    ([.nop (rawPacket (.ring 64) 0 1 0), .jobBind (rawPacket (.ring 0) 128 3 127), .syncAdd (rawPacket (.tile 144) 16 2 64),
      .syncAdd (rawPacket (.tile 143) 16 2 63)] : List Instr).all (fun i => !i.wf) = true := by decide +kernel

def okA : VecA := { pipe := 1, vd := 63, va := 63, vb := 63, vc := 63, pm := 7, pk := true, mod := 4095 }
def okM : VecM := { pipe := 1, vr := 63, acore := 3, areg := 31, sr := 3, ofs := 4095, slot := 31, cid := 255 }

theorem test_wf_accepts_slots :
    ([.vecAdd 143 okA, .vecStc 143 okM, .scalarAdd 143 ⟨3, 31, 31, 31⟩, .scalarAddi 143 ⟨3, 31, 31, 16383⟩,
      .scalarLi 143 ⟨3, 31, 524287⟩, .scalarBeq 143 ⟨3, 31, 31, 16383⟩, .scalarWdr 143 ⟨3, 31, 524287⟩,
      .scalarVget 143 ⟨3, 31, 63, 511⟩, .syncSlotWait 143 8191 3 (.imm 8191), .setAc 143 15 (.reg 3 31), .step 143 3 true,
      .drain 143 3 3, .load 143 15 15] : List Instr).all Instr.wf = true := by decide

/-- Form A (R167). -/
theorem test_wf_refuses_form_a :
    ([.vecAdd 144 okA, .vecAdd 0 { okA with pipe := 2 }, .vecAdd 0 { okA with vd := 64 }, .vecAdd 0 { okA with va := 64 },
      .vecAdd 0 { okA with vb := 64 }, .vecAdd 0 { okA with vc := 64 }, .vecAdd 0 { okA with pm := 8 },
      .vecAdd 0 { okA with mod := 4096 }] : List Instr).all (fun i => !i.wf) = true := by decide

/-- Form M (R168). -/
theorem test_wf_refuses_form_m :
    ([.vecStc 144 okM, .vecStc 0 { okM with pipe := 2 }, .vecStc 0 { okM with vr := 64 }, .vecStc 0 { okM with acore := 4 },
      .vecStc 0 { okM with areg := 32 }, .vecStc 0 { okM with sr := 4 }, .vecStc 0 { okM with ofs := 4096 },
      .vecStc 0 { okM with slot := 32 }, .vecStc 0 { okM with cid := 256 }] : List Instr).all (fun i => !i.wf) = true := by decide

/-- Scalar forms (R181). -/
theorem test_wf_refuses_scalar_forms :
    ([.scalarAdd 144 ⟨0, 0, 0, 0⟩, .scalarAdd 0 ⟨4, 0, 0, 0⟩, .scalarAdd 0 ⟨0, 32, 0, 0⟩, .scalarAdd 0 ⟨0, 0, 32, 0⟩,
      .scalarAdd 0 ⟨0, 0, 0, 32⟩, .scalarAddi 0 ⟨4, 0, 0, 0⟩, .scalarAddi 0 ⟨0, 32, 0, 0⟩, .scalarAddi 0 ⟨0, 0, 32, 0⟩,
      .scalarAddi 0 ⟨0, 0, 0, 16384⟩, .scalarLi 0 ⟨4, 0, 0⟩, .scalarLi 0 ⟨0, 32, 0⟩, .scalarLi 0 ⟨0, 0, 524288⟩,
      .scalarBeq 0 ⟨4, 0, 0, 0⟩, .scalarBeq 0 ⟨0, 32, 0, 0⟩, .scalarBeq 0 ⟨0, 0, 32, 0⟩, .scalarBeq 0 ⟨0, 0, 0, 16384⟩,
      .scalarWdr 0 ⟨4, 0, 0⟩, .scalarWdr 0 ⟨0, 32, 0⟩, .scalarWdr 0 ⟨0, 0, 524288⟩, .scalarVget 0 ⟨4, 0, 0, 0⟩,
      .scalarVget 0 ⟨0, 32, 0, 0⟩, .scalarVget 0 ⟨0, 0, 64, 0⟩, .scalarVget 0 ⟨0, 0, 0, 512⟩] : List Instr).all
      (fun i => !i.wf) = true := by decide

/-- Cube, move and sync slots (R142 to R144, R148). -/
theorem test_wf_refuses_slots :
    ([.step 144 0 true, .step 0 4 true, .drain 0 4 0, .drain 0 0 4, .discard 0 4, .stepAndDrain 0 4 true 0 0,
      .stepAndDrain 0 0 true 4 0, .stepAndDrain 0 0 true 0 4, .stepAndDiscard 0 4 true 0, .stepAndDiscard 0 0 true 4,
      .load 0 16 0, .load 0 0 16, .store 0 16 0, .store 0 0 16, .syncSlotWait 0 8192 0 (.imm 0), .syncSlotWait 0 0 4 (.imm 0),
      .syncSlotWait 0 0 0 (.imm 8192), .syncSlotWait 0 0 0 (.reg 4 0), .syncSlotWait 0 0 0 (.reg 0 32),
      .syncSlotAdd 0 8192 (.imm 0), .syncSlotSet 0 8192 (.imm 0), .waitAc 0 16 0 (.imm 0), .waitAc 0 0 4 (.imm 0),
      .setAc 0 16 (.imm 0), .groupSettle 0 4, .transientFault 0 4 0 0, .transientFault 0 0 12 0, .transientFault 0 0 0 8,
      .tileFinish 144, .drainComplete 144, .syncOpEffect 8192] : List Instr).all (fun i => !i.wf) = true := by decide

/-- Registers, BARs and configuration space (R37, R41, R425 to R433). -/
theorem test_wf_refuses_registers :
    ([.packetDispatch 4 0, .ringEnable 64 0x80000000, .ringEnable 0 0x100000000, .ringEnable 0 0x7FFFFFFF, .ringDisable 64,
      .subTailWrite 64 0, .subTailWrite 0 0x100000000, .cplHeadWrite 64 0, .cplHeadWrite 0 0x100000000,
      .sidLoadArm (2 ^ 64), .logAckWrite (2 ^ 32), .firstFaultClr (2 ^ 32), .msixUnmask (some 128), .msixSpacingExpiry 128,
      .registerWrite 0x10000 4 0, .registerWrite 0 8 (2 ^ 64), .bar4Read (2 ^ 36) 1 0, .bar4Read 0 0 0, .bar4Read 0 513 0,
      .bar4Read 0 1 3, .bar4Write (2 ^ 36) [0] 0, .bar4Write 0 [] 0, .bar2Read (2 ^ 25) 1 0, .bar2Write (2 ^ 25) [0] 0,
      .bar2Write 0 [0] 3, .configWrite .command (2 ^ 32), .configWrite (.bar 6) 0, .configWrite (.other 4096) 0,
      .scNowRead 4 8, .scNowRead 0 2] : List Instr).all (fun i => !i.wf) = true := by decide

/-- Memory, tiers, ports and messages (R267, R268, R297, R347, R351). -/
theorem test_wf_refuses_engines :
    ([.patrolScrub 768 0 [] true true, .patrolScrub 0 0 [(0, 2 ^ 144)] true true, .walkerGranule 16, .walkDone 16,
      .memTempSample 24 0, .memTempSample 0 256, .tierHead 64, .tierNotBefore 64, .tierDeadline 64, .tierCommit 64, .pathGrant 5,
      .flitSlotFill 8, .replayTimeout 8, .portTrainingDone 8 0 0 0 0, .portTrainingDone 0 256 0 0 0,
      .portTrainingDone 0 0 (2 ^ 64) 0 0, .portTrainingDone 0 0 0 (2 ^ 32) 0, .portTrainingDone 0 0 0 0 (2 ^ 256),
      .peerWrite 65536 0, .peerWrite 0 65536, .collTimeout 16 0, .streamComplete 7, .streamWriteFail 7, .updateBlockPass 4] :
      List Instr).all (fun i => !i.wf) = true := by decide

/-- Sensors, start-up, management and JTAG (R437, R438, R440, R462, R486). -/
theorem test_wf_refuses_management :
    ([.inputPowerStep 65536, .inputPowerRelease 65536, .dieTempStep 5 0, .dieTempStep 0 256, .dieTempHard 5 0,
      .dieTempRelease [0, 0, 0, 0, 0, 0], .dieTempRelease [256], .mctpControl 2 0 0 0, .mctpControl 0 256 0 0,
      .mctpControl 0 0 256 0, .mctpControl 0 0 0 256, .spdmRequest 2 [], .vendorDefinedRequest 2 0, .vendorDefinedRequest 0 65536,
      .getHealth 2 0, .getHealth 0 256, .getTemps 2 0, .getPower 0 0 (2 ^ 32) 0 0, .getPower 0 0 0 (2 ^ 32) 0,
      .getPower 0 0 0 0 (2 ^ 32), .getAlmanac 2 0, .getLog 0 0 (2 ^ 32) 0, .getLog 0 0 0 256, .setPlCeiling 0 0 256,
      .resetModule 2 0, .ideKm 2 0 0 0, .ideKm 0 3 0 0, .ideKm 0 0 2 0, .ideKm 0 0 0 2, .jtagIrLoad 256, .bypass 1 2,
      .samplePreload 1 2 0, .samplePreload 1 0 2, .extest 1 2 0, .clamp 1 2, .highz 1 2, .dbgRead 0x10000, .dbgRead 2,
      .dbgFull (2 ^ 52) 0 [], .dbgFull 0 4097 [], .i3cDynamicAddress 128, .selfTestDone 9 0 0 [] [] [] 0,
      .selfTestDone 0 16 0 [] [] [] 0, .selfTestDone 0 0 0 [768] [] [] 0, .selfTestDone 0 0 0 [] [152] [] 0,
      .selfTestDone 0 0 0 [] [] [(152, 0)] 0, .selfTestDone 0 0 0 [] [] [(0, 12)] 0] : List Instr).all (fun i => !i.wf) = true := by decide

section Witnesses
set_option Elab.async false

/-! ### Blocks and packets to test on -/

/-- A block that is READY and awake: ring 0 enabled in HBM with slots that wait, job 7 bound. -/
def ready : Block :=
  let b := Block.powerOn
  let cfg : RingCfg := { RingCfg.zero with loc := true }
  { b with
    boot.phase := .ready, boot.ready := true, boot.perst := false, trust.job := 7, host.linkUp := true, sid.state := .locked, sid.clkValid := true,
    mer.rings := [(0, { Ring.zero with enable := true, cfg := cfg, latched := cfg, subTail := 60 })] }

/-- Parameter bytes: n of them, from fields by their lowest bit. -/
def par (n : Nat) (fs : List (Nat × Nat)) : List Byte := leBytes n (fields fs)

/-- A packet of ring 0 for a job, its CHECK as R48 gives it. -/
def packetJ (job op : Nat) (params : List Byte) : Packet :=
  let h := fields [(0, op), (16, ceilDiv (64 + params.length) 64), (24, params.length), (128, job)]
  { src := .ring 0, hdr := BitVec.ofNat 512 (h + 2 ^ 480 * crc32c ((leBytes 64 h).take 60 ++ params)), params := params }

def packet (op : Nat) (params : List Byte) : Packet := packetJ 7 op params

/-- Merlen can dispatch the packet at once, and its command and block meet a premise. -/
def meets (b : Block) (p : Packet) (f : Cmd → Block → Bool) : Bool :=
  match b.packetEntry p with
  | some (c, b1) => f c b1
  | none => false

def any2 (_ : Cmd) (_ : Block) : Bool := true

def stateOf (b : Block) : State := { pending := [], blk := b }

/-- The command of a packet, at work. -/
def cmdOf (id : Nat) (p : Packet) (w : Work) : Cmd :=
  { id := id, pkt := p, ring := 0, sealedOk := none, acq := [], detail := 0, result := 0, rsp := [], fmts := 0, work := w }

/-! ### The premises of the statements can be met (steps, rings, CTRL, SYNC) -/

theorem met_StepRunsFrontCommand :
    ({ stateOf ready with pending := [.runStart, .ephCancelApply] } : State).pending = .runStart :: [.ephCancelApply] := rfl

theorem met_EmptyQueueIsACycle : (stateOf ready).pending = [] ∧ State.reset.blk.isReady = false := by decide +kernel

theorem met_WaitingCommandsStayWellFormed :
    ∃ s t : State, s.pending ≠ [] ∧ s.pendingWf ∧ step s = .next t :=
  ⟨{ stateOf ready with pending := [.runStart] }, _, by decide, by unfold State.pendingWf; decide, rfl⟩

theorem met_MemoryReadsWhatWasWritten : (ready.memWrite 0x10000 [1, 0, 2]).mem.bytes.wf 0 = true := by decide +kernel

theorem met_RingHeadAdvances :
    let p := packet 0 []
    (ready.canRead 0 p.slots = true ∧ 1 ≤ p.slots ∧ p.slots ≤ 64 ∧ p.slots ≤ (ready.ring 0).waiting ∧
      (ready.validate 0 p).mer.rings.wf Ring.zero = true) ∧
    (let q := rawPacket (.ring 0) 0 0 0; ready.canRead 0 q.slots = true ∧ q.slots = 0) := by decide +kernel

/-- A ring whose records go to host memory. -/
theorem met_CompletionRecord :
    let b := ready.setRing 0 { ready.ring 0 with latched := RingCfg.zero }
    let c := cmdOf 0 (packet 0 []) .none
    c.pkt.src = .ring 0 ∧ c.acq = [] ∧ c.sealedOk = none ∧ Status.ok < 2 ^ 12 ∧ c.pkt.sigEn = false ∧ c.pkt.irq = false ∧
      (b.ring 0).latched.loc = false := by decide +kernel

/-- R63 where the conditions change over. -/
theorem met_WaitConditions :
    condHolds 0 (2 ^ 31 - 1) 0 = true ∧ condHolds 0 (2 ^ 31) 0 = false ∧ condHolds 3 (2 ^ 31) 0 = true ∧
      condHolds 3 (2 ^ 31 - 1) 0 = false ∧ condHolds 0 0 (2 ^ 32 - 1) = true ∧ condHolds 1 5 5 = true ∧ condHolds 2 5 5 = false ∧
      condHolds 2 5 6 = true := by decide

theorem met_SidLoadIgnoredInAJob : (stateOf ready).blk.trust.job ≠ 0 ∧ (stateOf ready).blk.pow.sleep = .awake := by decide

theorem met_SiderealNeverRunsBack :
    (stateOf ready).blk.sid.sc.toNat < 2 ^ 62 ∧ (stateOf ready).blk.sid.loadEpoch < 2 ^ 38 ∧ (stateOf ready).blk.sid.codes = [] ∧
      ∃ t, exec (.sidClkTick true) (stateOf ready) = .next t := ⟨by decide, by decide, rfl, _, rfl⟩

/-- Two rotations with the same operands read by lane pair. -/
theorem met_RotRotatesLanePairs :
    let x : Tile := { Tile.zero with vregs := [(1, 3), (2, 7), (3, 2 ^ 32 + 9)] }
    let y : Tile := { Tile.zero with vregs := [(1, 3), (2, 2 ^ 32 + 7), (3, 9)] }
    let a : VecA := { okA with va := 1, vb := 2, vc := 3 }
    x.vreg a.va = y.vreg a.va ∧
      (List.range 256).all (fun j => (x.vreg a.vb / 2 ^ (64 * j)) % 2 ^ 32 = (y.vreg a.vb / 2 ^ (64 * j)) % 2 ^ 32 &&
        (x.vreg a.vc / 2 ^ (64 * j)) % 2 ^ 32 = (y.vreg a.vc / 2 ^ (64 * j)) % 2 ^ 32) = true := by decide +kernel

/-- A block whose log holds one entry. -/
def logged : Block := ready.logState Status.ok 0

theorem met_CtrlCommandsComplete :
    meets ready (packet 0x0000 []) any2 = true ∧ meets ready (packet 0x0001 []) any2 = true ∧
    meets ready (packet 0x0002 (par 16 [(76, 0x10000)])) (fun c _ => (almanacBar (c.pkt.f 127 76)).isNone) = true ∧
    meets logged (packet 0x0003 (par 16 [(76, 0x10000), (44, 0), (30, 1)])) (fun c b1 =>
      c.pkt.f 127 76 % 64 = 0 && c.pkt.f 43 30 = 1 && (match b1.log.from_ (c.pkt.f 75 44) (c.pkt.f 43 30) with
        | (e :: es, _) => (rspStatus (c.pkt.f 127 76) (((e :: es).map LogEntry.bytes).flatten).length).isNone
        | _ => false)) = true ∧
    meets ready (packet 0x0004 []) (fun _ b1 => !b1.shut.shut) = true ∧
    meets { ready with shut.shut := true } (packet 0x0004 []) (fun _ b1 => b1.shut.shut && b1.shut.active = 0) = true ∧
    meets ready (packet 0x0005 []) any2 = true ∧ meets ready (packet 0x0006 []) any2 = true := by decide +kernel

theorem met_JobBoundAndReset :
    meets { ready with trust.job := 0 } (packetJ 0 0x0007 (par 128 [(0, 9)])) (fun c b1 => (b1.bindBar c.pkt).isNone) = true ∧
    meets ready (packet 0x0005 []) any2 = true := by decide +kernel

theorem met_SyncCommandsComplete :
    meets ready (packet 0x0100 (par 16 [(96, 5), (83, 8191)])) any2 = true ∧
    meets ready (packet 0x0101 (par 16 [(96, 5), (83, 8191)])) any2 = true ∧
    meets ready (packet 0x0102 (par 16 [(80, 1)])) (fun c b1 =>
      c.pkt.f 82 80 < 4 && condHolds (c.pkt.f 82 80) (b1.syncVal (c.pkt.f 95 83)) (c.pkt.f 127 96)) = true ∧
    meets ready (packet 0x0102 (par 16 [(96, 5), (80, 1)])) (fun c b1 =>
      c.pkt.f 82 80 < 4 && !condHolds (c.pkt.f 82 80) (b1.syncVal (c.pkt.f 95 83)) (c.pkt.f 127 96)) = true ∧
    meets ready (packet 0x0103 (par 16 [(83, 8191)])) any2 = true := by decide +kernel

/-! ### Programs, convolution, attention and the page store -/

/-- An image of one bundle that ends (R154, R155). -/
def body1 : List Byte := par 32 [(15, 1)]
def header1 : Nat :=
  fields [(0, 0x4D495054), (32, 1), (48, 128), (64, 1), (128, crc32c body1), (224, 28), (296, 15)]
def image1 : Image := { handle := 0, header := header1, bundles := [leNat body1], consts := [] }

theorem met_PROG_LOAD :
    meets (ready.memWrite 0x10000 (leBytes 128 header1 ++ body1)) (packet 0x0200 (par 32 [(112, 1), (0, 0x10000)])) (fun c b1 =>
      let da := c.pkt.f 51 0
      let h := c.pkt.f 67 64
      h < 8 && da % 64 = 0 && (hbmStatus da 128).isNone && (match b1.daRead da 128 with
        | (.ok hb false, b2) =>
          let n := 32 * bits (leNat hb) 95 64 + 64 * bits (leNat hb) 271 256
          bits (leNat hb) 31 0 = 0x4D495054 && bits (leNat hb) 47 32 = 1 && bits (leNat hb) 63 48 = 128 && inHbm da (128 + n) &&
            (match b2.daRead (da + 128) n with
             | (.ok body false, b3) => (imageFault h (leNat hb) body).isNone &&
                (maskList 144 (c.pkt.f 255 112)).all (fun t => !b3.handlesUsed t (handlesOf h (bits (leNat hb) 95 64)))
             | _ => false)
        | _ => false)) = true := by decide +kernel

/-- A block whose T0 and T1 hold the image. -/
def loaded : Block :=
  { ready with tiles := [(0, { Tile.zero with images := [image1] }), (1, { Tile.zero with images := [image1] })] }

theorem met_RUN :
    meets loaded (packet 0x0201 (par 96 [(112, 3)])) (fun c b1 =>
      let ts := maskList 144 (c.pkt.f 255 112)
      ts = [0, 1] && c.pkt.f 111 108 < 8 && c.pkt.f 51 0 = 0 && (b1.runFault c.pkt).isNone &&
        (maskList 32 (b1.runFormats c.pkt)).all (fun n => (b1.fmt n).kind ≠ 0) && ts.all (fun t => (b1.tile t).st ≠ 2) &&
        !bit c.pkt.pnum 106) = true := by decide +kernel

def work1 : RunWork :=
  { tiles := [0], handle := 0, level := 0, resume := false, ovfEn := false, ovfCensus := 0, waitLimit := 4, saveDa := 0x1000000,
    args := [], started := true, finished := [], maxCycles := 0, frozen := 0, preempt := [], saved := [], regen := none }
def runCmd (w : RunWork) : Cmd := cmdOf 9 (packet 0x0201 (par 96 [(112, 1)])) (.run w)

/-- A block on whose T0 the RUN of command 9 runs. -/
def running (x : Tile) : Block :=
  { loaded with mer.running := [runCmd work1], mer.nextId := 10, tiles := [(0, { x with images := [image1], run := some 9 })] }

theorem met_PREEMPT :
    meets ready (packet 0x0202 (par 32 [(112, 1)])) (fun _ b1 => b1.mer.running.all (fun x => x.runWork.isNone)) = true ∧
    meets (running Tile.zero) (packet 0x0202 (par 32 [(112, 1)])) (fun c b1 =>
      b1.mer.running.filter (fun x => x.runWork.any (fun w => w.started && w.regen.isNone &&
        w.tiles.any (maskList 144 (c.pkt.f 255 112)).contains)) = [runCmd work1] && work1.saveDa ≠ 0) = true := by decide +kernel

/-- The example of R102's layout that 5-bit minifloats with EW = 2, MW = 2 take: width 5, bias 1, every code a number. -/
theorem met_FW_WRITE :
    let wheel (b1 : Block) (c : Cmd) : Sparse Nat := (maskList 32 (c.pkt.f 31 0)).zipIdx.foldl
      (fun m x => m.set 0 x.1 (c.pkt.f (64 * x.2 + 127) (64 * x.2 + 64))) b1.fw.slots
    meets ready (packet 0x0700 (par 16 [(0, 2 ^ 31)])) (fun c b1 =>
      (maskList 10 (c.pkt.f 31 0)).isEmpty && fwEntryOk (c.pkt.f 127 64) && !bit b1.fmtsBusy 31 && wheel b1 c = b1.fw.slots) = true ∧
    meets { ready with fw := { slots := [(31, 5)], changes := 0 } } (packet 0x0700 (par 16 [(0, 2 ^ 31)])) (fun c b1 =>
      fwEntryOk (c.pkt.f 127 64) && !bit b1.fmtsBusy 31 && wheel b1 c ≠ b1.fw.slots) = true := by decide +kernel

theorem met_RUN_START :
    let c := runCmd { work1 with started := false }
    let b := { loaded with mer.running := [c] }
    b.takeTiles.mer.running.find? b.takeTiles.regenReady = none ∧
      b.takeTiles.mer.running.find? (fun x => x.runWork.any (fun v => !v.started && b.takeTiles.tilesReady x)) = some c := by
  decide +kernel

theorem met_TILE_FINISH :
    let b := running { Tile.zero with ended := true }
    (b.tile 0).run = some 9 ∧ b.cmd 9 = some (runCmd work1) ∧ (b.tile 0).ended = true ∧ (b.tile 0).stopped = false ∧
      b.quiet 0 = true := by decide +kernel

theorem met_PREEMPT_BOUNDARY :
    let x := (running { Tile.zero with stopping := true }).tile 0
    x.run.isSome = true ∧ x.stopping = true ∧ x.stopped = false ∧ x.atBoundary = true := by decide +kernel

/-- The save area can be written, and the tile is quiet. -/
theorem met_PREEMPT_SAVE_DONE :
    let b := running { Tile.zero with stopped := true }
    (b.tile 0).run = some 9 ∧ b.cmd 9 = some (runCmd work1) ∧ (b.tile 0).stopped = true ∧ b.quiet 0 = true ∧ b.allClean = true ∧
      work1.tiles.all (0 :: work1.saved).contains = true := by decide +kernel

theorem met_WAIT_TIMEOUT :
    let b := { running { Tile.zero with waitSince := some 1 } with sid.sc := 5 }
    (b.tile 0).run = some 9 ∧ b.cmd 9 = some (runCmd work1) ∧ (b.tile 0).waitSince = some 1 ∧
      1 + work1.waitLimit ≤ b.sid.sc.toNat := by decide +kernel

/-- A 1 × 1 × 1 convolution of one BF16 position with 32 channels. -/
def axis1 : Nat := fields [(112, 1), (96, 1), (56, 1), (48, 1), (40, 1)]
def tens1 (da : Nat) : Nat := fields [(204, da), (120, 1), (92, 1), (72, 1)]
def convPar : List Byte :=
  par 256 [(368, 1), (352, 1), (336, 32), (320, 32), (304, 1), (240, 0x10000), (216, 0x20000), (171, 1), (166, 1), (161, 1),
    (102, 0x50000), (512, axis1), (640, axis1), (768, axis1), (1024, tens1 0x20000), (1484, 0x30000), (1408, 1),
    (1536, tens1 0x40000)]

set_option maxRecDepth 100000 in
theorem met_CONV3D :
    meets ready (packet 0x0300 convPar) (fun c b1 => (b1.convFault (Conv.of c.pkt)).isNone) = true ∧
    meets ready (packet 0x0301 convPar) (fun c b1 => (b1.convFault (Conv.of c.pkt)).isNone) = true := by decide +kernel

/-- Attention of one head over one key, all BF16. -/
def trec (da : Nat) : Nat := fields [(204, da), (128, 2)]
def attnFs : List (Nat × Nat) :=
  [(368, 1), (352, 1), (336, 1), (328, 64), (304, 1), (280, 1), (248, 0x3F800000), (227, 1), (222, 1), (217, 1), (212, 1),
    (207, 1), (133, 0x50000), (512, trec 0x10000), (768, trec 0x11000), (1024, trec 0x12000), (1280, trec 0x13000)]

set_option maxRecDepth 100000 in
theorem met_ATTN :
    meets ready (packet 0x0400 (par 256 attnFs)) (fun c b1 => (b1.attnFault (Attn.of c.pkt)).isNone) = true ∧
    meets ready (packet 0x0401 (par 384 (attnFs ++ [(201, 1), (24, 1), (1740, 0x14000), (1636, 0x100000), (2048, trec 0x15000),
      (2304, trec 0x16000), (2560, trec 0x17000), (2816, trec 0x18000)])))
      (fun c b1 => (b1.attnFault (Attn.of c.pkt)).isNone) = true := by decide +kernel

set_option maxRecDepth 100000 in
/-- A convolution that holds its tile, and what its finish asks. -/
theorem met_CONV_FINISH :
    let c := cmdOf 9 (packet 0x0300 convPar) (.conv [0] true)
    let b := { ready with mer.running := [c] }.takeTiles
    let d := Conv.of c.pkt
    b.cmd 9 = some c ∧ [0].all (fun t => (b.tile t).rerun.isEmpty && !(b.tile t).switching) = true ∧
      b.writeWaits d.censusDa 64 = false ∧ d.blocks.length = 1 ∧
      [0].zipIdx.all (fun x => (b.convBad d (shareOf d.blocks x.2 1)).isNone) = true := by decide +kernel

set_option maxRecDepth 100000 in
theorem met_ATTN_FINISH :
    let w := { AttnWork.fresh0 [0] with started := true }
    let c := cmdOf 9 (packet 0x0400 (par 256 attnFs)) (.attn w)
    let b := { ready with mer.running := [c] }.takeTiles
    b.cmd 9 = some c ∧ (Attn.of c.pkt).kvMode = false ∧ w.failed = none ∧ w.started = true ∧ w.regen = none ∧ w.toRegen = [] ∧
      w.tiles.all (fun t => (b.tile t).rerun.isEmpty && !(b.tile t).switching) = true := by decide +kernel

/-- A pool of two pages, its sequence 0 open with room for two pages and one page of 64 tokens, its sequence 1 open and empty. -/
def pool1 : Pool :=
  { pageDa := 0x100000, entryDa := 0x200000, seqDa := 0x210000, pages := 2, maxSeqs := 4, kSlot := 1, vSlot := 1, kvHeads := 1,
    headDim := 64, free := [1] }
def seq0 : SeqE :=
  { ptDa := 0x220000, ptCap := 2, length := 64, handle := 15, arg := 0, isOpen := true, drop := false, busy := false }
def pooled : Block :=
  (((({ ready with pool := some pool1 }.setSeqE pool1 0 seq0).setSeqE pool1 1 { seq0 with ptDa := 0x221000, length := 0 }).setPageE pool1 0
    { lastUse := 0, gen := 3, ref := 1, pin := 0, next := 0, st := 1, droppable := false, filling := false, writer := 0 }).setPtE seq0 0
    { phys := 0, gen := 3, valid := true })

theorem met_POOL_INIT :
    meets ready (packet 0x0402 (par 64 [(440, 0x100000), (388, 0x200000), (336, 0x210000), (312, 2), (288, 4), (283, 1), (278, 1),
      (262, 1), (254, 64)])) (fun c b1 => c.pkt.f 511 508 = 0 && b1.pool.isNone && kvSlotOk b1 1 &&
        (hbmStatus 0x100000 (2 * b1.pageBytes pool1)).isNone && (hbmStatus 0x200000 64).isNone && (hbmStatus 0x210000 128).isNone) =
      true := by decide +kernel

def kvMeets (p : Packet) (q : Nat) (f : Cmd → Block → SeqE → Bool) : Bool :=
  meets pooled p (fun c b1 => b1.pool = some pool1 && c.kvTable = some q && q < pool1.maxSeqs && !b1.kvBlocked pool1 c &&
    !b1.kvBad pool1 q (ceilDiv (b1.seqE pool1 q).length 64) && f c b1 (b1.seqE pool1 q))

theorem met_KV_commands :
    kvMeets (packet 0x0402 (par 64 [(508, 1), (492, 2), (440, 0x222000), (312, 4)])) 2 (fun c _ e =>
      c.pkt.f 511 508 = 1 && !e.isOpen && c.pkt.f 491 440 % 64 = 0 &&
        (hbmStatus (c.pkt.f 491 440) (8 * c.pkt.f 335 312)).isNone) = true ∧
    kvMeets (packet 0x0402 (par 64 [(508, 2), (492, 0), (288, 1), (253, 1)])) 0 (fun c _ e => c.pkt.f 511 508 = 2 && e.isOpen) = true ∧
    kvMeets (packet 0x0403 (par 32 [(240, 0), (224, 1), (200, 64)])) 1 (fun c b1 e =>
      let src := c.pkt.f 255 240
      let n := c.pkt.f 223 200
      src < 4 && !b1.kvBad pool1 src 1 && e.isOpen && e.length = 0 && (b1.seqE pool1 src).isOpen && 0 < n &&
        n ≤ (b1.seqE pool1 src).length && ceilDiv n 64 ≤ e.ptCap && !b1.isBlockSlot pool1.vSlot &&
        b1.current pool1 (b1.ptE (b1.seqE pool1 src) 0) && (b1.pageE pool1 0).ref < 65535) = true ∧
    kvMeets (packet 0x0404 (par 32 [(240, 0), (215, 1)])) 0 (fun c _ e =>
      e.isOpen && bit c.pkt.pnum 215 && c.pkt.f 239 216 = 0) = true ∧
    meets pooled (packet 0x0405 (par 32 [(240, 0), (236, 15)])) (fun c b1 =>
      b1.pool = some pool1 && c.pkt.f 255 240 < 4 && c.pkt.f 239 236 = 15 &&
        !(b1.badWord (pool1.seqDa + 32 * c.pkt.f 255 240) 32).isSome && (b1.seqE pool1 (c.pkt.f 255 240)).isOpen) = true := by
  decide +kernel

/-- A paged append of one token to sequence 0: one page is fresh, and one is on the free list. -/
def appendPkt (lq : Nat) : Packet :=
  packet 0x0400 (par 256 ((attnFs.filter (fun f => f.1 ≠ 304 && f.1 ≠ 280)) ++ [(304, lq), (204, 1), (203, 1)]))
def attnWork0 : AttnWork := { AttnWork.fresh0 [0] with started := true }

set_option maxRecDepth 100000 in
theorem met_KV_ADMISSION :
    let c := cmdOf 9 (appendPkt 1) (.attn attnWork0)
    let b := { pooled with mer.running := [c] }
    let e := b.seqE pool1 c.kvSeq
    b.cmd 9 = some c ∧ b.pool = some pool1 ∧ bit c.pkt.pnum 204 = true ∧ c.kvAppend = true ∧ b.kvBlocked pool1 c = false ∧
      e.isOpen = true ∧ ceilDiv (e.length + c.pkt.f 327 304) 64 = 2 ∧ 2 ≤ e.ptCap ∧ b.isBlockSlot pool1.vSlot = false ∧
      b.kvBad pool1 c.kvSeq 1 = false ∧ b.current pool1 (b.ptE e 0) = true ∧ (b.pageE pool1 0).filling = false ∧
      e.length % 64 = 0 ∧ 1 ≤ pool1.free.length := by decide +kernel

set_option maxRecDepth 100000 in
/-- The same where no page is left. -/
theorem met_KV_ADMISSION_without_pages :
    let pl := { pool1 with free := [] }
    let c := cmdOf 9 (appendPkt 1) (.attn attnWork0)
    let b := { pooled with mer.running := [c], pool := some pl }
    b.cmd 9 = some c ∧ (b.seqE pl 0).isOpen = true ∧ b.kvBlocked pl c = false ∧ pl.free.length + (b.candidates pl [0]).length < 1 := by
  decide +kernel

set_option maxRecDepth 100000 in
theorem met_KV_COPY_DONE :
    let w := { attnWork0 with admitted := true, cow := some (0, 1) }
    let c := cmdOf 9 (appendPkt 1) (.attn w)
    let b := { pooled with mer.running := [c] }
    let n := b.pageBytes pool1
    b.cmd 9 = some c ∧ b.writeWaits (0x100000 + n) n = false ∧ (match b.daRead 0x100000 n with
      | (.ok bs false, b2) => (b2.daWrite (0x100000 + n) bs).2.isNone
      | _ => false) = true := by decide +kernel

/-! ### Stacked memory, the codec and the tier mover -/

theorem met_MemCommandsComplete :
    meets ready (packet 0x0F00 (par 32 [(204, 0x10000), (152, 64), (88, 1)])) (fun c b1 =>
      let da := c.pkt.f 255 204
      let n := c.pkt.f 203 152
      da % 64 = 0 && 0 < n && n % 64 = 0 && inHbm da n &&
        (pagesOf da n).all (fun g => decide (attrClass (b1.attr g) ≤ 1 ∨ 4 < attrClass (b1.attr g)) && !attrWp (b1.attr g) &&
          !attrCodec (b1.attr g)) &&
        (b1.daWrite da ((List.replicate (n / 8) (leBytes 8 (c.pkt.f 151 88))).flatten)).2.isNone) = true ∧
    meets ready (packet 0x0F01 (par 16 [(112, 256)])) (fun c _ => 256 ≤ c.pkt.f 127 112) = true ∧
    meets ready (packet 0x0F02 (par 32 [(204, 0x10000), (172, 1)])) (fun c b1 =>
      (b1.domainFault c).isNone && c.pkt.f 164 164 = 0) = true ∧
    meets ready (packet 0x0F02 (par 32 [(204, 0x10000), (172, 1), (164, 1)])) (fun c b1 =>
      (b1.domainFault c).isNone && c.pkt.f 164 164 = 1) = true := by decide +kernel

/-- A block with a migration of pseudo-channel 5 and a walk over two pages under way. -/
def walk1 : Walk :=
  { domain := 0, cmd := 9, touches := [0], pos := 1, last := 3, gran := 0, move := some (0, 1), old := none }
def moving (next : Nat) : Block :=
  { ready with mem.patrolEn := true, mem.walks := [walk1], mem.migNext := next,
               mem.pcs := [(5, { ready.pc 5 with st := .migrating })] }

theorem met_MemEvents :
    (ready.stacksUp = true ∧ ready.pow.sleep ≠ .asleep 2 ∧ (moving 0).mem.patrolEn = true ∧ (ready.pc 0).st = .active ∧
      ready.daAt 0 0 = some 0) ∧
    (∃ w, ({ ready with mem.pcs := [], mem.walks := [w] } : Block).activeWalk 0 = some w ∧
      ({ ready with mem.walks := [w] } : Block).walkPage w = some 1 ∧ w.gran < 31) := by
  refine ⟨by decide +kernel, walk1, by decide +kernel, by decide +kernel, by decide +kernel⟩

theorem met_MemEvents_migration :
    ((moving 0).migrating = some 5 ∧ (moving 0).shut.shut = false ∧ (moving 0).mem.migrated.contains 0 = false ∧
      (moving 0).daAt 5 0 ≠ none) ∧
    ((moving 1233760).migrating = some 5 ∧ (moving 1233760).mem.migQueue = [] ∧ (moving 1233760).mem.migPoison = []) ∧
    ({ moving 0 with mem.walks := [{ walk1 with gran := 31 }] } : Block).walkPage { walk1 with gran := 31 } = some 1 ∧
    ({ moving 0 with mem.walks := [{ walk1 with pos := 3 }] } : Block).walkPage { walk1 with pos := 3 } = none := by
  decide +kernel

/-- A table that codes symbols 0 and 1 with one bit each. -/
def table1 : Nat := 0x11 + 2 ^ 1088 * crc32c (leBytes 136 0x11)

/-- Pages 1 (class 1) and 2, and map 0 of one page whose tables are latched. -/
def cmap1 : CMap :=
  { num := 0, da := 0x10000, count := 1, entryDa := 0x20000, mode := 0, elem := 0, fs := 0, key := 1, m := 0, floor := 0,
    tableMask := 1, tables := [(0, tableLens 0x11)] }
def mapped : Block :=
  { ready with mem.attrs := [(1, mkAttr 0 1 false false false), (2, mkAttr 0 0 false false false)],
               codec.tables := [(0, tableLens 0x11)], codec.maps := [cmap1] }

set_option maxRecDepth 100000 in
theorem met_CODEC_TABLE :
    meets ready (packet 0x0500 (par 152 [(0, 1), (64, table1)])) (fun c _ =>
      (maskList 16 (c.pkt.f 15 0)).zipIdx.all (fun x => tableOk (c.pkt.f (64 + 1152 * x.2 + 1151) (64 + 1152 * x.2))) &&
        maskList 16 (c.pkt.f 15 0) = [0]) = true := by decide +kernel

theorem met_CodecCommandsComplete :
    meets { mapped with codec.maps := [] } (packet 0x0501 (par 64 [(450, 0x10000), (418, 1), (366, 0x20000), (332, 1), (303, 1)]))
      (fun c b1 => c.pkt.f 511 508 = 0 && (b1.createFault (mapOfPacket c.pkt [])).isNone &&
        (b1.daWrite 0x20000 (zeros 1024)).2.isNone) = true ∧
    meets mapped (packet 0x0501 (par 64 [(508, 1)])) (fun c b1 => (b1.mapNum (c.pkt.f 507 502)).isSome &&
      c.pkt.f 511 508 = 1 && (pagesOf cmap1.da 0x10000).all (fun g => !attrWp (b1.attr g))) = true ∧
    meets mapped (packet 0x0501 (par 64 [(508, 2), (450, 0x1F000), (418, 1)])) (fun c b1 =>
      c.pkt.f 511 508 = 2 && b1.rangeClosable cmap1 15 1 && (b1.discardRange cmap1 15 1).2.isNone) = true ∧
    meets mapped (packet 0x0502 (par 16 [(89, 15), (57, 1)])) (fun c b1 =>
      (b1.mapNum (c.pkt.f 127 122)) = some cmap1 && c.pkt.f 120 89 + c.pkt.f 88 57 ≤ cmap1.pages &&
        (b1.openSlot cmap1 15).isNone) = true := by decide +kernel

theorem met_CODEC_FLUSH_open :
    meets { mapped with codec.slots := [{ map := 0, page := 2, grans := 0, ovr := [], age := 0 }] }
      (packet 0x0502 (par 16 [(121, 1)])) (fun c b1 => bit c.pkt.pnum 121 &&
        ((List.range cmap1.pages).map (· + 0)).filter (fun v => (b1.openSlot cmap1 v).isSome) = [2]) = true := by decide +kernel

/-- Copies between HBM, the host and a peer, and sets of page 0 of map 0. -/
def copyPkt (src dst : Nat) : Packet := packet 0x0600 (par 64 [(460, src), (408, dst), (368, 64)])
def copyAt (n dl : Nat) : Packet :=
  packet 0x0600 (par 64 [(460, 0x10000), (408, 0x8000000000000), (368, 64), (304, n), (240, dl)])
def offPkt : Packet := packet 0x0601 (par 64 [(408, 0x8000000000000), (368, 8192), (176, 1)])
def prePkt : Packet := packet 0x0602 (par 64 [(460, 0x8000000000000), (368, 8192), (176, 1)])

theorem met_TierCommandsStart :
    meets ready (copyPkt 0x10000 0x8000000000000) (fun c b1 => (b1.tierFault c).isNone) = true ∧
    meets ready (copyPkt 0x4000000000000 0x10000) (fun c b1 => (b1.tierFault c).isNone) = true ∧
    meets mapped offPkt (fun c b1 => (b1.tierFault c).isNone) = true ∧
    meets mapped prePkt (fun c b1 => (b1.tierFault c).isNone) = true := by decide +kernel

def tier1 (ph : TierPhase) : TierWork :=
  { channel := 0, phase := ph, ctr := 0, moved := 64, total := some 64, late := false, buf := [], waiting := 0,
    flushAsked := false, flushed := false }
/-- A block at the head of whose channel 0 a tier command stands. -/
def tiered (p : Packet) (w : TierWork) : Block := { mapped with mer.running := [cmdOf 9 p (.tier w)], sid.sc := 1000 }

theorem met_TierCourse_head :
    ((tiered (copyAt 0 0) (tier1 .queued)).tierQueue 0).head? = some (cmdOf 9 (copyAt 0 0) (.tier (tier1 .queued)), tier1 .queued) ∧
    (let c := cmdOf 9 offPkt (.tier (tier1 .queued))
     let b := tiered offPkt (tier1 .queued)
     c.pkt.opcode = 0x0601 ∧ b.mapNum c.tMap = some cmap1 ∧ (b.tierOpen cmap1 c).all (fun v => b.closable cmap1 v) = true) := by
  decide +kernel

/-- NOT_BEFORE at the tick itself, and DEADLINE one tick past. -/
theorem met_TierCourse_time :
    (tiered (copyAt 1000 0) (tier1 .waiting)).now = 1000 ∧ (copyAt 1000 0).f 367 304 = 1000 ∧
    (tiered (copyAt 0 999) (tier1 .moving)).sid.state = .locked ∧ (copyAt 0 999).f 303 240 = 999 := by decide +kernel

theorem met_TierCourse_commit :
    Block.tierDone (tier1 .moving) = true ∧
    (let c := cmdOf 9 (copyPkt 0x10000 0x8000000000000) (.tier (tier1 .moving)); c.envIn = false ∧ c.inbound = false) ∧
    (let c := cmdOf 9 (copyPkt 0x4000000000000 0x10000) (.tier (tier1 .commit)); c.envIn = false ∧ c.inbound = true) ∧
    (let c := cmdOf 9 offPkt (.tier { tier1 .commit with flushAsked := true, flushed := true })
     mapped.mapNum c.tMap = some cmap1 ∧ c.tRelease = false) ∧
    (let w := tier1 .commit
     (tiered prePkt w).tierMayCommit (cmdOf 9 prePkt (.tier w)) w (some cmap1) = true) := by decide +kernel

/-! ### Training numerics and the optimizer -/

/-- Page 1 holds a scale table of one record, and page 2 an image to write. -/
def scaled (step image : Nat) : Block :=
  ({ ready with mem.attrs := [(1, mkAttr 0 3 false false false), (2, mkAttr 0 0 false false false)],
                train.table := some (0x10000, 1), train.ledgers := [(0, some (Ledger.fresh 0))] }.memWrite 0x10000
    (leBytes 128 step ++ leBytes 128 scaleDefault)).memWrite 0x20000 (leBytes 128 image)

/-- SCALE_SET: ACTION, DA, INDEX and COUNT. -/
def ssPkt (act da i n : Nat) : Packet := packet 0x0701 (par 64 [(508, act), (456, da), (432, i), (408, n)])
def okRead (b : Block) (da n : Nat) (f : Nat → Block → Bool) : Bool :=
  match b.daRead da n with
  | (.ok bs false, b2) => f (leNat bs) b2
  | _ => false

theorem met_SCALE_SET_INIT :
    meets { scaled 0 0 with train.table := none } (ssPkt 0 0x10000 0 1) (fun c b1 =>
      b1.train.table = none && b1.pagesAll 0x10000 256 (fun a => attrClass a = 3) && !b1.scaleBlocked c 0x10000 256) = true := by
  decide +kernel

theorem met_SCALE_SET_WRITE :
    meets (scaled stepDefault stepDefault) (ssPkt 1 0x20000 0xFFFFFF 0) (fun c b1 =>
      (localStatus 0x20000 128).isNone && okRead b1 0x20000 128 (fun r b2 => !b2.stepIsOpen && stepImageOk r) &&
        !b1.scaleBlocked c 0x10000 128) = true ∧
    meets (scaled stepDefault scaleDefault) (ssPkt 1 0x20000 0 0) (fun c b1 =>
      okRead b1 0x20000 128 (fun r b2 => b2.scaleImageOk r) && !b1.scaleBlocked c (scaleAddr 0x10000 0) 128) = true := by
  decide +kernel

theorem met_FOLD :
    meets (scaled stepDefault 0) (ssPkt 2 0x20000 0 1) (fun c b1 =>
      (localStatus 0x20000 64).isNone && !b1.scaleBlocked c (scaleAddr 0x10000 0) 128 && c.pkt.f 394 394 = 0 &&
        okRead b1 0x20000 64 (fun cs b2 => okRead b2 (scaleAddr 0x10000 0) 128 (fun rb b3 =>
          let x := b3.foldRecord c 0x10000 0 rb (combineCensus (leBytes 64 cs) 1) (c.pkt.f 385 384) 0 (bit (c.pkt.f 383 383) 0) false
          !x.2.1 && !bit x.1 205 && !bit x.1 203))) = true := by decide +kernel

theorem met_SCALE_SET_BIND :
    meets (scaled 0 0) (ssPkt 3 0 0xFFFFFF 0) (fun c _ => c.pkt.f 511 508 = 3 && c.pkt.f 455 432 = 0xFFFFFF) = true ∧
    meets (scaled 0 0) (ssPkt 3 0 0 0) (fun c _ => c.pkt.f 511 508 = 3 && c.pkt.f 455 432 < 1) = true := by decide +kernel

theorem met_STEP_OPEN_and_STEP_CLOSE :
    meets (scaled stepDefault 0) (ssPkt 4 0 0 0) (fun c b1 =>
      b1.train.table = some (0x10000, 1) && !b1.scaleBlocked c 0x10000 128 && b1.ledgerList = [(0, Ledger.fresh 0)] &&
        !b1.stepIsOpen && b1.train.invalid = []) = true ∧
    meets (scaled (stepDefault + 2 ^ 428 + 2 ^ 430) 0) (ssPkt 5 0 0 0) (fun c b1 =>
      !b1.scaleBlocked c 0x10000 128 && b1.stepIsOpen && bits b1.stepRec 431 430 ≠ 0) = true := by decide +kernel

/-- An optimizer descriptor of one block whose record stands at 0x20000, and that record, in MFMT 0. -/
def desc1 : Nat := dSeal (fields [(204, 1), (364, 0x20000)])
def rec1 : List Byte := let bs := zeros 380; bs ++ leBytes 4 (recCheck 0 0 bs)
def optimized : Block :=
  ((scaled (stepDefault + 2 ^ 428 + 2 ^ 430) 0).memWrite 0x10400 (leBytes 64 desc1)).memWrite 0x20000 rec1

set_option maxRecDepth 100000 in
theorem met_UPDATE :
    meets optimized (packet 0x0800 (par 320 ([(303, 1), (383, 0x10400), (331, 0x30000)] ++
      ((List.range 8).flatMap (fun k => [(512 + 256 * k + 192, 0x3F800000), (512 + 256 * k + 128, 0x3F800000)]))))) (fun c b1 =>
      c.pkt.f 314 303 = 1 && (List.range 8).all (fun k => hyperOk (updSet c k)) && (hbmStatus 0x10400 64).isNone &&
        (hbmStatus 0x30000 16).isNone && b1.pagesAll 0x10400 64 (fun a => attrClass a = 3) && b1.train.table.isSome &&
        b1.stepIsOpen) = true := by decide +kernel

def mfPkt : Packet := packet 0x0801 (par 32 [(204, 0x10400), (152, 0x40000), (151, 1)])
def frPkt (want : Nat) : Packet := packet 0x0802 (par 32 [(204, 0x10400), (172, 4), (171, want)])

theorem met_MOMENT_FORMAT_and_FREEZE_SET :
    meets optimized mfPkt (fun c b1 => (hbmStatus 0x10400 64).isNone && c.pkt.f 255 204 = 0x10400 &&
      b1.pagesAll 0x10400 64 (fun a => attrClass a = 3) && c.pkt.f 203 152 % 64 = 0) = true ∧
    meets optimized (frPkt 1) (fun c b1 => c.pkt.f 255 204 = 0x10400 && b1.pagesAll 0x10400 64 (fun a => attrClass a = 3)) = true := by
  decide +kernel

set_option maxRecDepth 100000 in
theorem met_FREEZE_SET_at_its_lock :
    [0, 1].all (fun want =>
      let w := { UpdWork.start with phase := .lock }
      let c := cmdOf 9 (frPkt want) (.upd w)
      let b := { optimized with mer.running := [c] }
      let b2 := b.setWork c.id (.upd { w with locks := [0x10400] })
      (b.updQueue 0).head? = some (c, w) && !b.updLocked c 0x10400 && (b2.cmd c.id).isSome && (b2.badWord 0x10400 64).isNone &&
        okRead b2 0x10400 64 (fun d b3 => b3 = b2 && dCheckOk d) &&
        (want = 0 || !b2.writeWaits 0x10400 64 && (b2.daWrite 0x10400 (leBytes 64 (dSeal (setBit (b2.rd 0x10400 64) 146 true)))).2.isNone)) =
      true := by decide +kernel

set_option maxRecDepth 100000 in
theorem met_MOMENT_FORMAT_pass :
    [0, 1].all (fun next =>
      let w := { UpdWork.start with phase := .pass, locks := [0x10400], begun := true, next := next }
      let c := cmdOf 9 mfPkt (.upd w)
      let b := { optimized with mer.running := [c] }
      let b1 := b.updKick
      let d := b1.rd 0x10400 64
      !b.shut.shut && (b1.updQueue 0).head? = some (c, w) &&
        (if next = 0 then next < dBlocks d && !b1.writeWaits 0x40000 192 && (b1.badWord 0x20000 384).isNone &&
          okRead b1 0x20000 384 (fun r b2 => recOk 0 0 0 (leBytes 384 r) &&
            (b2.daWrite 0x40000 (formatRecord d 1 false 0 (leBytes 384 r)).1).2.isNone)
         else dBlocks d ≤ next && b1.fab.emul.isEmpty && !b1.writeWaits 0x10400 64)) = true := by decide +kernel

/-! ### Ranks, trees, windows and collectives -/

/-- Rank 5 with the emulated rank 6, tree 1 of the two, and a window of rank 5; bytes of their ranks at 0x10000. -/
def ranked : Block :=
  { ready with
    fab.primary := some 5, fab.emul := [6], fab.trees := [{ num := 1, members := [5, 6], seq := 0 }],
    fab.exports := [{ rank := 5, win := 0, rd := true, wr := true, base := 0x20000, pages := 1 }],
    train.ledgers := [(0, some (Ledger.fresh 5)), (1, some (Ledger.fresh 6))] }.memWrite 0x10000 [5, 0, 6, 0]

theorem met_TREE_SET_SELF :
    meets ranked (packet 0x0908 (par 64 [(492, 5), (377, 1), (396, 7)])) (fun c b1 =>
      c.pkt.f 511 508 = 0 && c.pkt.f 379 377 < 7 && b1.fab.colls.isEmpty && b1.fab.reqs.isEmpty &&
        decide (c.pkt.f 507 492 :: (List.range (c.pkt.f 379 377)).map (fun k => c.pkt.f (16 * k + 411) (16 * k + 396))).Nodup &&
        b1.mer.running.all (fun x => x.pkt.opcode ≠ 0x0905 ∧ x.pkt.opcode ≠ 0x0906)) = true := by decide +kernel

theorem met_TREE_SET_DEFINE_and_UNDEFINE :
    meets ranked (packet 0x0908 (par 64 [(508, 1), (373, 2), (356, 2), (304, 0x10000)])) (fun c b1 =>
      let n := c.pkt.f 372 356
      n = 2 && !b1.treeBusy (c.pkt.f 376 373) && (localStatus (c.pkt.f 355 304) 4).isNone && (match b1.daRead (c.pkt.f 355 304) 4 with
        | (.ok bs false, b2) =>
          let ms := (List.range n).map (fun i => leNat ((bs.drop (2 * i)).take 2))
          ms = [5, 6] && decide ms.Nodup && ms.any b2.hosts &&
            decide (n + ((b2.fab.trees.filter (fun x => x.num ≠ 2)).map (fun x => x.members.length)).sum ≤ 262144)
        | _ => false)) = true ∧
    meets ranked (packet 0x0908 (par 64 [(508, 3), (373, 1)])) (fun c b1 =>
      c.pkt.f 511 508 = 3 && !b1.treeBusy (c.pkt.f 376 373)) = true := by decide +kernel

theorem met_TREE_SET_ROUTES :
    meets ranked (packet 0x0908 (par 64 [(508, 2), (304, 0x10000)])) (fun c b1 =>
      c.pkt.f 511 508 = 2 && (localStatus (c.pkt.f 355 304) 65536).isNone && (match b1.daRead (c.pkt.f 355 304) 65536 with
        | (.ok _ false, _) => true
        | _ => false)) = true := by decide +kernel

theorem met_EXPORT_SET :
    meets ranked (packet 0x0909 (par 32 [(240, 5)])) (fun c b1 => b1.hosts (c.pkt.f 255 240) && c.pkt.f 236 236 = 0) = true ∧
    meets ranked (packet 0x0909 (par 32 [(240, 5), (237, 1), (236, 1), (235, 1), (182, 0x30000), (165, 1)])) (fun c b1 =>
      b1.hosts (c.pkt.f 255 240) && c.pkt.f 236 236 = 1 && c.pkt.f 181 165 = 1 && c.pkt.f 233 182 % 65536 = 0 &&
        b1.pagesAll (c.pkt.f 233 182) 65536 (fun a => attrClass a ≠ 4)) = true := by decide +kernel

theorem met_SEND_and_RECV :
    [0x0905, 0x0906].all (fun op => meets ranked (packet op (par 64 [(496, 6), (444, 0x10000), (377, 64)])) (fun c b1 =>
      !b1.trust.sealedReq && c.pkt.f 408 377 = 64 && c.pkt.f 363 362 ≠ 3 && (localStatus (c.pkt.f 495 444) 64).isNone &&
        okRead (b1.setWork c.id (.await 3 0 0 0)) (c.pkt.f 495 444) 64 (fun _ _ => true))) = true := by decide +kernel

/-- The parameters of a collective of tree 1: shards of 128 bytes. -/
def colPar : List Byte := par 64 [(460, 0x10000), (408, 0x20000), (368, 128), (214, 1)]

theorem met_CollectivesAdmitted :
    [0x0900, 0x0901, 0x0902, 0x0903, 0x0904].all (fun op => meets ranked (packet op colPar) (fun c b1 =>
      !b1.trust.sealedReq && (b1.collRefusal c).isNone && (b1.tree c.colTree).isSome &&
        (b1.fab.releases.find? (fun r => r.kind = c.colHold && r.arg = c.colTag)).isNone)) = true := by decide +kernel

theorem met_FLAG_COMBINE :
    let s := scaled (stepDefault + 2 ^ 428 + 2 ^ 429) 0
    meets { s with fab := ranked.fab } (packet 0x0907 (par 16 [(124, 1)])) (fun c b1 =>
      !b1.trust.sealedReq && (b1.collRefusal c).isNone && (b1.tree c.colTree).isSome &&
        (b1.fab.releases.find? (fun r => r.kind = c.colHold && r.arg = c.colTag)).isNone) = true := by decide +kernel

/-- An ALL_REDUCE of command 9 on tree 1, here as member 0 with member 1 elsewhere. -/
def coll1 : Coll :=
  { cmd := 9, op := 0x0900, tree := 1, members := [5, 8], seq := 0, digest := 77, hold := 0, tag := 0, timeout := 4,
    startable := true, started := true, startSc := 1, order := 0, flag := false, starts := [], parts := [], sent := [], out := [],
    written := [], census := Census.empty }
def colCmd : Cmd := cmdOf 9 (packet 0x0900 colPar) .none
def msg1 (kind : Nat) : Msg := { Msg.zero with kind := kind, src := 8, dest := 5, no := 3, tree := 1 }
def colliding (m : Msg) : Block :=
  { ranked with fab.emul := [], fab.trees := [{ num := 1, members := [5, 8], seq := 1 }], fab.colls := [coll1], fab.inbox := [m],
                mer.running := [colCmd], sid.sc := 5 }

theorem met_CollectiveMessages :
    let here (m : Msg) : Bool := (colliding m).fab.colls.find? (fun y => y.tree = m.tree && y.seq = m.seq) = some coll1
    (let m := { msg1 Kind.collStart with rval := 77 }; here m = true ∧ (colliding m).inMsg Kind.collStart 8 3 = some m) ∧
    (let m := { msg1 Kind.collData with vl := 2, data := zeros 64 }
     here m = true ∧ (colliding m).inMsg Kind.collData 8 3 = some m ∧ (colliding m).cmd 9 = some colCmd ∧
       ((colliding m).colOuts colCmd [5, 8]).all (fun o => !(colliding m).writeWaits o.2.2.2 64) = true) ∧
    (let m := msg1 Kind.collAbort; here m = true ∧ (colliding m).inMsg Kind.collAbort 8 3 = some m) := by decide +kernel

/-- Its timeout, at the tick that R375 names. -/
theorem met_COLL_TIMEOUT :
    let b := colliding Msg.zero
    b.fab.colls.find? (fun y => y.tree = 1 && y.seq = 0) = some coll1 ∧ b.cmd 9 = some colCmd ∧ b.now - coll1.startSc = 4 ∧
      (List.range 8).all (fun q => !(b.port q).peerShutter) = true := by decide +kernel

def served (m : Msg) : Block := { ranked with fab.inbox := [m], fab.reqs := [(4, 8, .cmd 9 0 64)] }

theorem met_PeerMessages :
    (let m := { msg1 Kind.peerWrite with data := zeros 64 }
     (served m).inMsg Kind.peerWrite 8 3 = some m ∧ (served m).window 5 0 0 64 true = some 0x20000 ∧
       (served m).window 5 1 0 64 true = none ∧ (served m).window 5 0 65536 64 true = none ∧ (served m).roHit 0x20000 64 = false ∧
       (served m).writeWaits 0x20000 64 = false ∧ ((served m).daWrite 0x20000 m.data).2 = none) ∧
    (let m := { msg1 Kind.readReq with length := 64, offset := 65472 }
     (served m).inMsg Kind.readReq 8 3 = some m ∧ (served m).window 5 0 m.offset 64 false = some 0x2FFC0 ∧
       (served m).readWaits 0x2FFC0 64 = false ∧ okRead (served m) 0x2FFC0 64 (fun _ _ => true) = true) ∧
    [Kind.writeAck, Kind.readRsp, Kind.unreach].all (fun k =>
      let m := { msg1 k with rval := 4 }
      (served m).inMsg k 8 3 = some m && (((served m).dropMsg m).takeReq 4).1 = some (8, .cmd 9 0 64)) = true := by decide +kernel

/-! ### The Meridian link -/

/-- Port 2 is up with its keys, and a flit whose tag is that of its receive key. -/
def port2 : Port := { Port.zero with st := .up8, lanes := 255, peerRank := 8, rxKey := some 3, txKey := some 4 }
def linked : Block := ranked.setPort 2 port2
def flitOf (typ dest : Nat) : Flit :=
  let h := fields [(112, dest), (96, 8), (52, typ)]
  { hdr := BitVec.ofNat 128 h, payload := 0, tag := BitVec.ofNat 128 (flitTag 3 0 1 h (leBytes 224 (0 : BitVec 1792).toNat)), bad := [], fixed := [] }

theorem met_FlitsReceived :
    linked.port 2 = port2 ∧ port2.st.isUp = true ∧ linked.trustShut = false ∧ linked.hosts 5 = true ∧ linked.hosts 9 = false ∧
      (List.range 6).all (fun typ => (flitOf typ 9).typ = typ && (flitOf typ 9).seq = port2.rxSeq && (flitOf typ 9).dest = 9) = true := by
  decide +kernel

theorem met_FlitsReceived_tag : port2.tagOk (flitOf 1 9) 1 = true ∧ port2.tagOk (flitOf 1 5) 1 = true ∧
    port2.tagOk (flitOf 2 0) 1 = true ∧ port2.tagOk (flitOf 4 0) 1 = true ∧ port2.tagOk (flitOf 5 0) 1 = true := by
  have h : ∀ typ dest, fields [(112, dest), (96, 8), (52, typ)] < 2 ^ 128 → port2.tagOk (flitOf typ dest) 1 = true := by
    intro typ dest hb
    simp only [Port.tagOk, port2, flitOf, flitTag, BitVec.toNat_ofNat, Nat.mod_eq_of_lt hb, Port.zero]
    exact decide_eq_true (Nat.mod_mod _ _).symm
  exact ⟨h _ _ (by decide), h _ _ (by decide), h _ _ (by decide), h _ _ (by decide), h _ _ (by decide)⟩

theorem met_PortEvents :
    (port2.queues = [] ∧ port2.resend = none ∧ linked.shut.shut = false) ∧
    (let q : QFlit := ⟨1, 0, 8, 5, 0, true, true, 0, 0, 0, none⟩
     let t : TxFlit := { seq := 0, q := q, cipher := 0, tag := 0, sent := 8 }
     let p := { port2 with replay := [t], resend := some 0 }
     p.replay[0]? = some t ∧ t.sent < 9 ∧ (linked.setPort 2 p).trustShut = false ∧ p.failed = false) ∧
    (let b := linked.setPort 2 { Port.zero with st := .train }
     (b.port 2).st = .train ∧ (b.port 2).retiredLanes = 0 ∧ ((b.trainKeys 2 1 2 3).port 2).retiredLanes = 0) ∧
    (let b := { linked with sid.timeDue := [2] }; b.sid.timeDue.contains 2 = true ∧ b.trust.job ≠ 0) := by decide +kernel

/-! ### The cube, the moves, the scalar cores and the vector pipelines -/

/-- T0 with descriptor registers: OSR A and B of 32 BF16 values a row, ODR 0 in FP32, and a move of one granule. -/
def osr1 (elem : Nat) : Nat := fields [(96, 32), (80, 2), (16, elem), (11, 1)]
def mdr1 (da : Nat) : Nat := fields [(76, da), (52, 0x400), (36, 1), (24, 1)]
def tile1 : Tile :=
  { Tile.zero with
    dregs := [(0, BitVec.ofNat 128 (mdr1 0x10000)), (16, BitVec.ofNat 128 (osr1 0)), (20, BitVec.ofNat 128 (osr1 0x2000)),
      (24, BitVec.ofNat 128 (fields [(96, 16), (40, 0x4000), (7, 1)]))] }

theorem met_CubeSlotOps_open :
    let b := running tile1
    let x := b.tile 0
    x.issuing = true ∧ (x.group 0).state = .closed ∧ x.dregAt.get 0 16 ≤ x.cyc ∧ x.dregAt.get 0 20 ≤ x.cyc ∧
      b.openCheck (Osr.of (x.dreg 16)) (Osr.of (x.dreg 20)) = none ∧
      (∃ d raise, b.pairClass (Osr.of (x.dreg 16)).slot (Osr.of (x.dreg 20)).slot = some (d, raise)) ∧ b.allClean = true := by
  refine ⟨by decide +kernel, by decide +kernel, by decide +kernel, by decide +kernel, by decide +kernel, ⟨4, 1, by decide +kernel⟩,
    by decide +kernel⟩

/-- An open group at work, and one that is ready. -/
def accum1 : Group := { Group.closedG with state := .accum, osrA := osr1 0, osrB := osr1 0x2000 }
def grouped (st : GroupState) : Block := running (tile1.setGroup 0 { accum1 with state := st, last := 1 })

theorem met_CubeSlotOps_accum_and_drain :
    (((grouped .accum).tile 0).group 0).state = .accum ∧
    (let x := (grouped .ready).tile 0
     (x.group 0).state = .ready ∧ x.dregAt.get 0 24 ≤ x.cyc ∧ x.drain = none ∧
       (grouped .ready).odrOk (Odr.of (x.dreg 24)) = true ∧ (x.group 0).state ≠ .rerun) := by decide +kernel

/-- The cycle before and the cycle at which a group settles. -/
theorem met_GROUP_SETTLE :
    let b (n : Nat) := running { ((grouped .settle).tile 0) with cyc := n }
    (((b 29).tile 0).group 0).state = .settle ∧ (((b 29).tile 0).group 0).last + 28 ≤ ((b 29).tile 0).cyc ∧
      ¬ (((b 28).tile 0).group 0).last + 28 ≤ ((b 28).tile 0).cyc := by decide +kernel

theorem met_DRAIN_COMPLETE :
    let d : Drain := { odr := fields [(96, 16), (40, 0x4000), (7, 1)], cells := [], issued := 0, sat := 0, chunk := 0 }
    d.until = 48 ∧ ((running { tile1 with drain := some d, cyc := 48 }).tile 0).cyc = 48 := by decide +kernel

theorem met_CubeEvents_faults :
    (let x := (grouped .accum).tile 0
     x.held = none ∧ x.run = some 9 ∧ x.halted = false ∧ x.switching = false ∧ x.rerun = [] ∧ (x.group 0).state = .accum) ∧
    (let x := (running { tile1 with rerun := [0], faultAt := [(0, 5, 6)] }).tile 0
     x.switching = false ∧ x.rerun = 0 :: [] ∧ x.held = none) ∧
    (let x := (running { tile1 with switching := true, faultAt := [(0, 5, 6)] }).tile 0
     x.switching = true ∧ x.faultAt = (0, 5, 6) :: []) := by decide +kernel

theorem met_MoveOps_issue :
    let x := (running tile1).tile 0
    x.issuing = true ∧ x.moves.length < 32 ∧ x.dregAt.get 0 0 ≤ x.cyc ∧ (x.mkMove true 0 0).valid = true ∧
      (x.mkMove false 0 0).valid = true := by decide +kernel

/-- A transfer of one granule with HBM, the host or a peer. -/
def move1 (load : Bool) (da : Nat) : Move :=
  { id := 2, load := load, da := da, ts := 0x400, rowGran := 1, rows := 1, stride := 0, ac := 0, done := [], asked := [], failed := false }

theorem met_MoveOps_granules :
    [true, false].all (fun l => [0x10000, 0x4000000001000, 0x8000000000000].all (fun da =>
      let b := running { tile1 with moves := [move1 l da] }
      (b.tile 0).move 2 = some (move1 l da) && decide (0 < (move1 l da).total) &&
        (match regionOf ((move1 l da).gda 0) with | .reserved => false | .tile _ _ => false | _ => true) &&
        (b.tsRead 0 ((move1 l da).gts 0) 64).1.isSome)) = true ∧
    (let b := running { tile1 with moves := [move1 true 0x10000] }
     b.readWaits 0x10000 64 = false ∧ okRead b 0x10000 64 (fun _ _ => true) = true) ∧
    (let b := running { tile1 with moves := [move1 false 0x10000] }
     localPopulated 0x10000 64 = true ∧ b.roHit 0x10000 64 = false ∧ b.writeWaits 0x10000 64 = false ∧
       (b.daWrite 0x10000 (zeros 64)).2 = none) := by decide +kernel

/-- Registers of core 1: R1 = 0x100, R2 = 1. -/
def tile2 : Tile := { tile1 with sregs := [(33, 0x100), (34, 1)], vregs := [(3, 7)], cyc := 5 }

theorem met_Scalar :
    (running tile2).scalarReady 0 1 ∧ ((running tile2).tile 0).branch = none ∧ (running tile2).tiles.wf Tile.zero = true ∧
      (stateOf (running tile2)).scalarReg 0 1 1 ≠ 1 ∧ (stateOf (running tile2)).scalarReg 0 1 2 = 1 := by
  refine ⟨⟨by decide +kernel, by decide +kernel⟩, by decide +kernel, by decide +kernel, by decide +kernel, by decide +kernel⟩

/-- Addresses on the boundaries: the last word of the store, one past it, and a misaligned one. -/
theorem met_ScalarAccesses :
    let b := running tile2
    let ea (ra : Word) (imm n : Nat) : Nat := scEa { tile2 with sregs := [(33, ra)] } { core := 1, rd := 2, ra := 1, imm := imm } n
    ea 0xBFFFFC 0 4 + 4 = 0xC00000 ∧ 0xC00000 < ea 0xBFFFFC 1 4 + 4 ∧ ea 0xBFFFFD 0 4 % 4 ≠ 0 ∧ ea 0xBFFFF0 0 16 + 16 = 0xC00000 ∧
      (b.portRead 0 6 0xBFFFFC 4).1 ≠ none ∧ (b.portRead 0 6 0xBFFFF0 16).1 ≠ none ∧ (b.portRead 0 6 (16 * 3) 16).1 ≠ none := by
  decide +kernel

/-- A packet header of one slot at 0x100. -/
theorem met_PKT :
    let b := (running tile2).memWrite (tileDa 0 + 0x100) [0, 0, 1]
    b.pktRoom 0 = true ∧ (match b.portRead 0 6 0x100 64 with
      | (some h, b2) => bits (leNat h) 23 16 = 1 && (b2.tsRead 0 0x140 0).1.isSome && b2.mer.tileQ.wf [] && b2.tiles.wf Tile.zero &&
          (b2.tile 0).busy.wf 0
      | _ => false) = true := by decide +kernel

theorem met_SyncSlotOps :
    (let b := { running tile2 with mer.syncPending := [⟨3, 0, false, 4, none⟩] }
     b.mer.syncPending.filter (fun q => q.ctr = 3) = [⟨3, 0, false, 4, none⟩] ∧ b.mer.sync.wf 0 = true) ∧
      ((running tile2).tile 0).issuing = true := by decide +kernel

/-- A load or store of pipeline 1 through R1 of core 1, on aligned and misaligned addresses; slot 3 is a block slot. -/
def vecM (slot : Nat) : VecM := { okM with acore := 1, areg := 1, ofs := 0, slot := slot }

theorem met_VectorLoadsAndStores :
    let b := running tile2
    let ea (o : Nat) (r : Word) : Nat := (r : Word).toNat + 64 * o
    ea 0 0x100 % 64 = 0 ∧ ea 0 0x101 % 64 ≠ 0 ∧ ea 4095 0xB80040 ≤ 0xC00000 ∧
      b.isBlockSlot 3 = true ∧ b.isBlockSlot 1 = false ∧ (b.fmt 3).width = 8 ∧
      (b.portRead 0 4 0x100 1024).1 ≠ none ∧ (b.portRead 0 4 0x100 64).1 ≠ none ∧ (b.portRead 0 4 0x100 512).1 ≠ none ∧
      (vecM 3).scaleAddr tile2 = 1 ∧ (vecM 3).tensorCode tile2 = 0 ∧
      (vecM 3).scaleAddr { tile2 with sregs := [(33, 0x100), (34, 0xFF000010)] } = 16 ∧
      (vecM 3).tensorCode { tile2 with sregs := [(33, 0x100), (34, 0xFF000010)] } = 0xFF ∧
      (b.portRead 0 4 16 16).1 ≠ none := by decide +kernel

/-- One result alone, of each destination. -/
theorem met_OP_RESULT_READY :
    [Dest.vreg 3 7, Dest.sreg 1 2, Dest.mask 4, Dest.dreg 5, Dest.store 0x100 3].all (fun d =>
      let r : Pending := { ready := 5, dest := d, value := 9, bytes := [1] }
      let b := running { tile2 with pend := [r] }
      (b.tile 0).pend = [r] && r.ready = (b.tile 0).cyc && (b.tile 0).flight.isEmpty && b.tiles.wf Tile.zero &&
        (b.tile 0).vregs.wf 0 && (b.tile 0).sregs.wf 0 && (b.tile 0).masks.wf 0 && (b.tile 0).dregs.wf 0) = true := by decide +kernel

theorem met_Lanes : okA.mod % 16 ≠ 1 ∧ ({ okA with mod := 1, pm := 0 } : VecA).mod % 16 = 1 ∧ okA.pm ≠ 0 := by decide

/-! ### The snapshot engine and recovery -/

/-- A PARITY page 0x20, another page 0x30, a reserve of 24 pages from 0x40, a parity area of 4 pages from 0x60; all of class 3. -/
def regP : SnapRegion :=
  { da := 0x200000, pages := 1, region := 0, method := 1, hidx := 0, records := 0, cuts := 0, dcut := 0, dstep := 0, stepAt := 0 }
def regS : SnapRegion := { regP with da := 0x300000, region := 1, method := 0 }
def cfg1 : SnapCfg :=
  { resDa := 0x400000, resPages := 24, destDa := 0x4000000000000, destBytes := 4096, destSlots := 1, fullEvery := 1, mask := 1,
    tables := [] }
def area1 : ParArea := { hidx := 0, da := 0x600000, pages := 4, tree := 2, halves := [], touched := [], cut := 0 }
def snapped (st : SnapState) : Block :=
  { ranked with
    mem.attrs := (List.range 0x44).map (fun i => (i + 0x20, mkAttr 0 3 false false false)),
    codec.tables := [(0, tableLens 0x11)],
    fab.trees := [{ num := 2, members := [5, 11, 12, 13, 14, 15, 16, 17], seq := 0 }],
    snap.st := st, snap.cfg := some cfg1, snap.regions := [regP, regS], snap.cut := 3, snap.areas := [area1],
    snap.images := [{ hidx := 0, cut := 3, led := [], stepImg := 0 }] }

/-- SNAP_CFG: ACTION and fields. -/
def snapPkt (act : Nat) (fs : List (Nat × Nat)) : Packet := packet 0x0B00 (par 64 ((508, act) :: fs))
def cfgPkt (append hidx : Nat) : Packet :=
  packet 0x0B00 (par 96 [(456, 0x400000), (432, 24), (380, 0x4000000000000), (340, 4096), (332, 1), (316, 1), (300, 1), (258, 1),
    (257, append), (512 + 204, 0x200000), (512 + 180, 1), (512 + 162, 1), (512 + 159, hidx)])

theorem met_CONFIG :
    meets { snapped .unconfigured with snap.cfg := none, snap.regions := [], snap.areas := [] } (cfgPkt 0 0) (fun c b1 =>
      let rs := (List.range (c.pkt.f 264 258)).map (snapDesc c.pkt)
      c.pkt.f 511 508 = 0 && c.pkt.f 257 257 = 0 && c.pkt.f 264 258 = 1 && b1.snapConfigurable && !b1.trust.sealedReq &&
        (b1.headFault c.pkt rs).isNone && (b1.descsFault (0x40, 24) false 1 [] rs).isNone) = true ∧
    meets { snapped .idle with snap.regions := [regS] } (cfgPkt 1 1) (fun c b1 =>
      let rs := (List.range (c.pkt.f 264 258)).map (snapDesc c.pkt)
      c.pkt.f 257 257 = 1 && b1.snap.cfg = some cfg1 && b1.snapConfigurable && b1.snap.st = .idle &&
        decide (2 * parityPages (b1.snap.regions ++ rs) + 16 ≤ cfg1.resPages) &&
        (b1.descsFault (0x40, 24) true 1 b1.snap.regions rs).isNone) = true := by decide +kernel

theorem met_COMMIT :
    meets (snapped .done) (snapPkt 1 [(268, 3)]) (fun c b1 =>
      c.pkt.f 511 508 = 1 && c.pkt.f 264 258 = 0 && b1.snap.st = .done && b1.snap.cut = c.pkt.f 299 268) = true := by decide +kernel

/-- The read is whole, and an image that it may find. -/
theorem met_LEDGER_SET :
    meets (snapped .idle) (snapPkt 2 [(456, 0x10000)]) (fun c b1 =>
      c.pkt.f 511 508 = 2 && b1.ledger 0 = some (Ledger.fresh 5) && !b1.stepIsOpen && (localStatus 0x10000 2048).isNone &&
        okRead b1 (c.pkt.f 507 456) 2048 (fun _ _ => true)) = true := by decide +kernel

theorem met_LEDGER_SET_image :
    Ledger.ofBytes (Ledger.fresh 5).bytes = Ledger.fresh 5 ∧ ledgerImageOk (Ledger.fresh 5).bytes = true := by
  have h : Ledger.ofBytes (Ledger.fresh 5).bytes = Ledger.fresh 5 := by decide +kernel
  exact ⟨h, by simp only [ledgerImageOk, h, decide_true]⟩

theorem met_ADVISE :
    meets (snapped .idle) (snapPkt 3 [(456, 0x10000)]) (fun c b1 =>
      c.pkt.f 511 508 = 3 && c.pkt.f 264 258 = 0 && b1.snap.regions.length = 2 && (localStatus 0x10000 32).isNone &&
        !b1.writeWaits 0x10000 32 && (b1.daWrite 0x10000 (zeros 32)).2.isNone) = true := by decide +kernel

theorem met_SNAP_DRAIN :
    [SnapState.done, .opened, .stalled].all (fun st =>
      meets (snapped st) (packet 0x0B01 (par 32 [(224, 3), (172, 0x4000000001000), (132, 4096)])) (fun c b1 =>
        b1.snap.cut = c.pkt.f 255 224 && b1.snap.st = st && isHost (c.pkt.f 223 172) && c.pkt.f 223 172 % 64 = 0 &&
          c.pkt.f 171 132 % 64 = 0)) = true := by decide +kernel

theorem met_LEDGER_READ :
    meets (snapped .done) (packet 0x0B03 (par 16 [(76, 0x4000000001000), (73, 7)])) (fun c _ =>
      c.pkt.f 75 73 = 7 && c.pkt.f 72 72 = 0 && (rspStatus (c.pkt.f 127 76) 0x2090).isNone) = true ∧
    meets (snapped .done) (packet 0x0B03 (par 16 [(76, 0x4000000001000)])) (fun c b1 =>
      c.pkt.f 72 72 = 0 && b1.ledger (c.pkt.f 75 73) = some (Ledger.fresh 5) && (rspStatus (c.pkt.f 127 76) 2048).isNone) = true ∧
    meets (snapped .done) (packet 0x0B03 (par 16 [(76, 0x4000000001000), (72, 1)])) (fun c b1 =>
      c.pkt.f 72 72 = 1 && (b1.snap.images.find? (fun x => x.hidx = c.pkt.f 75 73)).isSome) = true := by decide +kernel

theorem met_PARITY_SET :
    meets (snapped .idle) (packet 0x0B04 (par 32 [(204, 0x600000), (180, 4), (176, 2)])) (fun c b1 =>
      let da := c.pkt.f 255 204
      b1.hosted[c.pkt.f 175 173]? = some 5 && (b1.tree (c.pkt.f 179 176)).any (fun t => t.members.length = 8 && t.members.contains 5) &&
        b1.snapConfigurable && da % 0x10000 = 0 && c.pkt.f 203 180 = 4 && decide (2 * b1.unitCount 0 ≤ 4) && inHbm da 0x40000 &&
        b1.pagesAll da 0x40000 (fun a => attrClass a = 3) && !overlap (0x60, 4) (0x40, 24) &&
        b1.snap.regions.all (fun r => !overlap (b1.snapPages r) (0x60, 4))) = true := by decide +kernel

/-- What the statements of RESTORE and FAILOVER ask first. -/
def recovers (b : Block) (p : Packet) (f : Cmd → Block → Bool) : Bool :=
  meets b p (fun c b1 =>
    let b2 := b1.setWork c.id (.await 6 0 0 0)
    !b2.mer.running.any (fun x => match x.work with | .restore _ => true | .rebuild _ => true | _ => false) &&
      b2.mer.running.find? (fun x => x.work = .await 6 0 0 0) = some { c with work := .await 6 0 0 0 } && !b2.recoveryBusy && f c b2)

def foPkt (act : Nat) : Packet := packet 0x0B05 (par 64 [(508, act), (476, 3), (412, 5), (409, 1)])

theorem met_RESTORE :
    recovers (snapped .idle) (packet 0x0B02 (par 64 [(460, 0x4000000001000), (420, 4096), (372, 5)])) (fun c b2 =>
      b2.snap.st = .idle && !b2.stepIsOpen && b2.hosted[c.pkt.f 371 369]? = some (c.pkt.f 387 372) &&
        regionOf (c.pkt.f 511 460) = .host 0x1000 && c.pkt.f 459 420 = 4096) = true := by decide +kernel

theorem met_FAILOVER_ROLLBACK :
    recovers (snapped .done) (foPkt 0) (fun c b2 =>
      let b4 := { b2.rollFabric (c.pkt.f 427 412) with snap := (b2.rollFabric (c.pkt.f 427 412)).snap.keepDone }
      c.pkt.f 411 409 = 1 && c.pkt.f 511 508 = 0 && c.pkt.f 507 476 = 3 && b2.snap.st = .done && b2.snap.cut = 3 &&
        !b2.snap.images.isEmpty && b2.rollPages 3 = [] &&
        (b2.snap.images.foldl (fun (acc : Block × List Nat) im =>
          match acc.1.ledger im.hidx with
          | none => acc
          | some old =>
            let x := acc.1.restoreLedger im.hidx { Ledger.ofBytes im.led with lastCut := old.lastCut, lastComplete := 3 }
            (x.1, acc.2 ++ x.2)) ({ b4 with snap.bases := [] }, ([] : List Nat))).2.isEmpty) = true := by decide +kernel

theorem met_FAILOVER_REBUILD :
    recovers (snapped .idle) (foPkt 1) (fun c b2 =>
      c.pkt.f 411 409 = 1 && c.pkt.f 511 508 = 1 && b2.hosted[c.pkt.f 408 406]? = some 5 &&
        b2.snap.areas.find? (fun a => a.hidx = c.pkt.f 408 406) = some area1 && c.foLost.contains 5 && decide (b2.groupIndex area1 < 8) &&
        c.pkt.f 405 405 = 0) = true := by decide +kernel

/-- A drain that a delta makes ready, and a tier command on its path. -/
theorem met_PATH_GRANT :
    (let b := { snapped .opened with snap.deltas := [(0, 0x20)] }
     b.drainReady 2 = true ∧ ((b.tier.grants.get [] 2).filter id).length < b.tier.share) ∧
    (let b := tiered (copyPkt 0x10000 0x8000000000000) { tier1 .moving with moved := 0 }
     b.drainReady 2 = false ∧ (b.tierNext 2).isSome = true) := by decide +kernel

/-- Page 0x20 or 0x30, write-protected. -/
theorem met_WP_COPY_DONE :
    (let b := (snapped .opened).setAttr 0x20 (mkAttr 0 3 false true false)
     b.snapRegionOf 0x20 = some regP ∧ attrWp (b.attr 0x20) = true ∧ regP.isParity = true ∧ b.parityFree = some 0x40) ∧
    (let b := (snapped .opened).setAttr 0x30 (mkAttr 0 3 false true false)
     b.snapRegionOf 0x30 = some regS ∧ attrWp (b.attr 0x30) = true ∧ regS.isParity = false ∧ b.viewOf 0x30 = none ∧
       b.snapFree.head? = some 0x42) := by decide +kernel

def stream1 (tr : Bool) : SnapStream :=
  { hidx := 0, base := 0x4000000000000, cap := 4096, key := 0, pre := [], todo := [], frame := 0, segs := 0, off := 0, buf := [],
    acks := 0, trailer := tr, complete := false }

theorem met_STREAM_events :
    let b := { snapped .opened with snap.streams := [stream1 true] }
    b.snap.streams.find? (fun x => x.hidx = 0) = some (stream1 true) ∧ b.snap.st = .opened := by decide +kernel

/-- A message of snapshot traffic from member 11 of the group for unit 0 of region 0. -/
def delta1 (kind lev : Nat) : Msg := { Msg.zero with kind := kind, src := 11, dest := 5, no := 3, tree := 2, seq := 3, level := lev }

theorem met_ParityMessages :
    (let m := delta1 Kind.parityDelta 0
     let b := { snapped .opened with fab.inbox := [m] }
     b.inMsg Kind.parityDelta 11 3 = some m ∧ b.unitAt 5 0 0 = some (area1, 0) ∧ area1.touched = [] ∧
       (match b.memRead (b.halfDa area1 0 0) 0x10000 with | (.data _ _, _) => true | _ => false) = true) ∧
    (let m := delta1 Kind.parityDone 0
     let b := { snapped .opened with fab.inbox := [m] }
     b.inMsg Kind.parityDone 11 3 = some m ∧ (m.seq, m.tree, m.node) ∉ (b.dropMsg m).snap.dones) ∧
    (let m := delta1 Kind.fetch 1
     ({ snapped .idle with fab.inbox := [m] } : Block).inMsg Kind.fetch 11 3 = some m) := by decide +kernel

/-- A REBUILD that waits for the answers of member 11, or of 11 and 12. -/
def reb1 (ws : List (Nat × Nat × Nat)) : RebWork := { todo := [(0, 0, 0)], acc := [], waits := ws, since := 1 }
def rebuilding (ws : List (Nat × Nat × Nat)) : Block :=
  { snapped .idle with fab.inbox := [delta1 Kind.fetchData 1], mer.running := [cmdOf 9 (foPkt 1) (.rebuild (reb1 ws))],
                       sid.sc := 25000001 }

theorem met_REBUILD_messages :
    [[(1, 1, 0)], [(1, 1, 0), (2, 1, 0)]].all (fun ws =>
      let b := rebuilding ws
      let c := cmdOf 9 (foPkt 1) (.rebuild (reb1 ws))
      let m := delta1 Kind.fetchData 1
      b.inMsg Kind.fetchData 11 3 = some m &&
        b.mer.running.find? (fun c => match c.work with | .rebuild _ => c.foCut = m.seq | _ => false) = some c &&
        b.snap.areas.find? (fun a => a.hidx = c.foHidx) = some area1 && m.tree = area1.tree &&
        ((b.groupOf area1).findIdx (· = m.src), m.level, m.offset / 0x10000) = (1, 1, 0) && ws.contains (1, 1, 0) &&
        b.mer.running.find? (fun c => match c.work with
          | .rebuild w => !w.waits.isEmpty && decide (w.since + 25000000 ≤ b.now)
          | _ => false) = some c) = true := by decide +kernel

/-! ### Sidereal time, the Ephemeris, power, sleep and Tally -/

/-- A block whose Sidereal counter stands at n in a state; the last mark was 32 ticks ago. -/
def timed (st : SidState) (n : Nat) : Block :=
  { ready with sid.state := st, sid.sc := BitVec.ofNat 64 n, sid.sinceMark := 32, sid.clkValid := true }

/-- What the next tick would make the count, at each place that R73 tells apart. -/
theorem met_SiderealTime_marks :
    (timed .locked (2 ^ 24)).sid.would % 2 ^ 24 = 1 ∧ (timed .locked (2 ^ 24 - 1)).sid.would % 2 ^ 24 = 0 ∧
    (timed .locked (2 ^ 24 - 2)).sid.would % 2 ^ 24 = 2 ^ 24 - 1 ∧ (timed .locked 1).sid.would % 2 ^ 24 = 2 ∧
    (timed .locked (2 ^ 24 - 3)).sid.would % 2 ^ 24 = 2 ^ 24 - 2 ∧ (timed .acquire (2 ^ 24 - 1)).sid.checking = false ∧
    (timed .holdover (2 ^ 24 - 1)).sid.clkValid = true ∧ (timed .locked 0).sid.holdFor = 0 := by decide +kernel

theorem met_SiderealTime_registers :
    (timed .unset 0).linked = true ∧ (timed .unset 0).isAwake = true ∧ (timed .unset 0).boot.ready = true ∧
    (timed .unset 0).trust.job ≠ 0 ∧ ({ timed .unset 0 with trust.job := 0 } : Block).trust.job = 0 := by decide +kernel

/-- One Ephemeris entry, due 5 ticks after its base. -/
def ephPkt : Packet := packet 0x0A00 (par 48 [(0, 1), (64, 100), (128 + 32, 5), (128 + 64, 9), (128 + 192, 5)])

theorem met_EPH_WRITE_and_EPH_CANCEL :
    meets (timed .locked 104) ephPkt (fun c b1 =>
      c.pkt.f 15 0 = 1 && ephEntryBad (ephWord c.pkt 0) = none && decide (b1.now < ephFire c.pkt 0) && b1.sid.state = .locked) = true ∧
    meets (timed .locked 104) (packet 0x0A01 (par 16 [(64, 0xFF), (96, 9)])) any2 = true ∧
    (let c := cmdOf 9 (packet 0x0A01 (par 16 [])) (.await 2 103 0 0)
     ({ timed .locked 104 with mer.running := [c] } : Block).mer.running.find?
       (fun c => match c.work with | .await 2 sc _ _ => decide (sc < (timed .locked 104).now) | _ => false) = some c) := by decide +kernel

/-- An entry of a kind that is due now. -/
def entry1 (kind : Nat) : EphEntry :=
  { serial := 3, fire := 104, arg0 := 4, arg1 := 1, guardEn := false, guardCtr := 0, guardCond := 0, guardVal := 0, tag := 9,
    kind := kind, lateBy := 0 }
def due (b : Block) (kind : Nat) : Block := { b with sid.sc := 104, eph.entries := [entry1 kind] }

theorem met_EphemerisEntries_fire :
    [1, 2, 3, 4, 5, 6].all (fun k =>
      let b := due (snapped .idle) k
      b.eph.entries.find? (fun x => x.serial = 3 && x.kind = k) = some (entry1 k) && (entry1 k).fire.toNat = b.now &&
        b.guardHolds (entry1 k) && !b.shut.shut && b.isAwake && !b.ephBefore (entry1 k) && b.fab.releases.length < 256 &&
        (b.fab.colls.find? (fun y => y.isHeld && y.hold = k && y.tag = 4)).isNone) = true ∧
    (let b := due (snapped .idle) 3
     b.snap.st = .idle ∧ b.snap.cfg = some cfg1 ∧ b.recovering = false ∧ b.mer.running = [] ∧
       b.ledgerList.all (fun l => decide (l.2.lastCut < 4) && !l.2.gated) = true ∧ b.train.invalid = [] ∧
       b.train.updStarted ≤ b.train.updFinal) ∧
    (let x := { coll1 with hold := 1, tag := 4, startable := false, started := false }
     (due { ranked with fab.colls := [x] } 1).fab.colls.find? (fun y => y.isHeld && y.hold = 1 && y.tag = 4) = some x) ∧
    ({ due ready 5 with pow.sleep := .asleep 1 } : Block).isAwake = false := by decide +kernel

theorem met_PL_SET : meets ready (packet 0x0D00 (par 16 [(125, 3)])) (fun c _ => c.pkt.f 127 125 = 3) = true := by decide +kernel

/-- The last level reached, with a limit exceeded, and below it. -/
theorem met_PowerCommandsAndEvents :
    (let b := { ready with pow.eff := 7, pow.watts := 3001, pow.cap := 3000 }
     b.pow.eff = 7 ∧ b.overLimit = true ∧ bit b.shut.active 4 = false) ∧
    ({ ready with pow.watts := 3000, pow.cap := 3000 } : Block).overLimit = false ∧
    ready.pow.throttle = false ∧ ready.sid.state = .locked := by decide +kernel

theorem met_SLEEP :
    [(1, 7), (2, 7), (3, 0)].all (fun (st, job) => meets { ready with trust.job := job } (packetJ job 0x0D01 (par 16 [(126, st)])) (fun c b1 =>
      c.pkt.f 125 0 = 0 && c.pkt.f 127 126 = st && (b1.sleepBar st (some c.id)).isNone)) = true := by decide +kernel

theorem met_SleepCommandsAndEvents :
    ({ linked with fab.ports := [], pow.sleep := .entering 2 } : Block).sleepUnsent = false ∧
    ({ ready with pow.sleep := .entering 3 } : Block).pow.darkWake = false ∧ ready.pins.wakeDriven = false ∧
    ready.pow.wakeIgnored = false ∧ (ready.isAwake && ready.isReady && (ready.sleepBar 2 none).isNone) = true := by decide +kernel

theorem met_TallyCommandsComplete :
    meets ready (packet 0x0E00 (par 64 [(507, 31), (506, 1), (502, 7), (492, 2), (256, 1)])) (fun c b1 =>
      bit c.pkt.pnum 506 && c.pkt.f 505 502 < 8 && c.pkt.f 493 492 ≠ 3 && (b1.csu.get Csu.zero (c.pkt.f 511 507)).pend.isEmpty) = true ∧
    meets ready (packet 0x0E01 (par 16 [(76, 0x4000000001000), (44, 2 ^ 31)])) (fun c b1 =>
      (rspStatus (c.pkt.f 127 76) (((maskList 32 (c.pkt.f 75 44)).map (fun i => (b1.csu.get Csu.zero i).image i)).flatten).length).isNone) =
      true ∧
    meets ready (packet 0x0E02 (par 32 [(123, 31), (192, 5)])) (fun c b1 =>
      let u := b1.csu.get Csu.zero (c.pkt.f 127 123)
      !u.enable && u.pend.isEmpty) = true := by decide +kernel

/-! ### Trust, the host interface, resets and test access -/

/-- SESSION_OPEN: what R416 asks apart from the digest of the owner's key and its signature, which Config leaves open; the
others of R413, R417, R419 and R422. A DEBUG_UNLOCK whose object is no grant. -/
theorem met_TrustCommandsComplete :
    let b := { ready with trust.bootSeed := some 0, trust.bootUsed := 1023 }
    meets b (packet 0x0C02 (par 48 [(256, 0x4000000001000)])) (fun c b1 =>
      c.pkt.f 307 256 % 64 = 0 && (rspStatus (c.pkt.f 307 256) 5796).isNone && decide (0 < b1.trust.bootLeft)) = true ∧
    meets b (packet 0x0C03 (par 64 [(120, 14)])) (fun c _ => c.pkt.f 127 124 = 0 && c.pkt.f 123 120 < 15) = true ∧
    meets b (packet 0x0C03 (par 64 [(124, 1), (112, 0xFF)])) (fun c b1 => c.pkt.f 127 124 = 1 && b1.trust.prk.isNone) = true ∧
    meets { b with trust.prk := some 6, fab.ports := [(2, port2)] } (packet 0x0C03 (par 64 [(124, 1), (112, 0xFF)])) (fun c b1 =>
      c.pkt.f 127 124 = 1 && b1.trust.prk = some 6 && (maskList 8 (c.pkt.f 119 112)).filter (fun m =>
        (b1.port m).st.isUp && (b1.port m).txKey.isSome && !(b1.port m).failed) = [2] && (b1.port 2).keyCmd.isNone) = true ∧
    meets b (packet 0x0C03 (par 64 [(124, 2)])) (fun c _ => c.pkt.f 127 124 = 2) = true := by decide +kernel

set_option maxRecDepth 100000 in
theorem met_SESSION_OPEN_and_DEBUG_UNLOCK :
    let b := { ready with trust.bootSeed := some 0, trust.bootUsed := 1023 }
    meets b (packet 0x0C00 (par 416 [(0, 7), (32, 1), (76, 0x4000000001)])) (fun c b1 =>
      c.pkt.f 31 0 = b1.trust.job && c.pkt.f 47 32 ≠ 0 && (b1.session (c.pkt.f 47 32)).isNone && b1.trust.sessions.isEmpty &&
        b1.trust.bootLeft ≠ 0 && (rspStatus (c.pkt.f 127 76 * 0x1000) 5852).isNone) = true ∧
    meets b (packet 0x0C04 (par 256 [])) (fun c b1 => !b1.grantOk c.pkt.params) = true := by decide +kernel

/-- Levels that may be granted: 2 with no job, 1 with a job that is not sealed. -/
theorem met_DEBUG_LEVEL : ready.levelOk 1 = true ∧ ready.levelOk 2 = false ∧
    ({ ready with trust.job := 0 } : Block).levelOk 2 = true := by decide +kernel

theorem met_TrustFailure : ready.hubUp = true := by decide +kernel

/-- Doorbells of ring 0 at the last slot and one past it. -/
theorem met_RingRegisterWrites :
    let b := ready.setRing 1 { ready.ring 1 with enable := false }
    ready.linked = true ∧ ready.isAwake = true ∧ ready.boot.ready = true ∧ (ready.ring 0).enable = true ∧
      (ready.ring 0).subSize = 64 ∧ 63 % 4096 < (ready.ring 0).subSize ∧ 63 % 4096 < (ready.ring 0).cplSize ∧
      (ready.ring 0).subSize ≤ 64 % 4096 ∧ (ready.ring 0).cplSize ≤ 4095 % 4096 ∧
      (let cfg := (b.ring 1).cfg.put (2 ^ 31); bit (2 ^ 31) 31 = true ∧ cfg.ssize < 7 ∧ cfg.csize < 7) ∧ b.ringIdle 1 = true := by
  decide +kernel

/-- LOG_ACK from the entry before the oldest to the newest. -/
theorem met_RegisterWrites :
    (let b := { ready with host.msix := [(3, { Vector128.zero with spacing := true, due := true })] }
     (b.host.msix.get Vector128.zero 3).spacing = true) ∧
    (let l := logged.log
     (l.oldestFirst.length = 1) ∧ l.oldestFirst.all (fun e =>
       [(e.seq + 2 ^ 32 - 1) % 2 ^ 32, l.newest].all (fun v => decide (0 ≤ sx 32 (v + 2 ^ 32 - (e.seq + 2 ^ 32 - 1) % 2 ^ 32)) &&
         decide (0 ≤ sx 32 (l.newest + 2 ^ 32 - v)))) = true) ∧
    ready.host.tdisp = .unlocked := by decide +kernel

theorem met_WindowAndAperture :
    let b := { ready with alm.ringAreaDa := 0x1000000 }
    b.ideTakes 0 = true ∧ b.host.tdisp ≠ .error ∧ b.bar4Bar 0x10000 64 false = none ∧ b.bar4Bar 0x10000 64 true = none ∧
      b.readWaits 0x10000 64 = false ∧ b.writeWaits 0x10000 64 = false ∧ okRead b 0x10000 64 (fun _ _ => true) = true ∧
      okRead b (b.alm.ringAreaDa + 0x1FFFFC0) 64 (fun _ _ => true) = true ∧ (0x1FFFFC0 + 64 ≤ 0x2000000) ∧
      b.bar4Bar (2 ^ 50) 64 false ≠ none ∧ b.bar4Bar (2 ^ 50) 64 true ≠ none := by decide +kernel

theorem met_HostCompletions :
    [HostReq.slots 0 1 2, .tier 9 0 64, .stream 0, .restore 9 0 64].all (fun who =>
      let b := { ready with host.reqs := [(4, who)], mer.running := [cmdOf 9 (packet 0x0B02 (par 64 [])) .none] }
      b.linked && b.host.reqs.find? (fun x => x.1 = 4) = some (4, who) && (b.cmd 9).isSome) = true := by decide +kernel

theorem met_PacketDispatchServes :
    (let c := cmdOf 9 { packet 0 [] with src := .tile 0 } .none
     let b := { ready with mer.tileHeld := [(0, [c])] }
     b.mer.tileHeld.get [] 0 = c :: [] ∧ b.heldOf c.pkt.src = c :: [] ∧ b.canStart c = true) ∧
    (let b := { ready with mer.tileQ := [(0, [(packet 0 [], 0)])] }
     b.mer.tileHeld.get [] 0 = [] ∧ b.mer.tileQ.get [] 0 = (packet 0 [], 0) :: []) ∧
    (let b := ready.memWrite (ready.alm.ringAreaDa) [0, 0, 1]
     b.pickRing 0 b.ringDue = some 0 ∧ (b.ring 0).held = []) ∧
    (let c := cmdOf 9 (packet 0 []) .none
     let b := ready.setRing 0 { ready.ring 0 with held := [c] }
     b.pickRing 0 b.ringDue = some 0 ∧ b.canStart c = true) := by decide +kernel

/-- Start-up: a block of each phase. -/
def phased (p : Phase) : Block := { ready with boot.phase := p, boot.ready := false }

theorem met_ResetsAndStartUp :
    ready.boot.phase ≠ .commit ∧ ready.boot.due = none ∧ (phased .commit).boot.due = none ∧ ready.boot.perst = false ∧
    (phased .romInit).hubUp = true ∧
    (let b := { phased .waitImage with host.busMaster := true, boot.len := 8388608, boot.addr := 2 ^ 64 - 8388608 }
     b.hubUp = true ∧ b.host.busMaster = true ∧ 64 ≤ b.boot.len ∧ b.boot.len % 64 = 0 ∧ b.boot.addr + b.boot.len ≤ 2 ^ 64) ∧
    (let b := { phased .fetch with boot.bundle := zeros 64, boot.len := 64 }; b.boot.bundle.length = b.boot.len) ∧
    (let b := { phased .verify with boot.bundle := zeros 64, trust.bootTries := 6 }
     b.bootCheck b.boot.bundle ≠ none ∧ b.trust.bootTries + 1 < 8) := by decide +kernel

theorem met_ManagementCommands :
    ready.mctpServes 0 = true ∧ ready.mctpServes 1 = true ∧ ready.boot.dark = false ∧ ready.trust.bootState ≠ 4 ∧
    ({ ready with trust.spdmTranscript := [(0, [1])] } : Block).trust.spdmTranscript.get [] 0 ≠ [] ∧
    (natBytes [16, 0xE0, 1]).length = 3 ∧ bit ((natBytes [16, 0xE0, 1]).getD 2 0).toNat 0 = true ∧ ready.host.tdisp = .unlocked ∧
    ready.isReady = true := by decide +kernel

theorem met_TestAccess :
    ready.irOk 0x01 = true ∧ ready.irOk 0x11 = false ∧ ready.hubUp = true ∧
    ({ ready with trust.debugLevel := 1 } : Block).irOk 0x10 = true ∧ debugReads 0x3FC = true ∧ debugReads 0x400 = false ∧
    (okRead ready 0x10000 64 (fun _ _ => true) = true) ∧ localPopulated 0x10000 4 = true ∧ ready.writeWaits 0x10000 4 = false ∧
    ready.roHit 0x10000 4 = false := by decide +kernel

/-! ### The spec's own figures -/

/-- spec/10: the granule that lies in H17.PC6 at location 224,426, and the next one in H23.PC6. spec/01: the window of T143. -/
theorem test_home : ready.home 0x5230000000 = (32 * 17 + 6, 224426) ∧ (ready.home (0x5230000000 + 2048)).1 = 32 * 23 + 6 ∧
    tileDa 143 = 0x10008F000000 ∧ regionOf 0x10008FBFFFFF = .tile 143 0xBFFFFF := by decide +kernel

/-- spec/10: the check symbols of b0 = 1, the decoding of b3 ^ 0x10, and the poison of R253. -/
theorem test_code_word : plateCheck (1 :: List.replicate 15 0) = (2, 3) ∧ plateDecode none (0x10 <<< 40) = .corrected 5 0x10 ∧
    plateDecode none 0x0101 = .poison := by decide +kernel

/-- spec/04: in E4M3 464 rounds to 448, and above it the rounding overflows. -/
theorem test_e4m3_tie :
    (let f := fmtOf (builtinFw.getD 3 0); f.decode 0x7E = .fin false 448 0 ∨ (f.decode 0x7E).dy.lt ⟨449, 0⟩ = true) ∧
    ((fmtOf (builtinFw.getD 3 0)).enc (FV.ofDy false ⟨464, 0⟩)).1 = 0x7E := by decide +kernel

/-- spec/05, the cancellation worked bit by bit: the cell drains to 0x3C00_0000, not to the exact sum. -/
theorem test_cancellation :
    let f := fmtOf (builtinFw.getD 3 0)
    let blk (c : Cell) (s : Nat) (as bs : List Nat) : Cell := c.narrow f f (as.map f.decode) (bs.map f.decode) s s true
    (fp32.enc (blk (blk (blk Cell.zero 0x8A [0x7E] [0x7E]) 0x7F [0x7E, 0xFE, 0x03] [0x7E, 0x7E, 0x38]) 0x8A [0xFE] [0x7E]).fv).1 =
      0x3C000000 := by decide +kernel

/-- spec/06: STEP G0 with FIRST, and DRAIN G0 through ODR0, in their slot. -/
theorem test_slots : cubeSlot 77 0x30000000 = [.step 77 0 true] ∧ cubeSlot 77 0x40000000 = [.drain 77 0 0] := by decide +kernel

/-- spec/11: BOUNDED with M = 3 and FLOOR = −20. -/
theorem test_bounded : quant 2 3 (-20) 0x3F9E = 0x3FA0 ∧ quant 2 3 (-20) 0x3580 = 0x3580 ∧ quant 2 3 (-20) 0xB500 = 0x8000 := by
  decide +kernel

/-- spec/11: the entry of page 49,234, where it stands, its codec, and its page reference. -/
theorem test_page_entry :
    let m := { cmap1 with num := 3, entryDa := 0x1A000000000, fs := 9600, key := 32 }
    let e : CEntry := { sect := [0x400FA000, 0x400FA001, 0x400FA002], crc := 0, len := 1147, kind := 1, xform := 1 }
    bits e.toNat 95 64 = 0x23D83600 ∧ CEntry.ofNat e.toNat = e ∧ m.entryAddr 49234 = 0x1A000301480 ∧ m.codecOf 49234 = 13 := by
  decide +kernel

/-- spec/14: the first AdamW step gives 16,768,768 × 2^-25 (its hexadecimal there is another number: log entry 151). -/
theorem test_adamw :
    let set := fields [(192, 0x3B000000), (32, 0x39800000), (64, 0x3F666666), (96, 0x3F733333), (128, 0x322BCC77), (160, 0x3D800000)]
    let h := hyperOf set 16 1
    (fp32.enc h.bc1).1 = 0x3DCCCCD0 ∧
      (fp32.enc ((recipeElem 2 h (fp32.decode 0x3F000000) (.fin false 0 0) (.fin false 0 0) (fp32.decode 0x47000000)).run 0).1.1).1 =
        (fp32.enc (FV.ofDy false ⟨16768768, -25⟩)).1 := by
  decide +kernel

/-- spec/15: shard 5 of the eight-member tree sums to 2.0. -/
theorem test_tree_sum :
    let v : List Int := [-(2 ^ 24), 1, 0, 0, 0, 1, 2 ^ 24, 1]
    let leaf (i : Nat) : Option (List FV) := some [FV.ofDy false ⟨v.getD ((5 + 1 + i) % 8) 0, 0⟩]
    (nodeVal 0 8 (fun _ _ => true) leaf (fun _ _ => none) 3 0).map (fun l => l.map (fun x => (fp32.enc x).1)) = some [0x40000000] := by
  decide +kernel

/-- spec/16: chunk 2 of position 3 for the member in place 5. -/
theorem test_rebuild : rebuildSources 5 30 3 2 =
    [(0, 1, 3), (1, 0, 27), (2, 0, 26), (3, 0, 25), (4, 0, 24), (6, 0, 22), (7, 0, 21)] := by decide +kernel

set_option maxRecDepth 100000 in
/-- spec/08: the tile-store regions of the encoder convolution, its direct extents, and the blocks of T143. -/
theorem test_conv :
    let ax (n p k : Nat) (c : Bool) : Axis :=
      { inn := n, out := n, padLo := p, padHi := p, k := k, stride := 1, dil := 1, outPad := 0, mode := 0, causal := c }
    let d : Conv := { Conv.of (packet 0x0300 (par 256 [])) with
      groups := 1, cin := 128, cout := 128, n := 1, block := 4, inSlot := 3, wSlot := 3, outSlot := 3, lb := 0, wb := 0x270000,
      ob := 0x2E0000, t := ax 64 0 3 true, h := ax 384 1 3 false, w := ax 640 1 3 false }
    ready.convRegions d = [(0, 2538240), (0x270000, 456192), (0x2E0000, 25344)] ∧ d.kg = 3456 ∧
      [d.t, d.h, d.w].map (fun a => a.extent false) = [64, 384, 640] ∧ 143 * 163840 / 144 = 162702 := by decide +kernel

/-- spec/02: operations on one counter in one cycle apply in the order of their requesters. -/
theorem test_same_cycle :
    let op (req : Nat) (set : Bool) (v : Nat) : SyncOp := { ctr := 2100, req := req, set := set, val := v, cmd := none }
    let s := stateOf { ready with
      mer.sync := [(2100, 40)], mer.syncPending := [op 219 true 0, op 41 false 1, op 40 false 1] }
    (match exec (.syncOpEffect 2100) s with
     | .next t => (t.blk.syncVal 2100, t.blk.mer.syncPending.length)
     | _ => (1, 1)) = (0, 0) := by decide +kernel

/-- spec/14: BF16 0x3F00, the remainder 0xBE, and its scale 2^-12, 0x73. -/
theorem test_remainder :
    let r := remainderWrite (FV.ofDy false ⟨16768768, -25⟩ :: List.replicate 31 (.fin false 0 0))
    (leNat (r.1.take 2), leNat (r.2.1.take 1), r.2.2.1) = (0x3F00, 0xBE, 0x73) := by decide +kernel

end Witnesses

end Sys2Proof.Tests
end

section
/-!
PROOFS. The conditions of WAIT, WAIT_EN and the guards on a sync counter (R63), in terms of the difference modulo 2^32.
-/

namespace Sys2Proof.Machine

/-! ### The sign of a two's complement reading -/

theorem sx_neg_iff (n x : Nat) : sx (n + 1) x < 0 ↔ 2 ^ n ≤ x % 2 ^ (n + 1) := by
  have hlt : x % 2 ^ (n + 1) < 2 ^ (n + 1) := Nat.mod_lt _ (Nat.two_pow_pos _)
  have hpow : 2 ^ (n + 1) = 2 * 2 ^ n := Nat.pow_succ'
  simp only [sx]
  split <;> omega

theorem sx_nonneg_iff (n x : Nat) : 0 ≤ sx (n + 1) x ↔ x % 2 ^ (n + 1) < 2 ^ n := by
  rw [← Int.not_lt, sx_neg_iff, Nat.not_le]

/-! ### The conditions of R63

The difference stands behind a name (`generalize`) while the condition is chosen, so that the choice does not make
Lean evaluate `counter + 2 ^ 32 - v % 2 ^ 32` by unary subtraction. -/

theorem condHolds_ge_iff_sx (counter v : Nat) : condHolds 0 counter v = true ↔ 0 ≤ sx 32 (counter + 2 ^ 32 - v % 2 ^ 32) := by
  unfold condHolds
  generalize sx 32 _ = d
  simp only [decide_eq_true_iff]

theorem condHolds_lt_iff_sx (counter v : Nat) : condHolds 3 counter v = true ↔ sx 32 (counter + 2 ^ 32 - v % 2 ^ 32) < 0 := by
  unfold condHolds
  generalize sx 32 _ = d
  simp only [decide_eq_true_iff]

theorem condHolds_eq_iff_mod (counter v : Nat) : condHolds 1 counter v = true ↔ counter = v % 2 ^ 32 := by
  unfold condHolds
  generalize sx 32 _ = d
  simp only [decide_eq_true_iff]

theorem condHolds_ne_iff_mod (counter v : Nat) : condHolds 2 counter v = true ↔ counter ≠ v % 2 ^ 32 := by
  unfold condHolds
  generalize sx 32 _ = d
  simp only [decide_eq_true_iff]

/-- The model's difference is that of R63, written without the reduction of an operand already below 2^32. -/
theorem add_sub_mod_eq_add_sub (counter : Nat) {v : Nat} (hv : v < 2 ^ 32) :
    counter + 2 ^ 32 - v % 2 ^ 32 = counter + (2 ^ 32 - v) := by
  rw [Nat.mod_eq_of_lt hv, Nat.add_sub_assoc (Nat.le_of_lt hv)]

/-- Settles O9: GE and LT read the sign of the difference, EQ and NE compare the counter with the operand itself. -/
theorem waitConditions : Obligations.WaitConditions := by
  intro counter v _ hv
  have hdiff := add_sub_mod_eq_add_sub counter hv
  have hmod := Nat.mod_eq_of_lt hv
  refine ⟨?ge, ?eq, ?ne, ?lt⟩
  case ge => rw [condHolds_ge_iff_sx, hdiff, sx_nonneg_iff 31]
  case eq => rw [condHolds_eq_iff_mod, hmod]
  case ne => rw [condHolds_ne_iff_mod, hmod]
  case lt => rw [condHolds_lt_iff_sx, hdiff, sx_neg_iff 31]

end Sys2Proof.Machine
end

section
/-!
PROOFS. SID_LOAD while a job is bound (R72): the write itself, the two register paths that reach it (R428), and the TLP that
carries them (R472).
-/

namespace Sys2Proof.Machine

/-- R72 at its root. -/
theorem sidLoad_eq_self_of_job {b : Block} (hjob : b.trust.job ≠ 0) (v : Nat) : b.sidLoad v = b := if_pos hjob

/-! ### BAR0 writes of SID_LOAD -/

theorem regWrite_sidLoad_low (v : Nat) (b : Block) :
    b.regWrite 0x3018 v = if b.bar0Serves 0x3018 then b.sidLoad (putHalf (b.sid.loadEpoch * 2 ^ 24) 0 v) else b := by
  unfold Block.regWrite
  cases b.bar0Serves 0x3018 with
  | false => simp
  | true => simp

theorem regWrite_sidLoad_high (v : Nat) (b : Block) :
    b.regWrite 0x301C v = if b.bar0Serves 0x301C then b.sidLoad (putHalf (b.sid.loadEpoch * 2 ^ 24) 4 v) else b := by
  unfold Block.regWrite
  cases b.bar0Serves 0x301C with
  | false => simp
  | true => simp

theorem bar0Write_sidLoad_whole (v : Nat) (b : Block) :
    b.bar0Write 0x3018 8 v = if b.bar0Serves 0x3018 then b.sidLoad (v % 2 ^ 64) else b := rfl

theorem bar0Write_sidLoad_low (v : Nat) (b : Block) : b.bar0Write 0x3018 4 v = b.regWrite 0x3018 (lo32 v) := rfl

theorem bar0Write_sidLoad_high (v : Nat) (b : Block) : b.bar0Write 0x301C 4 v = b.regWrite 0x301C (lo32 v) := rfl

/-- Every path to SID_LOAD lets the write through under a condition of its own (READY, an offset that is served). -/
theorem guarded_sidLoad_eq_self_of_job {b : Block} (hjob : b.trust.job ≠ 0) (c : Bool) (v : Nat) :
    (if c then b.sidLoad v else b) = b := by
  rw [sidLoad_eq_self_of_job hjob, ite_self]

/-! ### The TLP that carries the write

A TLP may wake the module before the write takes effect; `wakeBy_steady` says that the wake keeps the job and the time base. -/

theorem run_onTlp_keeps_sid {f : Block → Block} {s : State} (hjob : s.blk.trust.job ≠ 0)
    (hf : ∀ b : Block, b.trust.job ≠ 0 → f b = b) :
    ∃ t, s.run (Block.onTlp f) = .next t ∧ t.blk.sid = s.blk.sid := by
  refine ⟨_, rfl, ?_⟩
  have hwake := wakeBy_steady 1 13 0 s.blk
  show (s.blk.onTlp f).sid = s.blk.sid
  unfold Block.onTlp
  split
  · rw [hf _ (by rwa [hwake.trust]), hwake.sid]
  · rfl

/-- Settles O10: in a job each of the four writes leaves the block it reaches as it is, and the TLP keeps the time base,
also where it wakes the module, so the premise that the module is awake is not used. -/
theorem sidLoadIgnoredInAJob : Obligations.SidLoadIgnoredInAJob := by
  intro s v hjob _
  refine ⟨?arm, ?whole, ?low, ?high⟩
  case arm => exact run_onTlp_keeps_sid hjob fun b hb => guarded_sidLoad_eq_self_of_job hb _ _
  case whole =>
    exact run_onTlp_keeps_sid hjob fun b hb => by rw [bar0Write_sidLoad_whole, guarded_sidLoad_eq_self_of_job hb]
  case low =>
    exact run_onTlp_keeps_sid hjob fun b hb => by
      rw [bar0Write_sidLoad_low, regWrite_sidLoad_low, guarded_sidLoad_eq_self_of_job hb]
  case high =>
    exact run_onTlp_keeps_sid hjob fun b hb => by
      rw [bar0Write_sidLoad_high, regWrite_sidLoad_high, guarded_sidLoad_eq_self_of_job hb]

end Sys2Proof.Machine
end

section
/-!
PROOFS. The lanes of a vector register (R165) and the rotation of lane pairs (R173).
-/

namespace Sys2Proof.Machine

/-! ### Lanes of a register -/

/-- Lane `i` of a vector register. -/
def laneAt (v i : Nat) : Word := BitVec.ofNat 32 (v / 2 ^ (32 * i))

theorem laneAt_eq_of_mod_eq {v w i : Nat} (h : v / 2 ^ (32 * i) % 2 ^ 32 = w / 2 ^ (32 * i) % 2 ^ 32) :
    laneAt v i = laneAt w i :=
  BitVec.eq_of_toNat_eq h

theorem lanesOf_getD (v : Nat) {i : Nat} (hi : i < 512) : (lanesOf v).getD i 0 = laneAt v i := by
  simp [lanesOf, laneAt, hi, Nat.shiftRight_eq_div_pow]

theorem ofLanes_cons (w : Word) (l : List Word) : ofLanes (w :: l) = w.toNat + 2 ^ 32 * ofLanes l := rfl

/-- The lanes above the lowest are those of the rest of the list. -/
theorem ofLanes_cons_div (w : Word) (l : List Word) : ofLanes (w :: l) / 2 ^ 32 = ofLanes l := by
  rw [ofLanes_cons, Nat.add_mul_div_left _ _ (by decide), Nat.div_eq_of_lt w.isLt, Nat.zero_add]

/-- A register that is put together from a list of words holds them as its lanes, and +0 above. -/
theorem laneAt_ofLanes (l : List Word) (i : Nat) : laneAt (ofLanes l) i = l.getD i 0 := by
  induction l generalizing i with
  | nil => simp [ofLanes, laneAt]
  | cons w l ih =>
    cases i with
    | zero => exact BitVec.eq_of_toNat_eq (by simp [laneAt, ofLanes_cons, Nat.mod_eq_of_lt w.isLt])
    | succ i =>
      rw [List.getD_cons_succ, ← ih i, laneAt, laneAt, Nat.mul_succ, Nat.add_comm, pow_add, ← Nat.div_div_eq_div_mul,
        ofLanes_cons_div]

theorem laneAt_ofLanes_range (f : Nat → Word) {i : Nat} (hi : i < 512) :
    laneAt (ofLanes ((List.range 512).map f)) i = f i := by
  simp [laneAt_ofLanes, hi]

/-! ### The rotation -/

/-- Lane `i` of R173's result, from the lanes of the three registers. -/
def rotLane (xs cs ss i : Nat) : Word :=
  let val (v k : Nat) : FV := dec32 (laneAt v k)
  let j := i / 2 * 2
  if i % 2 = 0 then enc32 (((val xs j).mul (val cs j)).add (((val xs (j + 1)).mul (val ss j)).neg))
  else enc32 (((val xs j).mul (val ss j)).add ((val xs (j + 1)).mul (val cs j)))

theorem rotOp_eq_ofLanes_rotLane (x : Tile) (a : VecA) :
    rotOp x a = ofLanes ((List.range 512).map (rotLane (x.vreg a.va) (x.vreg a.vb) (x.vreg a.vc))) := by
  refine congrArg ofLanes (List.map_congr_left fun i hi => ?_)
  have hi : i < 512 := List.mem_range.mp hi
  have heven : i / 2 * 2 < 512 := by omega
  have hodd : i / 2 * 2 + 1 < 512 := by omega
  simp only [rotLane, lanesOf_getD _ heven, lanesOf_getD _ hodd]

theorem laneAt_rotOp (x : Tile) (a : VecA) {i : Nat} (hi : i < 512) :
    laneAt (rotOp x a) i = rotLane (x.vreg a.va) (x.vreg a.vb) (x.vreg a.vc) i := by
  rw [rotOp_eq_ofLanes_rotLane, laneAt_ofLanes_range _ hi]

theorem rotLane_even (xs cs ss j : Nat) :
    rotLane xs cs ss (2 * j) =
      enc32 (((dec32 (laneAt xs (2 * j))).mul (dec32 (laneAt cs (2 * j)))).add
        (((dec32 (laneAt xs (2 * j + 1))).mul (dec32 (laneAt ss (2 * j)))).neg)) := by
  have hpair : 2 * j / 2 * 2 = 2 * j := by omega
  simp only [rotLane, hpair, Nat.mul_mod_right, if_true]

theorem rotLane_odd (xs cs ss j : Nat) :
    rotLane xs cs ss (2 * j + 1) =
      enc32 (((dec32 (laneAt xs (2 * j))).mul (dec32 (laneAt ss (2 * j)))).add
        ((dec32 (laneAt xs (2 * j + 1))).mul (dec32 (laneAt cs (2 * j))))) := by
  have hpair : (2 * j + 1) / 2 * 2 = 2 * j := by omega
  have hodd : (2 * j + 1) % 2 ≠ 0 := by omega
  simp only [rotLane, hpair, if_neg hodd]

/-- Of the cosines and sines a lane reads only those at the even lane of its pair. -/
theorem rotLane_congr (xs : Nat) {cs cs' ss ss' i : Nat} (hc : laneAt cs (i / 2 * 2) = laneAt cs' (i / 2 * 2))
    (hs : laneAt ss (i / 2 * 2) = laneAt ss' (i / 2 * 2)) : rotLane xs cs ss i = rotLane xs cs' ss' i := by
  simp only [rotLane, hc, hs]

/-- `2 ^ (64 * j)`, by which the premise of R173's second part shifts, is the place of lane `2 * j`. -/
theorem laneAt_eq_of_pair_mod_eq {v w j : Nat} (h : v / 2 ^ (64 * j) % 2 ^ 32 = w / 2 ^ (64 * j) % 2 ^ 32) :
    laneAt v (j * 2) = laneAt w (j * 2) := by
  have hplace : 32 * (j * 2) = 64 * j := by omega
  exact laneAt_eq_of_mod_eq (by rwa [hplace])

theorem rotOp_eq_of_even_lanes {x y : Tile} {a : VecA} (hx : x.vreg a.va = y.vreg a.va)
    (heven : ∀ j, j < 256 → laneAt (x.vreg a.vb) (j * 2) = laneAt (y.vreg a.vb) (j * 2) ∧
      laneAt (x.vreg a.vc) (j * 2) = laneAt (y.vreg a.vc) (j * 2)) : rotOp x a = rotOp y a := by
  rw [rotOp_eq_ofLanes_rotLane, rotOp_eq_ofLanes_rotLane, hx]
  refine congrArg ofLanes (List.map_congr_left fun i hi => ?_)
  obtain ⟨hc, hs⟩ := heven (i / 2) (Nat.div_lt_of_lt_mul (List.mem_range.mp hi))
  exact rotLane_congr _ hc hs

/-- Settles O11: each lane of the result is `rotLane`, whose two branches are R173's formulas and which reads VB and VC
only at the even lane of the pair. -/
theorem rotRotatesLanePairs : Obligations.RotRotatesLanePairs := by
  refine ⟨fun x a j hj => ⟨?even, ?odd⟩, fun x y a hx hbc => ?congr⟩
  case even => exact (laneAt_rotOp x a (by omega)).trans (rotLane_even _ _ _ j)
  case odd => exact (laneAt_rotOp x a (by omega)).trans (rotLane_odd _ _ _ j)
  case congr =>
    exact rotOp_eq_of_even_lanes hx fun j hj => (hbc j hj).imp laneAt_eq_of_pair_mod_eq laneAt_eq_of_pair_mod_eq

end Sys2Proof.Machine
end

section
/-!
PROOFS. One step and the queue of waiting commands: exec answers a next state and leaves the queue alone, and the commands that a
matrix cycle brings decode from their bundles with every operand in its field's range (R139, R142, R145, R148, R167, R168, R181).
-/

namespace Sys2Proof.Machine

/-! ### The step -/

/-- Every command runs: what it does is a function of the block alone. -/
theorem exec_eq_run (i : Instr) : ∃ f : Block → Block, ∀ s : State, exec i s = s.run f := by
  cases i <;> exact ⟨_, fun _ => rfl⟩

/-- Settles O3: every command is a block function lifted to the state. -/
theorem execAnswersAndKeepsQueue : Obligations.ExecAnswersAndKeepsQueue := by
  intro i s
  obtain ⟨f, hf⟩ := exec_eq_run i
  exact ⟨s.on f, hf s, rfl⟩

theorem step_of_cons {s : State} {c : Instr} {rest : List Instr} (h : s.pending = c :: rest) :
    step s = exec c { s with pending := rest } := by
  simp only [step, h]

theorem step_of_nil {s : State} (h : s.pending = []) : step s = .next s.tick := by
  simp only [step, h]

/-- Settles O1. -/
theorem stepRunsFrontCommand : Obligations.StepRunsFrontCommand := fun _ _ _ h => step_of_cons h

/-- Asleep, in reset or before READY the clock brings nothing. -/
theorem clock_of_not_running {b : Block} (h : b.isReady = false ∨ b.isAwake = false) : b.clock = (b, []) := by
  have hstop : (!b.isReady || !b.isAwake) = true := by simpa using h
  simp only [Block.clock, hstop, if_true]

theorem tick_of_not_running {s : State} (hq : s.pending = []) (h : s.blk.isReady = false ∨ s.blk.isAwake = false) : s.tick = s := by
  cases s
  simp_all [State.tick, clock_of_not_running]

/-- Settles O2. -/
theorem emptyQueueIsACycle : Obligations.EmptyQueueIsACycle := fun s hq =>
  ⟨step_of_nil hq, fun h => by rw [step_of_nil hq, tick_of_not_running hq h]⟩

/-! ### Operands decoded from a bundle lie in their fields' ranges -/

theorem bits_lt (x hi lo : Nat) : bits x hi lo < 2 ^ (hi + 1 - lo) := Nat.mod_lt _ (Nat.two_pow_pos _)

theorem vecAOk_vecA {pipe : Nat} (hp : pipe < 2) (w : Nat) : vecAOk (vecA pipe w) = true := by
  simp only [vecAOk, Bool.and_eq_true, decide_eq_true_eq]
  exact ⟨⟨⟨⟨⟨⟨hp, bits_lt w 39 34⟩, bits_lt w 33 28⟩, bits_lt w 27 22⟩, bits_lt w 21 16⟩, bits_lt w 15 13⟩, bits_lt w 11 0⟩

theorem vecMOk_vecM {pipe : Nat} (hp : pipe < 2) (w : Nat) : vecMOk (vecM pipe w) = true := by
  simp only [vecMOk, Bool.and_eq_true, decide_eq_true_eq]
  exact ⟨⟨⟨⟨⟨⟨⟨hp, bits_lt w 39 34⟩, bits_lt w 33 32⟩, bits_lt w 31 27⟩, bits_lt w 26 25⟩, bits_lt w 24 13⟩, bits_lt w 12 8⟩,
    bits_lt w 7 0⟩

section
variable {core : Nat} (hc : core < 4) (w : Nat)
include hc

theorem scROk_scR : scROk (scR core w) = true := by
  simp only [scROk, Bool.and_eq_true, decide_eq_true_eq]
  exact ⟨⟨⟨hc, bits_lt w 23 19⟩, bits_lt w 18 14⟩, bits_lt w 13 9⟩

theorem scIOk_scI : scIOk (scI core w) = true := by
  simp only [scIOk, Bool.and_eq_true, decide_eq_true_eq]
  exact ⟨⟨⟨hc, bits_lt w 23 19⟩, bits_lt w 18 14⟩, bits_lt w 13 0⟩

theorem scUOk_scU : scUOk (scU core w) = true := by
  simp only [scUOk, Bool.and_eq_true, decide_eq_true_eq]
  exact ⟨⟨hc, bits_lt w 23 19⟩, bits_lt w 18 0⟩

theorem scBOk_scB : scBOk (scB core w) = true := by
  simp only [scBOk, Bool.and_eq_true, decide_eq_true_eq]
  exact ⟨⟨⟨hc, bits_lt w 23 19⟩, bits_lt w 18 14⟩, bits_lt w 13 0⟩

theorem scDOk_scD : scDOk (scD core w) = true := by
  simp only [scDOk, Bool.and_eq_true, decide_eq_true_eq]
  exact ⟨⟨hc, bits_lt w 23 19⟩, bits_lt w 18 0⟩

theorem scVOk_scV : scVOk (scV core w) = true := by
  simp only [scVOk, Bool.and_eq_true, decide_eq_true_eq]
  exact ⟨⟨⟨hc, bits_lt w 23 19⟩, bits_lt w 18 13⟩, bits_lt w 12 4⟩

end

theorem svalOk_syncVal (w : Nat) : svalOk (syncVal w) = true := by
  unfold syncVal
  split
  · simp only [svalOk, Bool.and_eq_true, decide_eq_true_eq]
    exact ⟨bits_lt w 12 11, bits_lt w 10 6⟩
  · simp only [svalOk, decide_eq_true_eq]
    exact bits_lt w 12 0

/-! ### The slots of a bundle are well-formed -/

/-- Every command of a list is well-formed. -/
def AllWf (l : List Instr) : Prop := ∀ i ∈ l, i.wf = true

theorem AllWf.nil : AllWf [] := fun _ h => nomatch h
theorem AllWf.append {l k : List Instr} (hl : AllWf l) (hk : AllWf k) : AllWf (l ++ k) := fun i hi =>
  (List.mem_append.mp hi).elim (hl i) (hk i)
theorem AllWf.single {i : Instr} (h : i.wf = true) : AllWf [i] := fun _ hj => (List.mem_singleton.mp hj) ▸ h
theorem AllWf.flatMap {α : Type} {l : List α} {f : α → List Instr} (h : ∀ x ∈ l, AllWf (f x)) : AllWf (l.flatMap f) := fun i hi =>
  let ⟨x, hx, hi⟩ := List.mem_flatMap.mp hi
  h x hx i hi

section
variable {t : Nat} (ht : tileNo t = true)
include ht

theorem cubeSlot_wf (w : Nat) : AllWf (cubeSlot t w) := by
  have hstep := bits_lt w 27 26
  have hgroup := bits_lt w 25 24
  have hodr := bits_lt w 23 22
  unfold cubeSlot
  split
  case h_6 => exact .nil
  all_goals
    refine .single ?_
    simp only [Instr.wf, ht, Bool.and_eq_true, decide_eq_true_eq, true_and]
    omega

theorem cubeAgain_wf (w : Nat) : AllWf (cubeAgain t w) := by
  have hstep := bits_lt w 27 26
  unfold cubeAgain
  split
  case h_4 => exact .nil
  all_goals
    refine .single ?_
    simp only [Instr.wf, ht, Bool.and_eq_true, decide_eq_true_eq, true_and]
    omega

/-- A vector slot spells a row of form A or of form M, or none. -/
theorem vecSlot_wf {pipe : Nat} (hp : pipe < 2) (w : Nat) : AllWf (vecSlot t pipe w) := by
  have hA := vecAOk_vecA hp w
  have hM := vecMOk_vecM hp w
  unfold vecSlot
  split
  case h_45 => exact .nil
  all_goals exact .single (by simp only [Instr.wf, ht, hA, hM, Bool.and_self])

/-- A scalar slot spells a row of one of the six forms, on the core of its bits 31:30, or none. -/
theorem scalarSlot_wf (w : Nat) : AllWf (scalarSlot t w) := by
  have hcore := bits_lt w 31 30
  have hR := scROk_scR hcore w
  have hI := scIOk_scI hcore w
  have hU := scUOk_scU hcore w
  have hB := scBOk_scB hcore w
  have hD := scDOk_scD hcore w
  have hV := scVOk_scV hcore w
  unfold scalarSlot
  dsimp only
  split
  case h_37 => exact .nil
  all_goals exact .single (by simp only [Instr.wf, ht, hR, hI, hU, hB, hD, hV, Bool.and_self])

theorem moveSlot_wf (w : Nat) : AllWf (moveSlot t w) := by
  have hmdr := bits_lt w 43 40
  have hac := bits_lt w 39 36
  unfold moveSlot
  split
  case h_3 => exact .nil
  all_goals
    refine .single ?_
    simp only [Instr.wf, ht, Bool.and_eq_true, decide_eq_true_eq, true_and]
    omega

theorem syncWaitSlot_wf {w : Nat} {i : Instr} (h : syncWaitSlot t w = some i) : i.wf = true := by
  have hctr := bits_lt w 26 14
  have hac := bits_lt w 17 14
  have hcond := bits_lt w 28 27
  have hval := svalOk_syncVal w
  unfold syncWaitSlot at h
  split at h
  case h_3 => cases h
  all_goals
    cases h
    simp only [Instr.wf, ctrNo, ht, hval, Bool.and_eq_true, decide_eq_true_eq, true_and, and_true]
    omega

theorem syncSlot_wf (w : Nat) : AllWf (syncSlot t w) := by
  have hctr := bits_lt w 26 14
  have hac := bits_lt w 17 14
  have hval := svalOk_syncVal w
  unfold syncSlot
  split
  case h_4 => exact .nil
  all_goals
    refine .single ?_
    simp only [Instr.wf, ctrNo, ht, hval, Bool.and_eq_true, decide_eq_true_eq, true_and, and_true]
    omega

theorem bundleSlots_wf (w : Nat) : AllWf (bundleSlots t w) :=
  (((((cubeSlot_wf ht _).append (vecSlot_wf ht (by decide) _)).append (vecSlot_wf ht (by decide) _)).append
    (scalarSlot_wf ht _)).append (moveSlot_wf ht _)).append (syncSlot_wf ht _)

/-! ### The rows of a cycle are well-formed -/

theorem due_wf (x : Tile) : AllWf (x.due t) := by
  unfold Tile.due
  refine .append (.append ?results ?settles) ?drain
  case results =>
    split
    · exact .single (by simpa only [Instr.wf] using ht)
    · exact .nil
  case settles =>
    intro i hi
    obtain ⟨g, hg, rfl⟩ := List.mem_map.mp hi
    have hg4 : g < 4 := List.mem_range.mp (List.mem_filter.mp hg).1
    simp only [Instr.wf, ht, hg4, decide_true, Bool.and_self]
  case drain =>
    split
    · split
      · exact .single (by simpa only [Instr.wf] using ht)
      · exact .nil
    · exact .nil

theorem tileRows_wf (b : Block) : AllWf (b.tileRows t).1 := by
  have hdue := due_wf ht (b.tile t)
  have hdrain : AllWf [.drainComplete t] := .single (by simpa only [Instr.wf] using ht)
  unfold Block.tileRows
  dsimp only
  split
  · split
    · exact hdrain
    · exact .nil
  · split
    · exact .nil
    · split
      · exact hdue
      · split
        · exact hdue.append (.single (by simpa only [Instr.wf] using ht))
        · split
          · exact hdue
          · split
            · exact hdue.append (cubeAgain_wf ht _)
            · split
              · rename_i i hwait
                exact hdue.append (.single (syncWaitSlot_wf ht hwait))
              · split
                · exact hdue
                · exact hdue.append (bundleSlots_wf ht _)

end

theorem tileNo_of_mem_range {t : Nat} (h : t ∈ List.range 144) : tileNo t = true := decide_eq_true (List.mem_range.mp h)

theorem waitsMet_wf (b : Block) : ∀ r ∈ b.waitsMet, AllWf r.2 := by
  intro r hr
  obtain ⟨t, ht, hrow⟩ := List.mem_filterMap.mp hr
  dsimp only at hrow
  split at hrow
  · split at hrow
    · cases hrow
    · cases hrow
      exact bundleSlots_wf (tileNo_of_mem_range ht) _
  · cases hrow

theorem cycleRows_wf (b : Block) : AllWf (((List.range 144).map (fun t => (t, b.tileRows t))).flatMap (fun r => r.2.1)) := by
  rw [List.flatMap_map]
  exact .flatMap fun t ht => tileRows_wf (tileNo_of_mem_range ht) b

theorem clock_wf (b : Block) : AllWf b.clock.2 := by
  unfold Block.clock
  split
  · exact .nil
  · split
    · generalize Block.retries _ = b1
      exact cycleRows_wf b1
    · exact .flatMap (waitsMet_wf b)

/-- Settles O4: a command that runs leaves the rest of the queue alone, and a cycle brings the slots of bundles, each decoded
from fields as wide as its operands' ranges. -/
theorem waitingCommandsStayWellFormed : Obligations.WaitingCommandsStayWellFormed := by
  intro s t hs hstep
  cases hq : s.pending with
  | nil =>
    rw [step_of_nil hq] at hstep
    cases hstep
    exact clock_wf s.blk
  | cons c rest =>
    rw [step_of_cons hq] at hstep
    obtain ⟨u, hu, hkeep⟩ := execAnswersAndKeepsQueue c { s with pending := rest }
    cases hu.symm.trans hstep
    intro i hi
    rw [hkeep] at hi
    exact hs i (hq ▸ List.mem_cons_of_mem c hi)

/-- The queue of the state after reset is empty, so its commands are well-formed. -/
theorem reset_pendingWf : State.reset.pendingWf := AllWf.nil

/-- Settles O5: each value stands in `State.reset`. -/
theorem resetState : Obligations.ResetState := by
  refine ⟨reset_pendingWf, rfl, rfl, rfl, rfl, rfl, rfl, rfl, rfl, rfl, rfl, rfl, rfl, rfl, fun n => ?_, rfl, rfl, fun n => ?_, rfl,
    rfl, rfl⟩
  · rfl
  · rfl

end Sys2Proof.Machine
end

section
/-!
PROOFS. The byte store below code words and codec (R252, R257): what a key of a sparse table reads after a range is cleared, after
a run is written, and after a write of a value that is no default.
-/

namespace Sys2Proof.Machine

section
variable {α : Type}

/-- A range that is cleared reads the default. -/
theorem Sparse.get_clear_in (d : α) {lo hi k : Nat} (hlo : lo ≤ k) (hhi : k < hi) : ∀ m : Sparse α, (Sparse.clear lo hi m).get d k = d
  | [] => rfl
  | (j, w) :: m => by
    have ih := Sparse.get_clear_in d hlo hhi m
    unfold Sparse.clear at ih ⊢
    rw [List.filter_cons]
    split
    · rename_i hj
      have hne : j ≠ k := by
        rintro rfl
        simp only [Bool.or_eq_true, decide_eq_true_eq] at hj
        omega
      rw [Sparse.get, if_neg hne, ih]
    · exact ih

/-- Clearing a range leaves every other key alone. -/
theorem Sparse.get_clear_out (d : α) {lo hi k : Nat} (h : k < lo ∨ hi ≤ k) : ∀ m : Sparse α, (Sparse.clear lo hi m).get d k = m.get d k
  | [] => rfl
  | (j, w) :: m => by
    have ih := Sparse.get_clear_out d h m
    unfold Sparse.clear at ih ⊢
    rw [List.filter_cons]
    split
    · rw [Sparse.get, Sparse.get, ih]
    · rename_i hj
      have hne : j ≠ k := by
        rintro rfl
        simp only [Bool.or_eq_true, decide_eq_true_eq] at hj
        exact hj h
      rw [ih, Sparse.get, if_neg hne]

/-- A value that is no default reads back from its key, whatever the form of the table. -/
theorem Sparse.get_set_of_ne [DecidableEq α] (d : α) {v : α} (hv : v ≠ d) (k : Nat) : ∀ m : Sparse α, (Sparse.set d k v m).get d k = v
  | [] => by simp [Sparse.set, hv, Sparse.get]
  | (j, w) :: m => by
    unfold Sparse.set
    rw [if_neg hv, if_neg hv]
    split
    · simp [Sparse.get]
    · split
      · simp [Sparse.get]
      · rename_i hne
        rw [Sparse.get, if_neg (Ne.symm hne), Sparse.get_set_of_ne d hv k m]

end

theorem dropPage_bytes (page : Nat) (b : Block) :
    (b.dropPage page).mem.bytes = b.mem.bytes.clear (page * 0x10000) ((page + 1) * 0x10000) := rfl

/-- Settles O6: a write of memory is a run of writes of the byte store, and a dropped page a range cleared. -/
theorem memoryReadsWhatWasWritten : Obligations.MemoryReadsWhatWasWritten := by
  intro b hwf
  refine ⟨fun da bs => ?write, fun page a => ?drop⟩
  case write =>
    rw [memWrite_bytes]
    exact ⟨fun i h => Sparse.get_setL_in 0 hwf h, fun a ha => Sparse.get_setL_out 0 ha, Sparse.setL_wf hwf⟩
  case drop =>
    rw [dropPage_bytes]
    exact ⟨fun h => Sparse.get_clear_in 0 (by omega) (by omega) _, fun h => Sparse.get_clear_out 0 (by omega) _, Sparse.clear_wf hwf⟩

/-! ### Rings -/

theorem ring_setRing_of_wf {b : Block} {n : Nat} {r : Ring} (h : b.mer.rings.wf Ring.zero = true) : (b.setRing n r).ring n = r :=
  Sparse.get_set_eq Ring.zero r h

/-- An entry unlike a ring at reset reads back. -/
theorem ring_setRing_of_ne {b : Block} {n : Nat} {r : Ring} (h : r ≠ Ring.zero) : (b.setRing n r).ring n = r :=
  Sparse.get_set_of_ne Ring.zero h n _

theorem ne_ring_zero_of_stopped {r : Ring} (h : r.stopped = true) : r ≠ Ring.zero := by
  rintro rfl
  exact absurd h (by decide)

@[simp] theorem sendVector_mer (v : Nat) (b : Block) : (b.sendVector v).mer = b.mer := by
  unfold Block.sendVector Block.emit
  dsimp only
  split
  · rfl
  · split
    · rfl
    · split <;> rfl

theorem sendVector_ring (v n : Nat) (b : Block) : (b.sendVector v).ring n = b.ring n := by
  rw [Block.ring, sendVector_mer, Block.ring]

/-- A record moves CPL_TAIL and PHASE of its ring, and nothing else of it. -/
theorem writeRecord_ring {b : Block} {n : Nat} (record : Bool → Nat) (h : (b.ring n).stopped = true) :
    (b.writeRecord n record).ring n = { b.ring n with
      cplTail := ((b.ring n).cplTail + 1) % (b.ring n).cplSize,
      phase := if ((b.ring n).cplTail + 1) % (b.ring n).cplSize = 0 then !(b.ring n).phase else (b.ring n).phase } :=
  ring_setRing_of_ne (ne_ring_zero_of_stopped h)

/-- The first ring-level error of a ring stops it, and leaves SUB_HEAD and SEQ_NEXT (R39, R54). -/
theorem ringError_ring {b : Block} {n : Nat} (status : Nat) (h : (b.ring n).stopped = false) :
    ((b.ringError n status).ring n).stopped = true ∧ ((b.ringError n status).ring n).err = true ∧
      ((b.ringError n status).ring n).errCode = status ∧ ((b.ringError n status).ring n).subHead = (b.ring n).subHead ∧
      ((b.ringError n status).ring n).seqNext = (b.ring n).seqNext := by
  have hset : (b.setRing n { b.ring n with stopped := true, err := true, errCode := status }).ring n =
      { b.ring n with stopped := true, err := true, errCode := status } :=
    ring_setRing_of_ne (ne_ring_zero_of_stopped rfl)
  unfold Block.ringError
  simp only [h, Bool.false_eq_true, if_false]
  rw [sendVector_ring, writeRecord_ring _ (by rw [hset]), hset]
  exact ⟨rfl, rfl, rfl, rfl, rfl⟩

theorem canRead_not_stopped {b : Block} {n k : Nat} (h : b.canRead n k = true) : (b.ring n).stopped = false := by
  simp only [Block.canRead, Bool.and_eq_true, Bool.not_eq_true'] at h
  obtain ⟨⟨⟨⟨_, hstopped⟩, _⟩, _⟩, _⟩ := h
  exact hstopped

/-- A packet of a ring that passes step 1 goes through the other steps, and its ring's pointers pass it. -/
theorem take_of_slots {b : Block} {n : Nat} {p : Packet} (hsrc : p.src = .ring n) (hread : b.canRead n p.slots = true)
    (hslots : ¬ (p.slots = 0 ∨ 64 < p.slots ∨ (b.ring n).waiting < p.slots)) :
    b.take p = (b.validate n p).ringPast n p (b.ring n) := by
  simp only [Block.take, hsrc, hread, if_true, Block.readRing, if_neg hslots]

theorem take_of_bad_slots {b : Block} {n : Nat} {p : Packet} (hsrc : p.src = .ring n) (hread : b.canRead n p.slots = true)
    (hslots : p.slots = 0 ∨ 64 < p.slots ∨ (b.ring n).waiting < p.slots) : b.take p = b.ringError n Status.badLength := by
  simp only [Block.take, hsrc, hread, if_true, Block.readRing, if_pos hslots]

/-- Settles O7. -/
theorem ringHeadAdvances : Obligations.RingHeadAdvances := by
  intro b n p hsrc hread
  refine ⟨fun hlo hhi hwait hwf => ?pass, fun hbad => ?fail⟩
  case pass =>
    rw [take_of_slots hsrc hread (by omega), Block.ringPast, ring_setRing_of_wf hwf]
    exact ⟨rfl, rfl⟩
  case fail =>
    rw [take_of_bad_slots hsrc hread hbad]
    exact ringError_ring _ (canRead_not_stopped hread)

end Sys2Proof.Machine
end

section
/-!
PROOFS. Bit fields laid out side by side, and the completion record (R45 to R47).
-/

namespace Sys2Proof.Machine

/-! ### Fields of a number -/

theorem bits_or (x y hi lo : Nat) : bits (x ||| y) hi lo = bits x hi lo ||| bits y hi lo := by
  simp only [bits, Nat.shiftRight_or_distrib, Nat.or_mod_two_pow]

@[simp] theorem bits_zero (hi lo : Nat) : bits 0 hi lo = 0 := by simp [bits]

/-- A field of the place asked for is what was laid there. -/
theorem bits_shiftLeft_same {v hi lo w : Nat} (h : v < 2 ^ w) (hw : w = hi + 1 - lo) : bits (v <<< lo) hi lo = v := by
  subst hw
  simp [bits, Nat.mod_eq_of_lt h]

/-- A field below the place asked for does not reach it. -/
theorem bits_shiftLeft_below {v k hi lo w : Nat} (h : v < 2 ^ w) (hw : k + w ≤ lo) : bits (v <<< k) hi lo = 0 := by
  have hlt : v <<< k < 2 ^ lo := by
    rw [Nat.shiftLeft_eq]
    calc v * 2 ^ k < 2 ^ w * 2 ^ k := Nat.mul_lt_mul_of_pos_right h (Nat.two_pow_pos k)
      _ = 2 ^ (k + w) := by rw [← pow_add, Nat.add_comm]
      _ ≤ 2 ^ lo := Nat.pow_le_pow_right (by decide) hw
  rw [bits, Nat.shiftRight_eq_div_pow, Nat.div_eq_of_lt hlt, Nat.zero_mod]

/-- A field above the place asked for leaves it 0. -/
theorem bits_shiftLeft_above {v k hi lo : Nat} (h : hi < k) : bits (v <<< k) hi lo = 0 := by
  refine Nat.eq_of_testBit_eq fun i => ?_
  simp only [bits, Nat.testBit_mod_two_pow, Nat.testBit_shiftRight, Nat.testBit_shiftLeft, Nat.zero_testBit, Bool.and_eq_false_iff,
    decide_eq_false_iff_not]
  omega

theorem b2n_lt (x : Bool) : b2n x < 2 ^ 1 := by cases x <;> decide

/-! ### The record -/

/-- The fields of R45's record. -/
theorem recordNat_bits {status ringNo tag seq : Nat} (detail result sc : Nat) (phase : Bool) (hst : status < 2 ^ 16)
    (hn : ringNo < 2 ^ 6) (htag : tag < 2 ^ 32) (hseq : seq < 2 ^ 32) :
    let w := recordNat status ringNo 0 false tag seq detail result sc phase
    bits w 15 0 = status ∧ bits w 16 16 = b2n phase ∧ bits w 22 17 = ringNo ∧ bits w 23 23 = 0 ∧ bits w 31 24 = 0 ∧
      bits w 63 32 = tag ∧ bits w 95 64 = seq ∧ bits w 127 96 = detail % 2 ^ 32 ∧ bits w 191 128 = result % 2 ^ 64 ∧
      bits w 255 192 = sc % 2 ^ 64 := by
  have hph := b2n_lt phase
  have hd : detail % 2 ^ 32 < 2 ^ 32 := Nat.mod_lt _ (by decide)
  have hr : result % 2 ^ 64 < 2 ^ 64 := Nat.mod_lt _ (by decide)
  have hs : sc % 2 ^ 64 < 2 ^ 64 := Nat.mod_lt _ (by decide)
  have hfalse : b2n false = 0 := rfl
  simp only [recordNat, fields, List.foldl_cons, List.foldl_nil, hfalse, Nat.zero_shiftLeft, Nat.zero_or, Nat.or_zero, bits_or]
  refine ⟨?_, ?_, ?_, ?_, ?_, ?_, ?_, ?_, ?_, ?_⟩
  all_goals
    simp (disch := omega) only [bits_shiftLeft_above, bits_shiftLeft_below hst, bits_shiftLeft_below hph, bits_shiftLeft_below hn,
      bits_shiftLeft_below htag, bits_shiftLeft_below hseq, bits_shiftLeft_below hd, bits_shiftLeft_below hr, bits_shiftLeft_same hst,
      bits_shiftLeft_same hph, bits_shiftLeft_same hn, bits_shiftLeft_same htag, bits_shiftLeft_same hseq, bits_shiftLeft_same hd,
      bits_shiftLeft_same hr, bits_shiftLeft_same hs, Nat.zero_or, Nat.or_zero]

theorem bits_mod_two_pow {v w hi lo : Nat} (h : hi < w) : bits (v % 2 ^ w) hi lo = bits v hi lo := by
  refine Nat.eq_of_testBit_eq fun i => ?_
  simp only [bits, Nat.testBit_mod_two_pow, Nat.testBit_shiftRight]
  by_cases hi' : i < hi + 1 - lo
  · have hlt : lo + i < w := by omega
    simp only [hi', hlt, decide_true, Bool.true_and]
  · simp only [hi', decide_false, Bool.false_and]

/-- A status below 2^12 is of class OK (R12). -/
theorem statusClass_of_lt {st : Nat} (h : st < 2 ^ 12) : statusClass st = 0 := by
  rw [statusClass, bits, Nat.shiftRight_eq_div_pow, Nat.div_eq_of_lt h, Nat.zero_mod]

/-- Where the statuses acquired are none of class WARN, none is logged (R505). -/
theorem logUnshown_single {c : Cmd} {shown st : Nat} (h : statusClass st ≠ 1) (b : Block) : b.logUnshown c shown [st] = b := by
  have hdup : [st].eraseDups = [st] := rfl
  rw [Block.logUnshown, hdup, List.foldl_cons, List.foldl_nil]
  simp [h]

theorem signal_of_none {c : Cmd} (h : c.pkt.sigEn = false) (st : Nat) (b : Block) : b.signal c st = b := by
  simp [Block.signal, h]

/-- A ring packet with no status acquired, no signal and no interrupt asked: an OK completion writes its record, and does
nothing else. -/
theorem complete_ring_ok {b : Block} {c : Cmd} {n status : Nat} (detail result : Nat) (hsrc : c.pkt.src = .ring n) (hacq : c.acq = [])
    (hst : status < 2 ^ 12) (hsig : c.pkt.sigEn = false) (hirq : c.pkt.irq = false) :
    b.complete c status detail result =
      Block.cmdRecord c status detail result { b with mer.running := b.mer.running.filter (fun x => x.id ≠ c.id) } := by
  have hmark : status % loggedMark = status := Nat.mod_eq_of_lt (Nat.lt_trans hst (by decide))
  have hclass := statusClass_of_lt hst
  have hnowarn : statusClass status ≠ 1 := by omega
  simp only [Block.complete, hacq, List.nil_append, List.map_cons, List.map_nil, hmark, showStatus, List.foldl_nil,
    logUnshown_single hnowarn, signal_of_none hsig, hsrc, hirq, hclass, ne_eq, not_true_eq_false, decide_false, Bool.or_self,
    Bool.false_eq_true, if_false]

/-- A ring whose records stand in host memory: the record leaves, and CPL_TAIL and PHASE go on. -/
theorem writeRecord_host {b : Block} {n : Nat} (record : Bool → Nat) (h : (b.ring n).latched.loc = false) :
    b.writeRecord n record =
      (b.emit (.hostWrite ((b.ring n).latched.cbase + 32 * (b.ring n).cplTail) (leBytes 32 (record (b.ring n).phase)))).setRing n
        { b.ring n with
          cplTail := ((b.ring n).cplTail + 1) % (b.ring n).cplSize,
          phase := if ((b.ring n).cplTail + 1) % (b.ring n).cplSize = 0 then !(b.ring n).phase else (b.ring n).phase } := by
  simp only [Block.writeRecord, h, Bool.false_eq_true, if_false]

/-- Settles O8: the record of R45 goes to the entry at CPL_TAIL. -/
theorem completionRecord : Obligations.CompletionRecord := by
  intro b c n status detail result hsrc hn hacq hseal hst hsig hirq hloc
  have htag : c.pkt.tag < 2 ^ 32 := Nat.mod_lt _ (by decide)
  have hseq : c.pkt.seq < 2 ^ 32 := Nat.mod_lt _ (by decide)
  refine ⟨recordNat status n 0 false c.pkt.tag c.pkt.seq detail result b.now (b.ring n).phase, fun b1 hb1 => ?record, ?bits⟩
  case record =>
    subst hb1
    rw [complete_ring_ok detail result hsrc hacq hst hsig hirq]
    simp only [Block.cmdRecord, hseal, hsrc]
    exact writeRecord_host _ hloc
  case bits =>
    have hfields := recordNat_bits detail result b.now (b.ring n).phase (Nat.lt_trans hst (by decide)) hn htag hseq
    have hsc : b.now % 2 ^ 64 = b.now := Nat.mod_eq_of_lt b.sid.sc.isLt
    simpa only [hsc] using hfields

end Sys2Proof.Machine
end

section
/-!
PROOFS. Rows as block functions: the outcome of a row from what its function gives on the block, and TLPs to an awake module (R472).
-/

namespace Sys2Proof.Machine

/-- A row whose block function gives b leaves the state with b. -/
theorem run_put {s : State} {f : Block → Block} {b : Block} (h : f s.blk = b) : s.run f = .next (s.put b) := by
  rw [State.run, State.on, h, State.put]

/-- A row whose block function changes nothing. -/
theorem run_self {s : State} {f : Block → Block} (h : f s.blk = s.blk) : s.run f = .next s := run_put h

theorem hubUp_of_linked {b : Block} (h : b.linked = true) : b.hubUp = true := (Bool.and_eq_true _ _ ▸ h).1

theorem dark_of_hubUp {b : Block} (h : b.hubUp = true) : b.boot.dark = false := by
  simp only [Block.hubUp, Bool.and_eq_true, Bool.not_eq_true'] at h
  exact h.1.1

theorem sleep_of_isAwake {b : Block} (h : b.isAwake = true) : b.pow.sleep = .awake := of_decide_eq_true h

theorem wakeBy_of_awake {b : Block} (hdark : b.boot.dark = false) (h : b.isAwake = true) (src unit index : Nat) :
    b.wakeBy src unit index = b := by
  simp only [Block.wakeBy, hdark, Bool.false_eq_true, if_false, sleep_of_isAwake h]

/-- A TLP reaches an awake module's function as it stands. -/
theorem onTlp_of_awake {b : Block} (hlink : b.linked = true) (hawake : b.isAwake = true) (f : Block → Block) : b.onTlp f = f b := by
  rw [Block.onTlp, if_pos hlink, wakeBy_of_awake (dark_of_hubUp (hubUp_of_linked hlink)) hawake]

theorem run_onTlp {s : State} {f : Block → Block} {b : Block} (hlink : s.blk.linked = true) (hawake : s.blk.isAwake = true)
    (h : f s.blk = b) : s.run (Block.onTlp f) = .next (s.put b) :=
  run_put ((onTlp_of_awake hlink hawake f).trans h)

end Sys2Proof.Machine
end

section
/-!
PROOFS. Sidereal time (R68 to R76, R506): the count and its steps, the ticks, the marks by state, and that SC never runs backward.
-/

namespace Sys2Proof.Machine

/-! ### The count -/

theorem would_of_stopped {x : Sid} (h : x.counts = false ∨ 0 < x.holdFor) : x.would = x.sc.toNat := by
  unfold Sid.would
  refine if_neg ?_
  simp only [Bool.and_eq_true, decide_eq_true_eq]
  rintro ⟨hcounts, hhold⟩
  rcases h with h | h
  · simp [h] at hcounts
  · omega

theorem would_of_counts {x : Sid} (hc : x.counts = true) (hh : x.holdFor = 0) : x.would = (x.sc.toNat + 1) % 2 ^ 64 := by
  unfold Sid.would
  rw [if_pos (by simp [hc, hh])]
  rfl

theorem counts_eq_false {x : Sid} (h : x.state = .unset ∨ (x.state = .acquire ∧ x.checking = false)) : x.counts = false := by
  unfold Sid.counts
  rcases h with h | ⟨h, hc⟩
  · rw [h]
  · rw [h]; exact hc

theorem counts_eq_true {x : Sid} (h : x.state = .locked ∨ x.state = .holdover ∨ x.state = .lost ∨ (x.state = .acquire ∧ x.checking = true)) :
    x.counts = true := by
  unfold Sid.counts
  rcases h with h | h | h | ⟨h, hc⟩
  · rw [h]
  · rw [h]
  · rw [h]
  · rw [h]; exact hc

theorem succ_mod_ne_self (n : Nat) : (n + 1) % 2 ^ 64 ≠ n := by omega

theorem setSc_self (x : Sid) : x.setSc x.sc.toNat = x := by
  rw [Sid.setSc, BitVec.ofNat_toNat, BitVec.setWidth_eq]

theorem stepSc_of_eq {b : Block} {v : Nat} (h : v = b.sid.sc.toNat) : b.stepSc v = b := if_pos h

theorem stepSc_of_ne {b : Block} {v : Nat} (h : v ≠ b.sid.sc.toNat) :
    b.stepSc v = { b.markLate b.sid.sc.toNat v with sid := b.sid.setSc v } := if_neg h

/-- A step of SC changes nothing else of the time base. -/
theorem stepSc_sid (v : Nat) (b : Block) : (b.stepSc v).sid = b.sid.setSc v := by
  by_cases h : v = b.sid.sc.toNat
  · rw [stepSc_of_eq h, h, setSc_self]
  · rw [stepSc_of_ne h]

theorem setSc_toNat {v : Nat} (h : v < 2 ^ 64) (x : Sid) : (x.setSc v).sc.toNat = v := by
  rw [Sid.setSc, BitVec.toNat_ofNat, Nat.mod_eq_of_lt h]

/-! ### Ticks -/

/-- The time base after an edge, SC apart. -/
def Sid.ticked (x : Sid) (valid : Bool) : Sid :=
  { x with
    missing := if valid then 0 else Nat.min (x.missing + 1) 8,
    validRun := if valid then Nat.min (x.validRun + 1) 64 else 0,
    sinceMark := Nat.min (x.sinceMark + 1) 32,
    holdFor := x.holdFor - 1,
    holdTicks := if x.state = .holdover then Nat.min (x.holdTicks + 1) (2 ^ 26 - 1) else x.holdTicks }

theorem sidTick_stopped {b : Block} (h : b.sid.counts = false ∨ 0 < b.sid.holdFor) (valid : Bool) :
    b.sidTick valid = { b with sid := b.sid.ticked valid } := by
  have hw := would_of_stopped h
  have hstep : ({ b with sid := b.sid.ticked valid } : Block).stepSc b.sid.would = { b with sid := b.sid.ticked valid } :=
    stepSc_of_eq hw
  refine (if_neg ?_).trans hstep
  simp [hw]

/-- The block after an edge on which SC steps from its value to v. -/
def Block.tickTo (valid : Bool) (v : Nat) (b : Block) : Block :=
  { Block.markLate b.sid.sc.toNat v { b with sid := b.sid.ticked valid } with sid := (b.sid.ticked valid).setSc v }

theorem sidTick_counts {b : Block} (hc : b.sid.counts = true) (hh : b.sid.holdFor = 0) (valid : Bool) {v : Nat}
    (hv : v = (b.sid.sc.toNat + 1) % 2 ^ 64) :
    b.sidTick valid = if v % 2 ^ 24 = 0 then (b.tickTo valid v).newEpoch else b.tickTo valid v := by
  have hw : b.sid.would = v := (would_of_counts hc hh).trans hv.symm
  have hne : v ≠ b.sid.sc.toNat := hv ▸ succ_mod_ne_self _
  have hstep : ({ b with sid := b.sid.ticked valid } : Block).stepSc v = b.tickTo valid v := stepSc_of_ne hne
  have he : epochTicks = 2 ^ 24 := rfl
  rw [← hstep]
  unfold Block.sidTick
  simp only [hw, he, ne_eq, hne, not_false_eq_true, decide_true, Bool.true_and, decide_eq_true_eq]
  rfl

/-! ### Loss and return of the clock -/

theorem clkAbsent_go {b : Block} (hv : b.sid.clkValid = true) (hm : 8 ≤ b.sid.missing) :
    (!b.sid.clkValid || decide (b.sid.missing < 8)) = false := by
  simp only [hv, Bool.not_true, Bool.false_or, decide_eq_false_iff_not]
  omega

theorem clkAbsent_acquire {b : Block} (hv : b.sid.clkValid = true) (hm : 8 ≤ b.sid.missing) (h : b.sid.state = .acquire) :
    b.clkAbsent = { b with sid := { b.sid with clkValid := false, state := .unset, checking := false } } := by
  simp only [Block.clkAbsent, clkAbsent_go hv hm, Bool.false_eq_true, if_false, h]

theorem clkAbsent_locked {b : Block} (hv : b.sid.clkValid = true) (hm : 8 ≤ b.sid.missing) (h : b.sid.state = .locked) :
    b.clkAbsent = Block.logError Status.holdover 10 0 0 0 { b with
      sid := { b.sid with clkValid := false, state := .holdover, holdTicks := 0 }, pow.sidClk := false } := by
  simp only [Block.clkAbsent, clkAbsent_go hv hm, Bool.false_eq_true, if_false, h]

theorem clkAbsent_other {b : Block} (hv : b.sid.clkValid = true) (hm : 8 ≤ b.sid.missing)
    (h : b.sid.state = .holdover ∨ b.sid.state = .lost ∨ b.sid.state = .unset) :
    b.clkAbsent = { b with sid.clkValid := false } := by
  rcases h with h | h | h
  all_goals simp only [Block.clkAbsent, clkAbsent_go hv hm, Bool.false_eq_true, if_false, h]

/-! ### Marks -/

/-- A mark that comes too soon after another, or stays high too long, in a state that counts marks (R70). -/
theorem sidMark_spurious {b : Block} {long : Bool} (h : b.sid.state = .locked ∨ b.sid.state = .holdover ∨ b.sid.state = .acquire)
    (hbad : long = true ∨ b.sid.sinceMark < 32) :
    b.sidMark long = { b with sid := { b.sid with sinceMark := 0, spurious := Nat.min (b.sid.spurious + 1) 0xFFFF } } := by
  have hspur : (long || decide (b.sid.sinceMark < 32)) = true := by simpa using hbad
  rcases h with h | h | h
  all_goals
    simp only [Block.sidMark, h, hspur, if_true]
    rfl

theorem sidMark_unset_or_lost {b : Block} (h : b.sid.state = .unset ∨ b.sid.state = .lost) (long : Bool) :
    b.sidMark long = { b with sid.sinceMark := 0 } := by
  rcases h with h | h
  all_goals simp only [Block.sidMark, h]

theorem mark_counted {x : Sid} (h : 32 ≤ x.sinceMark) : (false || decide (x.sinceMark < 32)) = false := by
  simp only [Bool.false_or, decide_eq_false_iff_not]
  omega

theorem sidMark_first {b : Block} (h : b.sid.state = .acquire) (hc : b.sid.checking = false) (hs : 32 ≤ b.sid.sinceMark)
    (hv : b.sid.clkValid = true) : b.sidMark false = Block.firstMark { b with sid.sinceMark := 0 } := by
  simp only [Block.sidMark, h, mark_counted hs, hc, hv, Bool.false_eq_true, if_false, Bool.not_false, if_true]

/-- A block on which a time code is due after a mark (R360). -/
def Block.withTimeDue (b : Block) : Block := { b with sid.timeDue := b.timeDue }

/-- How early, or late, the count meets a mark, within k ticks. -/
def markEarly (k low : Nat) : Nat := if epochTicks - k ≤ low then epochTicks - low else 0
def markLateBy (k low : Nat) : Nat := if low ≤ k then low else 0

theorem sidMark_check {b : Block} (h : b.sid.state = .acquire) (hc : b.sid.checking = true) (hs : 32 ≤ b.sid.sinceMark)
    {low : Nat} (hlow : b.sid.would % 2 ^ 24 = low) (hnear : low ≤ 1 ∨ 2 ^ 24 - 1 ≤ low) :
    b.sidMark false =
      ((({ b with sid.sinceMark := 0 } : Block).align (markEarly 1 low) (markLateBy 1 low)).checkMark).withTimeDue := by
  have he : epochTicks = 2 ^ 24 := rfl
  have hn : (decide (low ≤ 1) || decide (2 ^ 24 - 1 ≤ low)) = true := by simpa using hnear
  simp only [Block.sidMark, h, mark_counted hs, hc, Bool.false_eq_true, if_false, Bool.not_true, he, hlow, hn, if_true]
  rfl

theorem sidMark_locked_near {b : Block} (h : b.sid.state = .locked) (hs : 32 ≤ b.sid.sinceMark)
    {low : Nat} (hlow : b.sid.would % 2 ^ 24 = low) (hnear : low ≤ 1 ∨ 2 ^ 24 - 1 ≤ low) :
    b.sidMark false =
      (({ b with sid.sinceMark := 0 } : Block).align (markEarly 1 low) (markLateBy 1 low)).withTimeDue := by
  have he : epochTicks = 2 ^ 24 := rfl
  have hn : (decide (low ≤ 1) || decide (2 ^ 24 - 1 ≤ low)) = true := by simpa using hnear
  simp only [Block.sidMark, h, mark_counted hs, Bool.false_eq_true, if_false, he, hlow, hn, if_true]
  rfl

theorem sidMark_locked_far {b : Block} (h : b.sid.state = .locked) (hs : 32 ≤ b.sid.sinceMark)
    {low : Nat} (hlow : b.sid.would % 2 ^ 24 = low) (hfar : 1 < low ∧ low < 2 ^ 24 - 1) :
    b.sidMark false = { b with sid := { b.sid with sinceMark := 0, spurious := Nat.min (b.sid.spurious + 1) 0xFFFF } } := by
  have he : epochTicks = 2 ^ 24 := rfl
  have hn : (decide (low ≤ 1) || decide (2 ^ 24 - 1 ≤ low)) = false := by
    simp only [Bool.or_eq_false_iff, decide_eq_false_iff_not]
    omega
  simp only [Block.sidMark, h, mark_counted hs, Bool.false_eq_true, if_false, he, hlow, hn]
  rfl

theorem sidMark_holdover_near {b : Block} (h : b.sid.state = .holdover) (hs : 32 ≤ b.sid.sinceMark) (hv : b.sid.clkValid = true)
    {low : Nat} (hlow : b.sid.would % 2 ^ 24 = low) (hnear : low ≤ 64 ∨ 2 ^ 24 - 64 ≤ low) :
    b.sidMark false =
      ((({ b with sid.sinceMark := 0 } : Block).align (markEarly 64 low) (markLateBy 64 low)).lock).withTimeDue := by
  have he : epochTicks = 2 ^ 24 := rfl
  have hn : (decide (low ≤ 64) || decide (2 ^ 24 - 64 ≤ low)) = true := by simpa using hnear
  simp only [Block.sidMark, h, mark_counted hs, Bool.false_eq_true, if_false, he, hlow, hn, hv, Bool.and_self, if_true]
  rfl

/-! ### Alignment -/

theorem align_zero (b : Block) : b.align 0 0 = b := if_pos ⟨rfl, rfl⟩

theorem align_late (b : Block) {k : Nat} (h : 0 < k) : b.align 0 k = { b with sid := { b.sid.slip with holdFor := k } } := by
  rw [Block.align, if_neg (by omega)]
  rfl

theorem align_early (b : Block) {k : Nat} (h : 0 < k) :
    b.align k 0 = ({ b with sid := b.sid.slip } : Block).stepSc (b.sid.sc.toNat + k) := by
  rw [Block.align, if_neg (by omega)]
  exact if_pos h

/-! ### SC never runs backward (R68) -/

/-- SC as a number, of a time base. -/
def Sid.count (x : Sid) : Nat := x.sc.toNat

theorem stepSc_count {v : Nat} (h : v < 2 ^ 64) (b : Block) : (b.stepSc v).sid.count = v := by
  rw [Sid.count, stepSc_sid, setSc_toNat h]

theorem would_bounds {x : Sid} (h : x.count < 2 ^ 63) : x.count ≤ x.would ∧ x.would ≤ x.count + 1 := by
  unfold Sid.count at h
  unfold Sid.would Sid.would.u64 Sid.count
  split <;> omega

theorem newEpoch_sid (b : Block) : b.newEpoch.sid = b.sid := rfl

theorem sidTick_count_le {b : Block} (h : b.sid.count < 2 ^ 63) (valid : Bool) : b.sid.count ≤ (b.sidTick valid).sid.count := by
  obtain ⟨hle, hlt⟩ := would_bounds h
  have hstep := stepSc_count (v := b.sid.would) (by omega) { b with sid := b.sid.ticked valid }
  have hsid : (b.sidTick valid).sid = (({ b with sid := b.sid.ticked valid } : Block).stepSc b.sid.would).sid := by
    unfold Block.sidTick
    dsimp only
    split
    · exact newEpoch_sid _
    · rfl
  rw [hsid, hstep]
  exact hle

theorem timeLost_count (b : Block) : b.timeLost.sid.count = b.sid.count := by
  unfold Block.timeLost
  dsimp only
  split
  · rw [(logError_apart _ _ _ _ _ _).sid]
    rfl
  · rw [(latchCause_steady _ _ _).sid]
    rfl

theorem clkAbsent_count (b : Block) : b.clkAbsent.sid.count = b.sid.count := by
  unfold Block.clkAbsent
  dsimp only
  split
  · rfl
  · split
    · rfl
    · rw [(logError_apart _ _ _ _ _ _).sid]
      rfl
    · rfl

theorem clkValid_count (b : Block) : b.clkValid.sid.count = b.sid.count := by
  unfold Block.clkValid
  split <;> rfl

theorem holdoverLimit_count (b : Block) : b.holdoverLimit.sid.count = b.sid.count := by
  unfold Block.holdoverLimit
  split
  · exact timeLost_count b
  · rfl

theorem le_ceilDiv_mul (n : Nat) {k : Nat} (h : 0 < k) : n ≤ ceilDiv n k * k := by
  have hdiv := Nat.div_add_mod (n + k - 1) k
  have hmod := Nat.mod_lt (n + k - 1) h
  rw [ceilDiv, Nat.mul_comm]
  omega

theorem ceilDiv_mul_lt (n : Nat) {k : Nat} (h : 0 < k) : ceilDiv n k * k < n + k := by
  have hle := Nat.div_mul_le_self (n + k - 1) k
  rw [ceilDiv]
  omega

theorem epoch_max_lt {n load up : Nat} (hn : n < 2 ^ 63) (hload : load < 2 ^ 38) (hup : up < n + 2 ^ 24) :
    max (load * 2 ^ 24) up < 2 ^ 64 := max_lt (by omega) (by omega)

/-- The first mark takes SC to an epoch at or above its value. -/
theorem firstMark_count_le {b : Block} (h : b.sid.count < 2 ^ 63) (hl : b.sid.loadEpoch < 2 ^ 38) :
    b.sid.count ≤ b.firstMark.sid.count := by
  have hup := le_ceilDiv_mul b.sid.count (k := epochTicks) (by decide)
  have hmax := epoch_max_lt h hl (ceilDiv_mul_lt b.sid.count (k := epochTicks) (by decide))
  have hsid : b.firstMark.sid.count =
      (b.sid.setSc (max (b.sid.loadEpoch * 2 ^ 24) (ceilDiv b.sid.count epochTicks * epochTicks))).sc.toNat := rfl
  rw [hsid, setSc_toNat hmax]
  exact Nat.le_trans hup (le_max_right _ _)

/-- The epoch a majority names is that of some sender's code. -/
theorem majority_mem {x : Sid} {e : Nat} (h : x.majority = some e) : ∃ m c, (m, some c) ∈ x.codes ∧ c.epoch = e := by
  obtain ⟨⟨m, oc⟩, hmem, hoc⟩ := List.mem_filterMap.mp (List.mem_of_find?_eq_some h)
  obtain ⟨c, hc, he⟩ := Option.map_eq_some_iff.mp hoc
  exact ⟨m, c, hc ▸ hmem, he⟩

theorem lock_count (b : Block) : ({ b.lock with sid.codes := [] } : Block).sid.count = b.sid.count := rfl

theorem checkMark_count_le {b : Block} (h : b.sid.count < 2 ^ 63)
    (hcodes : ∀ m c, (m, some c) ∈ b.sid.codes → c.epoch < 2 ^ 38) : b.sid.count ≤ b.checkMark.sid.count := by
  obtain ⟨hle, hlt⟩ := would_bounds h
  unfold Block.checkMark
  dsimp only
  split
  · exact Nat.le_refl _
  · rename_i e hmaj
    obtain ⟨m, c, hmem, he⟩ := majority_mem hmaj
    have hepoch := he ▸ hcodes m c hmem
    split
    · exact Nat.le_refl _
    · split
      · rename_i hup
        have hup : b.sid.would / 2 ^ 24 ≤ e := hup
        have hstep := stepSc_count (v := e * 2 ^ 24 + b.sid.would % 2 ^ 24 - (b.sid.would - b.sid.count)) (by omega) b
        have hticks : epochTicks = 2 ^ 24 := rfl
        have hcount : b.sid.sc.toNat = b.sid.count := rfl
        rw [hticks, hcount]
        rw [lock_count, hstep]
        omega
      · exact (timeLost_count b).ge

/-- Alignment holds SC or steps it forward, and leaves the codes and the armed epoch. -/
theorem align_sid {b : Block} (h : b.sid.count < 2 ^ 63) {early late : Nat} (he : early ≤ 64) :
    b.sid.count ≤ (b.align early late).sid.count ∧ (b.align early late).sid.count ≤ b.sid.count + 64 ∧
      (b.align early late).sid.codes = b.sid.codes := by
  unfold Block.align
  split
  · exact ⟨Nat.le_refl _, Nat.le_add_right _ _, rfl⟩
  · dsimp only
    split
    · have hstep := stepSc_count (v := b.sid.slip.sc.toNat + early) (by
        have hslip : b.sid.slip.sc.toNat = b.sid.count := rfl
        omega) { b with sid := b.sid.slip }
      rw [hstep, stepSc_sid]
      exact ⟨Nat.le_add_right _ _, Nat.add_le_add_left he _, rfl⟩
    · exact ⟨Nat.le_refl _, Nat.le_add_right _ _, rfl⟩

theorem early_le {k low : Nat} : (if epochTicks - k ≤ low then epochTicks - low else 0) ≤ k := by
  split <;> omega

theorem sidMark_count_le {b : Block} (h : b.sid.count < 2 ^ 62) (hl : b.sid.loadEpoch < 2 ^ 38)
    (hcodes : ∀ m c, (m, some c) ∈ b.sid.codes → c.epoch < 2 ^ 38) (long : Bool) : b.sid.count ≤ (b.sidMark long).sid.count := by
  have halign (k : Nat) (hk : k ≤ 64) (late : Nat) := align_sid (b := { b with sid.sinceMark := 0 }) (h := by exact Nat.lt_trans h (by decide))
    (late := late) (Nat.le_trans (early_le (k := k) (low := b.sid.would % epochTicks)) hk)
  unfold Block.sidMark
  dsimp only
  split
  case h_1 => exact Nat.le_refl _
  case h_2 => exact Nat.le_refl _
  case h_3 =>
    split
    · exact Nat.le_refl _
    · split
      · split
        · exact firstMark_count_le (b := { b with sid.sinceMark := 0 }) (Nat.lt_trans h (by decide)) hl
        · exact Nat.le_refl _
      · split
        · obtain ⟨hle, hlt, hc⟩ := halign 1 (by decide) (if b.sid.would % epochTicks ≤ 1 then b.sid.would % epochTicks else 0)
          refine Nat.le_trans hle (checkMark_count_le ?_ (by rwa [hc]))
          exact Nat.lt_of_le_of_lt hlt (Nat.add_lt_add_right h 64 |>.trans (by decide))
        · exact firstMark_count_le (b := { b with sid := { b.sid with sinceMark := 0 }.spur }) (Nat.lt_trans h (by decide)) hl
  case h_4 =>
    split
    · exact Nat.le_refl _
    · split
      · exact (halign 1 (by decide) _).1
      · exact Nat.le_refl _
  case h_5 =>
    split
    · exact Nat.le_refl _
    · split
      · exact (halign 64 (by decide) _).1
      · exact Nat.le_refl _

/-- Settles O12. -/
theorem siderealNeverRunsBack : Obligations.SiderealNeverRunsBack := by
  intro s t i hsc hload hcodes hi hexec
  have hbig : s.blk.sid.count < 2 ^ 63 := Nat.lt_trans hsc (by decide)
  rcases hi with rfl | rfl | rfl | rfl | rfl | rfl | rfl
  all_goals cases hexec
  · exact sidTick_count_le hbig true
  · exact sidTick_count_le hbig false
  · exact sidMark_count_le hsc hload hcodes true
  · exact sidMark_count_le hsc hload hcodes false
  · exact (clkAbsent_count s.blk).ge
  · exact (clkValid_count s.blk).ge
  · exact (holdoverLimit_count s.blk).ge

/-! ### The rows (R70 to R73) -/

theorem clkValid_of_run {b : Block} (h : 64 ≤ b.sid.validRun) : b.clkValid = { b with sid.clkValid := true } :=
  if_neg (by omega)

theorem holdoverLimit_of_ticks {b : Block} (h : b.sid.state = .holdover) (ht : 2 ^ 25 ≤ b.sid.holdTicks) :
    b.holdoverLimit = b.timeLost :=
  if_pos (by simp only [h, decide_true, Bool.true_and, decide_eq_true_eq]; exact ht)

theorem sidLoad_store {b : Block} (hjob : b.trust.job = 0) {v : Nat}
    (h : bit v 0 = false ∨ (b.sid.state ≠ .unset ∧ b.sid.state ≠ .lost)) :
    b.sidLoad v = { b with sid.loadEpoch := bits v 63 24 } := by
  rw [Block.sidLoad, if_neg (by simp [hjob])]
  refine if_neg ?_
  rcases h with h | ⟨hu, hl⟩
  · simp [h]
  · simp [hu, hl]

theorem sidLoad_arm {b : Block} (hjob : b.trust.job = 0) {v : Nat} (hv : bit v 0 = true)
    (h : b.sid.state = .unset ∨ b.sid.state = .lost) :
    b.sidLoad v = { b with sid := { b.sid with
      loadEpoch := bits v 63 24, state := .acquire, checking := false, holdFor := 0, codes := [] } } := by
  rw [Block.sidLoad, if_neg (by simp [hjob])]
  refine (if_pos ?_).trans rfl
  rcases h with h | h <;> simp [hv, h]

/-- Settles O46: ticks, marks and the registers, each by its lemma. -/
theorem siderealTime : Obligations.SiderealTime := by
  refine ⟨fun s => ⟨fun valid x1 hx1 => ⟨fun hstop => ?stopped, fun hrun hhold v b hv hb => ?counts⟩, fun hv hm => ?absent, fun hrun => ?valid,
    fun long h => ?unset, fun h hc hs hv => ?first, fun h hc hs hlow => ?check, fun h hs => ?locked, fun long h hbad => ?spurious,
    fun h hs hv hlow => ?holdover, fun h ht => ?limit⟩, fun s hlink hawake hready => ?registers⟩
  case stopped =>
    subst hx1
    exact run_put (sidTick_stopped (hstop.elim (fun h => .inl (counts_eq_false (.inl h)))
      (·.elim (fun h => .inl (counts_eq_false (.inr h))) .inr)) valid)
  case counts =>
    subst hx1 hb
    exact run_put (sidTick_counts (counts_eq_true hrun) hhold valid hv)
  case absent =>
    exact ⟨fun h => run_put (clkAbsent_acquire hv hm h), fun h => run_put (clkAbsent_locked hv hm h),
      fun h => run_put (clkAbsent_other hv hm h)⟩
  case valid => exact run_put (clkValid_of_run hrun)
  case unset => exact run_put (sidMark_unset_or_lost h long)
  case first => exact run_put (sidMark_first h hc hs hv)
  case check =>
    refine run_put ((sidMark_check h hc hs hlow (.inl (by decide))).trans ?_)
    rfl
  case locked =>
    intro due slipped
    refine ⟨fun hlow => run_put ?_, fun hlow => run_put ?_, fun hlow => run_put ?_, fun hlo hhi => run_put ?_⟩
    · exact (sidMark_locked_near h hs hlow (.inl (by decide))).trans rfl
    · exact (sidMark_locked_near h hs hlow (.inl (by decide))).trans rfl
    · refine (sidMark_locked_near h hs hlow (.inr (by decide))).trans ?_
      exact congrArg Block.withTimeDue (align_early _ (k := 1) (by decide))
    · exact sidMark_locked_far h hs rfl ⟨hlo, hhi⟩
  case spurious => exact run_put (sidMark_spurious h hbad)
  case holdover => exact run_put ((sidMark_holdover_near h hs hv hlow (.inl (by decide))).trans rfl)
  case limit => exact run_put (holdoverLimit_of_ticks h ht)
  case registers =>
    refine ⟨fun v => ⟨fun hjob => ?_, fun b hjob hb => ⟨fun h => ?_, fun hv h => ?_⟩⟩, ?_, ?_, ?_⟩
    · exact run_onTlp hlink hawake ((if_pos hready).trans (sidLoad_eq_self_of_job hjob v))
    · exact hb ▸ run_onTlp hlink hawake ((if_pos hready).trans (sidLoad_store hjob h))
    · exact hb ▸ run_onTlp hlink hawake ((if_pos hready).trans (sidLoad_arm hjob hv h))
    · exact run_onTlp hlink hawake (if_pos hready)
    · exact run_onTlp hlink hawake (if_pos hready)
    · exact run_onTlp hlink hawake (if_pos hready)

end Sys2Proof.Machine
end

section
/-!
PROOFS. The engine that takes a dispatched command, by opcode (R49), and a packet's row once its engine's block is known.
-/

namespace Sys2Proof.Machine

section
variable {c : Cmd} (b : Block)

theorem engineStart_nop (h : c.pkt.opcode = 0x0000) : b.engineStart c = b.startNop c := by rw [Block.engineStart, h]; rfl
theorem engineStart_status (h : c.pkt.opcode = 0x0001) : b.engineStart c = b.startStatus c := by rw [Block.engineStart, h]; rfl
theorem engineStart_almanacRead (h : c.pkt.opcode = 0x0002) : b.engineStart c = b.startAlmanacRead c := by
  rw [Block.engineStart, h]; rfl
theorem engineStart_logRead (h : c.pkt.opcode = 0x0003) : b.engineStart c = b.startLogRead c := by rw [Block.engineStart, h]; rfl
theorem engineStart_open (h : c.pkt.opcode = 0x0004) : b.engineStart c = b.startOpen c := by rw [Block.engineStart, h]; rfl
theorem engineStart_jobReset (h : c.pkt.opcode = 0x0005) : b.engineStart c = b.startJobReset c := by
  rw [Block.engineStart, h]; rfl
theorem engineStart_fenceAll (h : c.pkt.opcode = 0x0006) : b.engineStart c = b.startFenceAll c := by
  rw [Block.engineStart, h]; rfl
theorem engineStart_jobBind (h : c.pkt.opcode = 0x0007) : b.engineStart c = b.startJobBind c := by rw [Block.engineStart, h]; rfl
theorem engineStart_syncSet (h : c.pkt.opcode = 0x0100) : b.engineStart c = b.startSyncOp true c := by
  rw [Block.engineStart, h]; rfl
theorem engineStart_syncAdd (h : c.pkt.opcode = 0x0101) : b.engineStart c = b.startSyncOp false c := by
  rw [Block.engineStart, h]; rfl
theorem engineStart_syncWait (h : c.pkt.opcode = 0x0102) : b.engineStart c = b.startSyncWait c := by
  rw [Block.engineStart, h]; rfl
theorem engineStart_syncRead (h : c.pkt.opcode = 0x0103) : b.engineStart c = b.startSyncRead c := by
  rw [Block.engineStart, h]; rfl
theorem engineStart_progLoad (h : c.pkt.opcode = 0x0200) : b.engineStart c = b.startProgLoad c := by
  rw [Block.engineStart, h]; rfl
theorem engineStart_run (h : c.pkt.opcode = 0x0201) : b.engineStart c = b.startRun c := by rw [Block.engineStart, h]; rfl
theorem engineStart_preempt (h : c.pkt.opcode = 0x0202) : b.engineStart c = b.startPreempt c := by rw [Block.engineStart, h]; rfl
theorem engineStart_conv (h : c.pkt.opcode = 0x0300 ∨ c.pkt.opcode = 0x0301) : b.engineStart c = b.startConv c := by
  rcases h with h | h <;> (rw [Block.engineStart, h]; rfl)
theorem engineStart_attn (h : c.pkt.opcode = 0x0400 ∨ c.pkt.opcode = 0x0401) : b.engineStart c = b.startAttn c := by
  rcases h with h | h <;> (rw [Block.engineStart, h]; rfl)
theorem engineStart_kv (h : c.pkt.opcode = 0x0402 ∨ c.pkt.opcode = 0x0403 ∨ c.pkt.opcode = 0x0404) :
    b.engineStart c = b.startKv c := by
  rcases h with h | h | h <;> (rw [Block.engineStart, h]; rfl)
theorem engineStart_kvRegenSet (h : c.pkt.opcode = 0x0405) : b.engineStart c = b.startKvRegenSet c := by
  rw [Block.engineStart, h]; rfl
theorem engineStart_codecTable (h : c.pkt.opcode = 0x0500) : b.engineStart c = b.startCodecTable c := by
  rw [Block.engineStart, h]; rfl
theorem engineStart_codecMap (h : c.pkt.opcode = 0x0501) : b.engineStart c = b.startCodecMap c := by
  rw [Block.engineStart, h]; rfl
theorem engineStart_codecFlush (h : c.pkt.opcode = 0x0502) : b.engineStart c = b.startCodecFlush c := by
  rw [Block.engineStart, h]; rfl
theorem engineStart_tier (h : c.pkt.opcode = 0x0600 ∨ c.pkt.opcode = 0x0601 ∨ c.pkt.opcode = 0x0602) :
    b.engineStart c = b.startTier c := by
  rcases h with h | h | h <;> (rw [Block.engineStart, h]; rfl)
theorem engineStart_fwWrite (h : c.pkt.opcode = 0x0700) : b.engineStart c = b.startFwWrite c := by rw [Block.engineStart, h]; rfl
theorem engineStart_scale (h : c.pkt.opcode = 0x0701) : b.engineStart c = b.startScale c := by rw [Block.engineStart, h]; rfl
theorem engineStart_update (h : c.pkt.opcode = 0x0800) : b.engineStart c = b.startUpdate c := by rw [Block.engineStart, h]; rfl
theorem engineStart_descCmd (h : c.pkt.opcode = 0x0801 ∨ c.pkt.opcode = 0x0802) : b.engineStart c = b.startDescCmd c := by
  rcases h with h | h <;> (rw [Block.engineStart, h]; rfl)
theorem engineStart_coll (h : c.pkt.opcode ∈ [0x0900, 0x0901, 0x0902, 0x0903, 0x0904, 0x0907]) :
    b.engineStart c = b.startColl c := by
  simp only [List.mem_cons, List.not_mem_nil, or_false] at h
  rcases h with h | h | h | h | h | h <;> (rw [Block.engineStart, h]; rfl)
theorem engineStart_p2p (h : c.pkt.opcode = 0x0905 ∨ c.pkt.opcode = 0x0906) : b.engineStart c = b.p2pStart c := by
  rcases h with h | h <;> (rw [Block.engineStart, h]; rfl)
theorem engineStart_treeSet (h : c.pkt.opcode = 0x0908) : b.engineStart c = b.startTreeSet c := by rw [Block.engineStart, h]; rfl
theorem engineStart_exportSet (h : c.pkt.opcode = 0x0909) : b.engineStart c = b.startExportSet c := by
  rw [Block.engineStart, h]; rfl
theorem engineStart_ephWrite (h : c.pkt.opcode = 0x0A00) : b.engineStart c = b.startEphWrite c := by
  rw [Block.engineStart, h]; rfl
theorem engineStart_ephCancel (h : c.pkt.opcode = 0x0A01) : b.engineStart c = b.startEphCancel c := by
  rw [Block.engineStart, h]; rfl
theorem engineStart_snapCfg (h : c.pkt.opcode = 0x0B00) : b.engineStart c = b.startSnapCfg c := by rw [Block.engineStart, h]; rfl
theorem engineStart_snapDrain (h : c.pkt.opcode = 0x0B01) : b.engineStart c = b.startSnapDrain c := by
  rw [Block.engineStart, h]; rfl
theorem engineStart_recovery (h : c.pkt.opcode = 0x0B02 ∨ c.pkt.opcode = 0x0B05) : b.engineStart c = b.startRecovery c := by
  rcases h with h | h <;> (rw [Block.engineStart, h]; rfl)
theorem engineStart_ledgerRead (h : c.pkt.opcode = 0x0B03) : b.engineStart c = b.startLedgerRead c := by
  rw [Block.engineStart, h]; rfl
theorem engineStart_paritySet (h : c.pkt.opcode = 0x0B04) : b.engineStart c = b.startParitySet c := by
  rw [Block.engineStart, h]; rfl
theorem engineStart_sessionOpen (h : c.pkt.opcode = 0x0C00) : b.engineStart c = b.startSessionOpen c := by
  rw [Block.engineStart, h]; rfl
theorem engineStart_sessionClose (h : c.pkt.opcode = 0x0C01) : b.engineStart c = b.startSessionClose c := by
  rw [Block.engineStart, h]; rfl
theorem engineStart_attest (h : c.pkt.opcode = 0x0C02) : b.engineStart c = b.startAttest c := by rw [Block.engineStart, h]; rfl
theorem engineStart_keyRotate (h : c.pkt.opcode = 0x0C03) : b.engineStart c = b.startKeyRotate c := by
  rw [Block.engineStart, h]; rfl
theorem engineStart_debugUnlock (h : c.pkt.opcode = 0x0C04) : b.engineStart c = b.startDebugUnlock c := by
  rw [Block.engineStart, h]; rfl
theorem engineStart_plSet (h : c.pkt.opcode = 0x0D00) : b.engineStart c = b.startPlSet c := by rw [Block.engineStart, h]; rfl
theorem engineStart_sleep (h : c.pkt.opcode = 0x0D01) : b.engineStart c = b.startSleep c := by rw [Block.engineStart, h]; rfl
theorem engineStart_csuCfg (h : c.pkt.opcode = 0x0E00) : b.engineStart c = b.startCsuCfg c := by rw [Block.engineStart, h]; rfl
theorem engineStart_csuRead (h : c.pkt.opcode = 0x0E01) : b.engineStart c = b.startCsuRead c := by rw [Block.engineStart, h]; rfl
theorem engineStart_csuWrite (h : c.pkt.opcode = 0x0E02) : b.engineStart c = b.startCsuWrite c := by
  rw [Block.engineStart, h]; rfl
theorem engineStart_memFill (h : c.pkt.opcode = 0x0F00) : b.engineStart c = b.startMemFill c := by rw [Block.engineStart, h]; rfl
theorem engineStart_scrubCfg (h : c.pkt.opcode = 0x0F01) : b.engineStart c = b.startScrubCfg c := by
  rw [Block.engineStart, h]; rfl
theorem engineStart_domainSet (h : c.pkt.opcode = 0x0F02) : b.engineStart c = b.startDomainSet c := by
  rw [Block.engineStart, h]; rfl

end

/-- The row of a packet that has an entry, outside class FABRIC: its engine's block, the ring's pointers past the packet. -/
theorem packet_next {s : State} {op : Nat} {act : Packet → Bool} {p : Packet} {c : Cmd} {b1 b2 : Block}
    (h : s.blk.packetEntry p = some (c, b1)) (ho : p.opcode = op) (ha : act c.pkt = true) (h9 : op / 256 ≠ 9)
    (hb : b1.engineStart c = b2) : s.run (Block.packet op act p) = .next (s.after p b2) := by
  rw [engine_run h ho ha h9, hb]

end Sys2Proof.Machine
end

section
/-!
PROOFS. The commands of classes CTRL and SYNC (R35, R50, R51, R62 to R65, R450).
-/

namespace Sys2Proof.Machine

variable {b : Block} {c : Cmd}

theorem startAlmanacRead_of_buffer (h : almanacBar (c.pkt.f 127 76) = none) :
    b.startAlmanacRead c = b.respond c (c.pkt.f 127 76) b.almanac 0 b.alm.generation := by
  simp only [Block.startAlmanacRead, h]

theorem startLogRead_of_entries {e : LogEntry} {es : List LogEntry} {skipped : Nat} {bs : List Byte}
    (halign : c.pkt.f 127 76 % 64 = 0) (hlo : 1 ≤ c.pkt.f 43 30) (hhi : c.pkt.f 43 30 ≤ 8192)
    (hes : b.log.from_ (c.pkt.f 75 44) (c.pkt.f 43 30) = (e :: es, skipped))
    (hbs : bs = ((e :: es).map (fun e => (if b.trust.sealedReq && c.sealedOk.isNone then e.masked else e).bytes)).flatten)
    (hrsp : rspStatus (c.pkt.f 127 76) bs.length = none) :
    b.startLogRead c =
      b.respond c (c.pkt.f 127 76) bs skipped (fields [(32, (e :: es).length), (0, e.seq)]) := by
  have hparam : ¬ (c.pkt.f 127 76 % 64 ≠ 0 ∨ c.pkt.f 43 30 = 0 ∨ 8192 < c.pkt.f 43 30) := by omega
  subst hbs
  simp only [Block.startLogRead, if_neg hparam, hes, hrsp, List.isEmpty_cons, Bool.false_eq_true, if_false]

theorem startOpen_outside (h : b.shut.shut = false) : b.startOpen c = b.done c 0 := by
  simp only [Block.startOpen, h, Bool.not_false, if_true]

/-- OPEN with no cause active leaves Shutter (R35). -/
theorem startOpen_in_shutter (h : b.shut.shut = true) (hcause : b.shut.active = 0) :
    b.startOpen c = (({ b with shut.shut := false, pins.fault := false } : Block).logState Status.ok 0).done c 0 := by
  have hbit : bit 0 2 = false := Nat.zero_testBit 2
  simp only [Block.startOpen, h, hcause, hbit, Bool.not_true, Bool.false_eq_true, if_false, ne_eq, not_true_eq_false]

/-- Settles O13: each command's row is its engine's start. -/
theorem ctrlCommandsComplete : Obligations.CtrlCommandsComplete := by
  intro s p c b1 hentry
  have hop : ∀ {n}, p.opcode = n → c.pkt.opcode = n := fun h => (packetEntry_opcode hentry).trans h
  refine ⟨fun ho => ?nop, fun ho => ?status, fun ho hbuf => ?almanac, fun ho ha hlo hhi e es k hes bs hbs hrsp => ?log,
    fun ho hs => ?opened, fun ho hs hc => ?leaves, fun ho => ?reset, fun ho => ?fence⟩
  case nop => exact packet_next hentry ho rfl (by decide) (engineStart_nop b1 (hop ho))
  case status => exact packet_next hentry ho rfl (by decide) (engineStart_status b1 (hop ho))
  case almanac =>
    exact packet_next hentry ho rfl (by decide) ((engineStart_almanacRead b1 (hop ho)).trans (startAlmanacRead_of_buffer hbuf))
  case log =>
    exact packet_next hentry ho rfl (by decide)
      ((engineStart_logRead b1 (hop ho)).trans (startLogRead_of_entries ha hlo hhi hes hbs hrsp))
  case opened => exact packet_next hentry ho rfl (by decide) ((engineStart_open b1 (hop ho)).trans (startOpen_outside hs))
  case leaves => exact packet_next hentry ho rfl (by decide) ((engineStart_open b1 (hop ho)).trans (startOpen_in_shutter hs hc))
  case reset => exact packet_next hentry ho rfl (by decide) (engineStart_jobReset b1 (hop ho))
  case fence => exact packet_next hentry ho rfl (by decide) (engineStart_fenceAll b1 (hop ho))

theorem startSyncWait_holds (hcond : c.pkt.f 82 80 < 4)
    (h : condHolds (c.pkt.f 82 80) (b.syncVal (c.pkt.f 95 83)) (c.pkt.f 127 96) = true) :
    b.startSyncWait c = b.done c (b.syncVal (c.pkt.f 95 83)) := by
  simp only [Block.startSyncWait, if_neg (Nat.not_le.mpr hcond), h, if_true]

theorem startSyncWait_waits (hcond : c.pkt.f 82 80 < 4)
    (h : condHolds (c.pkt.f 82 80) (b.syncVal (c.pkt.f 95 83)) (c.pkt.f 127 96) = false) :
    b.startSyncWait c = b.setWork c.id (.syncWait (c.pkt.f 95 83) (c.pkt.f 82 80) (c.pkt.f 127 96)) := by
  simp only [Block.startSyncWait, if_neg (Nat.not_le.mpr hcond), h, Bool.false_eq_true, if_false]

/-- Settles O15. -/
theorem syncCommandsComplete : Obligations.SyncCommandsComplete := by
  intro s p c b1 hentry
  have hop : ∀ {n}, p.opcode = n → c.pkt.opcode = n := fun h => (packetEntry_opcode hentry).trans h
  refine ⟨fun ho => ?set, fun ho => ?add, fun ho hcond h => ?holds, fun ho hcond h => ?waits, fun ho => ?read⟩
  case set => exact packet_next hentry ho rfl (by decide) (engineStart_syncSet b1 (hop ho))
  case add => exact packet_next hentry ho rfl (by decide) (engineStart_syncAdd b1 (hop ho))
  case holds =>
    exact packet_next hentry ho rfl (by decide) ((engineStart_syncWait b1 (hop ho)).trans (startSyncWait_holds hcond h))
  case waits =>
    exact packet_next hentry ho rfl (by decide) ((engineStart_syncWait b1 (hop ho)).trans (startSyncWait_waits hcond h))
  case read => exact packet_next hentry ho rfl (by decide) (engineStart_syncRead b1 (hop ho))

end Sys2Proof.Machine
end

section
/-!
PROOFS. JOB_BIND and JOB_RESET (R414, R420): what the clearing of a job leaves, and what the command's completion keeps of it.
-/

namespace Sys2Proof.Machine

/-! ### What a record, a vector or a log entry writes -/

/-- Only Merlen's lists, the log, the MSI-X table, the pins, the outputs and bytes of memory differ. -/
def Block.Noted (b b' : Block) : Prop :=
  ∃ m l h p o y, b' = { b with mer := m, log := l, host := h, pins := p, out := o, mem.bytes := y }

theorem Block.Noted.refl (b : Block) : b.Noted b := ⟨_, _, _, _, _, _, rfl⟩

theorem Block.Noted.trans {a b c : Block} (h : a.Noted b) (k : b.Noted c) : a.Noted c := by
  obtain ⟨_, _, _, _, _, _, rfl⟩ := h
  obtain ⟨_, _, _, _, _, _, rfl⟩ := k
  exact ⟨_, _, _, _, _, _, rfl⟩

theorem Block.Noted.foldl {α : Type} {f : Block → α → Block} (hf : ∀ (b : Block) x, b.Noted (f b x)) :
    ∀ (l : List α) (b : Block), b.Noted (l.foldl f b)
  | [], b => .refl b
  | x :: l, b => (hf b x).trans (Block.Noted.foldl hf l (f b x))

theorem sendVector_noted (v : Nat) (b : Block) : b.Noted (b.sendVector v) := by
  unfold Block.sendVector Block.emit
  dsimp only
  split
  · exact .refl b
  · split
    · exact ⟨_, _, _, _, _, _, rfl⟩
    · split <;> exact ⟨_, _, _, _, _, _, rfl⟩

theorem Block.Noted.setLog {a b : Block} (h : a.Noted b) (l : Log) : a.Noted { b with log := l } := h.trans ⟨_, _, _, _, _, _, rfl⟩
theorem Block.Noted.setAlert {a b : Block} (h : a.Noted b) (v : Bool) : a.Noted { b with pins.alert := v } :=
  h.trans ⟨_, _, _, _, _, _, rfl⟩
theorem Block.Noted.setMer {a b : Block} (h : a.Noted b) (m : Merlen) : a.Noted { b with mer := m } := h.trans ⟨_, _, _, _, _, _, rfl⟩

theorem logEntry_noted (e : LogEntry) (b : Block) : b.Noted (b.logEntry e) := by
  unfold Block.logEntry Block.refreshAlert
  dsimp only
  apply Block.Noted.setAlert
  refine Block.Noted.trans ?_ (sendVector_noted _ _)
  exact (Block.Noted.refl b).setLog _

theorem logCmd_noted (c : Cmd) (st u i d n : Nat) (b : Block) : b.Noted (b.logCmd c st u i d n) := logEntry_noted _ b

theorem rawWrite_noted (da : Nat) (bs : List Byte) (b : Block) : b.Noted (b.rawWrite da bs) :=
  ⟨b.mer, b.log, b.host, b.pins, b.out, b.mem.bytes.setL 0 da bs, rfl⟩
theorem emit_noted (o : Output) (b : Block) : b.Noted (b.emit o) := ⟨b.mer, b.log, b.host, b.pins, o :: b.out, b.mem.bytes, rfl⟩
theorem setRing_noted (n : Nat) (r : Ring) (b : Block) : b.Noted (b.setRing n r) := (Block.Noted.refl b).setMer _

theorem writeRecord_noted (n : Nat) (record : Bool → Nat) (b : Block) : b.Noted (b.writeRecord n record) := by
  unfold Block.writeRecord
  by_cases h : (b.ring n).latched.loc = true
  · simp only [h, if_true]
    exact (rawWrite_noted _ _ b).trans (setRing_noted _ _ _)
  · simp only [h, Bool.false_eq_true, if_false]
    exact (emit_noted _ b).trans (setRing_noted _ _ _)

theorem cmdRecord_noted (c : Cmd) (st d r : Nat) (b : Block) : b.Noted (b.cmdRecord c st d r) := by
  unfold Block.cmdRecord
  dsimp only
  split <;> exact writeRecord_noted _ _ b

theorem signal_noted (c : Cmd) (st : Nat) (b : Block) : b.Noted (b.signal c st) := by
  unfold Block.signal
  split
  · exact ⟨_, _, _, _, _, _, rfl⟩
  · exact .refl b

theorem logUnshown_noted (c : Cmd) (shown : Nat) (acq : List Nat) (b : Block) : b.Noted (b.logUnshown c shown acq) := by
  refine .foldl (fun b st => ?_) _ b
  split
  · exact logCmd_noted _ _ _ _ _ _ b
  · exact .refl b

theorem flushTileFailed_noted (b : Block) : b.Noted b.flushTileFailed := by
  refine .foldl (fun b cs => ?_) _ b
  split
  · exact (((Block.Noted.refl b).setMer _).trans (cmdRecord_noted _ _ _ _ _)).trans (sendVector_noted _ _)
  · exact .refl b

theorem complete_noted (c : Cmd) (st d r : Nat) (b : Block) : b.Noted (b.complete c st d r) := by
  have hpre (m : Merlen) (sh : Nat) (l : List Nat) :=
    (((Block.Noted.refl b).setMer m).trans (logUnshown_noted c sh l _)).trans (signal_noted c sh _)
  unfold Block.complete
  dsimp only
  split
  · split
    · exact ((hpre _ _ _).trans (cmdRecord_noted _ _ _ _ _)).trans (sendVector_noted _ _)
    · exact (hpre _ _ _).trans (cmdRecord_noted _ _ _ _ _)
  · split
    · exact hpre _ _ _
    · exact (((hpre _ _ _).trans (logCmd_noted _ _ _ _ _ _ _)).setMer _).trans (flushTileFailed_noted _)

theorem completeId_noted (id st d r : Nat) (b : Block) : b.Noted (b.completeId id st d r) := by
  unfold Block.completeId
  split
  · exact complete_noted _ _ _ _ b
  · exact .refl b

/-! ### What is cleared -/

/-- What a job's end or a new job's start leaves of the one before (R414, R420). -/
structure Block.JobCleared (b : Block) : Prop where
  train : b.train = Train.zero
  pool : b.pool = none
  sync : b.mer.sync = []
  trees : b.fab.trees = []
  exports : b.fab.exports = []
  csu : b.csu = []
  ctr : b.tier.ctr = 1
  wheel : b.fw = { slots := [], changes := 0 }

theorem clearWheel_apart (b : Block) : ∃ a, ({ b with fw := { slots := [], changes := 0 }, alm := a } : Block).Apart b.clearWheel := by
  unfold Block.clearWheel
  dsimp only
  split
  · exact ⟨_, logEntry_apart _ _⟩
  · exact ⟨_, .refl _⟩

theorem Block.JobCleared.clearWheel {b : Block} (train : b.train = Train.zero) (pool : b.pool = none) (sync : b.mer.sync = [])
    (trees : b.fab.trees = []) (exports : b.fab.exports = []) (csu : b.csu = []) (ctr : b.tier.ctr = 1) :
    b.clearWheel.JobCleared := by
  obtain ⟨_, h⟩ := clearWheel_apart b
  exact ⟨h.train.trans train, h.pool.trans pool, h.sync.trans sync, by rw [h.fab, trees], by rw [h.fab, exports],
    h.csu.trans csu, by rw [h.tier, ctr], h.fw⟩

theorem clearJob_cleared (b : Block) : b.clearJob.JobCleared := .clearWheel rfl rfl rfl rfl rfl rfl rfl

/-! ### What the clearing keeps -/

/-- The start-up state, the power state and SC. -/
structure Block.SameClock (b b' : Block) : Prop where
  boot : b'.boot = b.boot
  pow : b'.pow = b.pow
  sc : b'.sid.sc = b.sid.sc

theorem Block.SameClock.refl (b : Block) : b.SameClock b := ⟨rfl, rfl, rfl⟩
theorem Block.SameClock.trans {a b c : Block} (h : a.SameClock b) (k : b.SameClock c) : a.SameClock c :=
  ⟨k.boot.trans h.boot, k.pow.trans h.pow, k.sc.trans h.sc⟩
theorem Block.SameClock.foldl {α : Type} {f : Block → α → Block} (hf : ∀ (b : Block) x, b.SameClock (f b x)) :
    ∀ (l : List α) (b : Block), b.SameClock (l.foldl f b)
  | [], b => .refl b
  | x :: l, b => (hf b x).trans (Block.SameClock.foldl hf l (f b x))
theorem Block.Apart.sameClock {a b : Block} (h : a.Apart b) : a.SameClock b := ⟨h.boot, h.pow, congrArg Sid.sc h.sid⟩

theorem clearWheel_sameClock (b : Block) : b.SameClock b.clearWheel := by
  obtain ⟨_, h⟩ := clearWheel_apart b
  exact ⟨h.boot, h.pow, congrArg Sid.sc h.sid⟩

theorem clearJob_sameClock (b : Block) : b.SameClock b.clearJob :=
  ⟨(clearWheel_sameClock _).boot, (clearWheel_sameClock _).pow, (clearWheel_sameClock _).sc⟩

theorem wakeWaiters_apart (ctr : Nat) (b : Block) : b.Apart (b.wakeWaiters ctr) := by
  refine apart_foldl _ (fun b c => ?_) _ b
  split
  · split
    · exact completeId_apart _ _ _ _ b
    · exact .refl b
  · exact .refl b

/-- An operation on a counter: the counter and the operations that wait, then completions. -/
theorem syncEffect_apart (ctr : Nat) (b : Block) :
    ∃ m, ({ b with mer := m } : Block).Apart (b.syncEffect ctr) := by
  refine ⟨_, (apart_foldl _ (fun b o => ?_) _ _).trans (wakeWaiters_apart ctr _)⟩
  split
  · exact completeId_apart _ _ _ _ b
  · exact .refl b

theorem flushSync_sameClock (b : Block) : b.SameClock b.flushSync := by
  refine .foldl (fun b k => ?_) _ b
  obtain ⟨_, h⟩ := syncEffect_apart k b
  exact ⟨h.boot, h.pow, congrArg Sid.sc h.sid⟩

/-- New domain keys are drawn, and nothing else changes. -/
theorem drawDomains_eq (b : Block) : ∃ n k, b.drawDomains = { b with mer.draws := n, trust.domainKeys := k } := by
  have hfold : ∀ (l : List Nat) (b : Block), ∃ n k, l.foldl (fun (b : Block) d =>
      let r := b.draw 512
      { r.2 with trust.domainKeys := r.2.trust.domainKeys.set none d (some r.1) }) b =
        { b with mer.draws := n, trust.domainKeys := k } := by
    intro l
    induction l with
    | nil => exact fun b => ⟨_, _, rfl⟩
    | cons d l ih =>
      intro b
      obtain ⟨n, k, h⟩ := ih { (b.draw 512).2 with
        trust.domainKeys := (b.draw 512).2.trust.domainKeys.set none d (some (b.draw 512).1) }
      exact ⟨n, k, h⟩
  exact hfold _ b

/-! ### JOB_BIND -/

/-- The old job cleared and the new domain keys drawn. -/
theorem drawDomains_cleared (b : Block) :
    b.flushSync.clearJob.dropKeys.drawDomains.JobCleared ∧ b.SameClock b.flushSync.clearJob.dropKeys.drawDomains ∧
      b.flushSync.clearJob.dropKeys.drawDomains.trust.sessions = [] := by
  have hc := clearJob_cleared b.flushSync
  have hk := (flushSync_sameClock b).trans (clearJob_sameClock b.flushSync)
  obtain ⟨n, k, hd⟩ := drawDomains_eq b.flushSync.clearJob.dropKeys
  rw [hd]
  exact ⟨⟨hc.train, hc.pool, hc.sync, hc.trees, hc.exports, hc.csu, hc.ctr, hc.wheel⟩, ⟨hk.boot, hk.pow, hk.sc⟩, rfl⟩

/-- What JOB_BIND sets, on a block whose old job is cleared (R414). -/
structure Block.Bound (p : Packet) (b : Block) : Prop where
  job : b.trust.job = p.f 31 0
  sealedReq : b.trust.sealedReq = bit p.pnum 32
  owner : b.trust.ownerDigest = p.f 511 128
  secret : b.trust.secretSet = decide (p.f 895 512 ≠ 0)
  generation : b.trust.generation = (if p.f 895 512 = 0 then 0 else 1)
  sessions : b.trust.sessions = []
  tierKey : b.trust.tierKey.isSome = true
  counts : b.mem.ceCount = 0 ∧ b.mem.ueCount = 0 ∧ b.mem.scrubPasses = 0
  patrol : b.mem.passEpochs = 4096 ∧ b.mem.patrolEn = true

/-- The block with a job bound, its command not yet completed. -/
theorem startJobBind_eq {c : Cmd} {b : Block} (h : b.bindBar c.pkt = none) :
    ∃ b2 : Block, b.startJobBind c = b2.done c 0 ∧ b2.JobCleared ∧ b.SameClock b2 ∧ b2.Bound c.pkt := by
  have hold := drawDomains_cleared b
  simp only [Block.startJobBind, h]
  revert hold
  generalize b.flushSync.clearJob.dropKeys.drawDomains = b3
  rintro ⟨hc, hk, hs⟩
  refine ⟨_, rfl, ?_⟩
  split <;> rename_i hs0
  · exact ⟨⟨hc.train, hc.pool, hc.sync, hc.trees, hc.exports, hc.csu, hc.ctr, hc.wheel⟩, ⟨hk.boot, hk.pow, hk.sc⟩,
      ⟨rfl, rfl, rfl, rfl, (if_pos hs0).symm, hs, rfl, ⟨rfl, rfl, rfl⟩, ⟨rfl, rfl⟩⟩⟩
  · exact ⟨⟨hc.train, hc.pool, hc.sync, hc.trees, hc.exports, hc.csu, hc.ctr, hc.wheel⟩, ⟨hk.boot, hk.pow, hk.sc⟩,
      ⟨rfl, rfl, rfl, rfl, (if_neg hs0).symm, hs, rfl, ⟨rfl, rfl, rfl⟩, ⟨rfl, rfl⟩⟩⟩

/-! ### Completion and the ring's pointers keep it -/

/-- The pointers of a packet's ring are all that passing it moves. -/
theorem past_eq (b0 : Block) (p : Packet) (b : Block) : ∃ r, b0.past p b = { b with mer.rings := r } := by
  unfold Block.past
  split
  · exact ⟨_, rfl⟩
  · exact ⟨b.mer.rings, rfl⟩

theorem done_passes (c : Cmd) (r : Nat) (b : Block) : (b.done c r).mem.passEpochs = b.mem.passEpochs ∧
    (b.done c r).mem.patrolEn = b.mem.patrolEn := by
  obtain ⟨_, _, _, _, _, _, h⟩ := completeId_noted c.id Status.ok 0 r b
  rw [Block.done, h]
  exact ⟨rfl, rfl⟩

theorem Block.JobCleared.done {b : Block} (h : b.JobCleared) (c : Cmd) (r : Nat) : (b.done c r).JobCleared := by
  have hd := done_apart c r b
  exact ⟨hd.train.trans h.train, hd.pool.trans h.pool, hd.sync.trans h.sync, by rw [hd.fab, h.trees], by rw [hd.fab, h.exports],
    hd.csu.trans h.csu, by rw [hd.tier, h.ctr], hd.fw.trans h.wheel⟩

theorem Block.Bound.done {b : Block} {p : Packet} (h : b.Bound p) (c : Cmd) (r : Nat) : (b.done c r).Bound p := by
  have hd := done_apart c r b
  obtain ⟨hce, hue, hsp⟩ := hd.counts
  obtain ⟨hpe, hen⟩ := done_passes c r b
  have ht := hd.trust
  exact ⟨by rw [ht, h.job], by rw [ht, h.sealedReq], by rw [ht, h.owner], by rw [ht, h.secret], by rw [ht, h.generation],
    by rw [ht, h.sessions], by rw [ht, h.tierKey], ⟨hce.trans h.counts.1, hue.trans h.counts.2.1, hsp.trans h.counts.2.2⟩,
    ⟨hpe.trans h.patrol.1, hen.trans h.patrol.2⟩⟩

/-! ### JOB_RESET -/

/-- What the end of a job leaves of its identity and keys (R420). -/
structure Block.Jobless (b : Block) : Prop where
  job : b.trust.job = 0
  sealedReq : b.trust.sealedReq = false
  owner : b.trust.ownerDigest = 0
  secret : b.trust.secretSet = false
  tierKey : b.trust.tierKey = none
  sessions : b.trust.sessions = []

theorem clearJob_trust (b : Block) : b.clearJob.trust = b.trust := (clearWheel_apart _).choose_spec.trust

theorem jobReset_clears (me : Option Nat) (b : Block) : (b.jobReset me).JobCleared ∧ (b.jobReset me).Jobless := by
  unfold Block.jobReset
  dsimp only
  generalize ((b.haltWhere _ _).haltWhere _ _).abortAllHeld _ = b0
  have hc := clearJob_cleared b0.reap.flushSync.dropKeys
  have ht := clearJob_trust b0.reap.flushSync.dropKeys
  unfold Block.tdispError
  split
  · exact ⟨⟨hc.train, hc.pool, hc.sync, hc.trees, hc.exports, hc.csu, hc.ctr, hc.wheel⟩,
      ⟨rfl, rfl, rfl, by simp only [ht]; rfl, by simp only [ht]; rfl, by simp only [ht]; rfl⟩⟩
  · exact ⟨⟨hc.train, hc.pool, hc.sync, hc.trees, hc.exports, hc.csu, hc.ctr, hc.wheel⟩,
      ⟨rfl, rfl, rfl, by simp only [ht]; rfl, by simp only [ht]; rfl, by simp only [ht]; rfl⟩⟩

/-- Holding and dispatching a command touch Merlen's queues only. -/
theorem setHeld_eq (src : Src) (l : List Cmd) (b : Block) : ∃ m : Merlen, b.setHeld src l = { b with mer := m } ∧ m.sync = b.mer.sync := by
  cases src <;> exact ⟨_, rfl, rfl⟩

/-- A packet's block as its engine takes it: the effects that come with the validation, then Merlen's queues. -/
theorem packetEntry_atValidation {b : Block} {p : Packet} {c : Cmd} {b1 : Block} (h : b.packetEntry p = some (c, b1)) :
    ∃ b0 : Block, ∃ m : Merlen, b1 = { b0.atValidation c with mer := m } ∧ m.sync = (b0.atValidation c).mer.sync := by
  unfold Block.packetEntry at h
  split at h
  · cases h
  · rename_i c0 b0 _
    split at h
    · cases h
    · dsimp only at h
      split at h
      · cases h
      · split at h
        · cases h
          obtain ⟨m, hm, hsync⟩ := setHeld_eq c.pkt.src ((b0.atValidation c).heldOf c.pkt.src ++ [c]) (b0.atValidation c)
          rw [hm]
          obtain ⟨n, hn, hsync'⟩ := setHeld_eq c.pkt.src _ { b0.atValidation c with mer := m }
          rw [hn]
          exact ⟨b0, _, rfl, hsync'.trans hsync⟩
        · cases h

theorem Block.JobCleared.setMer {b : Block} (h : b.JobCleared) {m : Merlen} (hm : m.sync = b.mer.sync) :
    ({ b with mer := m } : Block).JobCleared :=
  ⟨h.train, h.pool, hm.trans h.sync, h.trees, h.exports, h.csu, h.ctr, h.wheel⟩

/-- A JOB_RESET that its engine takes has cleared the job already, with the validation. -/
theorem packetEntry_jobReset {b : Block} {p : Packet} {c : Cmd} {b1 : Block} (h : b.packetEntry p = some (c, b1))
    (ho : p.opcode = 0x0005) : b1.JobCleared ∧ b1.Jobless := by
  obtain ⟨b0, m, rfl, hm⟩ := packetEntry_atValidation h
  have hv : b0.atValidation c = b0.jobReset (some c.id) := by
    simp only [Block.atValidation, (packetEntry_opcode h).trans ho, if_true]
  rw [hv] at hm ⊢
  obtain ⟨hc, hj⟩ := jobReset_clears (some c.id) b0
  exact ⟨hc.setMer hm, ⟨hj.job, hj.sealedReq, hj.owner, hj.secret, hj.tierKey, hj.sessions⟩⟩

theorem Block.Jobless.done {b : Block} (h : b.Jobless) (c : Cmd) (r : Nat) : (b.done c r).Jobless := by
  have ht := (done_apart c r b).trust
  exact ⟨by rw [ht, h.job], by rw [ht, h.sealedReq], by rw [ht, h.owner], by rw [ht, h.secret], by rw [ht, h.tierKey],
    by rw [ht, h.sessions]⟩

/-- Settles O14: the new job's fields are written on a block that the clearing of the old one has emptied, and JOB_RESET has cleared
its block at its validation; the completion and the ring's pointers keep either. -/
theorem jobBoundAndReset : Obligations.JobBoundAndReset := by
  unfold Obligations.JobBoundAndReset
  intro s p c b1 hentry
  refine ⟨fun ho hbar => ?bind, fun ho => ?reset⟩
  case bind =>
    obtain ⟨b2, hb2, hclear, hclock, hbound⟩ := startJobBind_eq (c := c) hbar
    refine ⟨_, packet_next hentry ho rfl (by decide)
      ((engineStart_jobBind b1 ((packetEntry_opcode hentry).trans ho)).trans hb2), rfl, ?_⟩
    obtain ⟨_, hpast⟩ := past_eq s.blk p (b2.done c 0)
    have hclock := hclock.trans (done_apart c 0 b2).sameClock
    have hsync := (hclear.done c 0).sync
    obtain ⟨train, pool, -, trees, exports, csu, ctr, wheel⟩ := hclear.done c 0
    obtain ⟨job, sealedReq, owner, secret, generation, sessions, tierKey, ⟨hce, hue, hsp⟩, ⟨hpe, hen⟩⟩ := hbound.done c 0
    rw [State.after, hpast]
    exact ⟨job, sealedReq, owner, secret, generation, sessions, tierKey, train, pool, hsync, trees, exports, csu, ctr, hce, hue, hsp,
      hpe, hen, congrArg Wheel.slots wheel, congrArg Wheel.changes wheel, hclock.boot, hclock.pow, hclock.sc⟩
  case reset =>
    refine ⟨_, packet_next hentry ho rfl (by decide)
      (engineStart_jobReset b1 ((packetEntry_opcode hentry).trans ho)), rfl, ?_⟩
    obtain ⟨_, hpast⟩ := past_eq s.blk p (b1.startJobReset c)
    obtain ⟨hclear, hjobless⟩ := packetEntry_jobReset hentry ho
    obtain ⟨train, pool, sync, trees, -, csu, -, -⟩ := hclear.done c 0
    obtain ⟨job, sealedReq, owner, secret, tierKey, sessions⟩ := hjobless.done c 0
    rw [State.after, hpast]
    exact ⟨job, sealedReq, owner, secret, tierKey, sessions, train, pool, sync, trees, csu⟩

end Sys2Proof.Machine
end

section
/-!
PROOFS. Class PROG and FW_WRITE (R104 to R106, R154 to R156, R161): the command starts of the tile programs.
-/

namespace Sys2Proof.Machine

/-- A read without a flawed word goes on with its bytes. -/
theorem cmdRead_clean {id da n : Nat} {bs : List Byte} {b b' : Block} (h : b.daRead da n = (.ok bs false, b'))
    (k : List Byte → Block → Block) : b.cmdRead id da n k = k bs b' := by
  simp only [Block.cmdRead, h]
  rfl

theorem runRead_clean {id da n : Nat} {bs : List Byte} {b b' : Block} (h : b.daRead da n = (.ok bs false, b'))
    (k : List Byte → Block → Block) : b.runRead id da n k = k bs b' := by
  simp only [Block.runRead, h]
  rfl

theorem cmdWrite_clean {id da : Nat} {bs : List Byte} {b b' : Block} (h : b.daWrite da bs = (b', none)) (k : Block → Block) :
    b.cmdWrite id da bs k = k b' := by
  simp only [Block.cmdWrite, h]

theorem any_eq_false_of_all_not {α : Type} {l : List α} {f : α → Bool} (h : l.all (fun x => !f x) = true) : l.any f = false := by
  simpa using h

theorem work_of_runWork {x : Cmd} {w : RunWork} (h : x.runWork = some w) : x.work = .run w := by
  unfold Cmd.runWork at h
  split at h
  · rename_i w' hw
    rw [hw, Option.some.inj h]
  · cases h

/-- A bind of one of 256 census numbers is there, or is not. -/
theorem isNone_eq_false {α : Type} {o : Option α} (h : o.isSome = true) : o.isNone = false := by
  rw [Option.isNone_eq_false_iff, h]

variable {c : Cmd} {b : Block}

/-- RUN whose operands, checks, formats, tiles and census bind are right waits for its tiles. -/
theorem startRun_of_right (hts : runTiles c.pkt ≠ []) (hh : runHandle c.pkt < 8) (hsave : runSave c.pkt % 0x10000 = 0)
    (harea : runSave c.pkt ≠ 0 → hbmStatus (runSave c.pkt) (0xC40000 * (runTiles c.pkt).length) = none)
    (hfault : b.runFault c.pkt = none)
    (hfmt : (maskList 32 (b.runFormats c.pkt)).all (fun n => (b.fmt n).kind ≠ 0) = true)
    (htile : (runTiles c.pkt).all (fun t => (b.tile t).st ≠ 2) = true)
    (hovf : bit c.pkt.pnum 106 = true → (b.train.binds.get none (c.pkt.f 105 98)).isSome = true) :
    b.startRun c = b.setCmd { c with
      fmts := b.runFormats c.pkt,
      work := .run {
        tiles := runTiles c.pkt, handle := runHandle c.pkt, level := 0, resume := bit c.pkt.pnum 107, ovfEn := bit c.pkt.pnum 106,
        ovfCensus := c.pkt.f 105 98, waitLimit := c.pkt.f 95 64, saveDa := runSave c.pkt,
        args := (List.range 16).map (fun i => c.pkt.f (32 * i + 287) (32 * i + 256)), started := false, finished := [],
        maxCycles := 0, frozen := 0, preempt := [], saved := [], regen := none } } := by
  have hempty : (runTiles c.pkt).isEmpty = false := List.isEmpty_eq_false_iff.mpr hts
  have hmap : (if runSave c.pkt = 0 then none else hbmStatus (runSave c.pkt) (0xC40000 * (runTiles c.pkt).length)) = none := by
    split
    · rfl
    · rename_i h
      exact harea h
  have hfmt' : (maskList 32 (b.runFormats c.pkt)).any (fun n => decide ((b.fmt n).kind = 0)) = false :=
    any_eq_false_of_all_not (by simpa using hfmt)
  have htile' : (runTiles c.pkt).any (fun t => decide ((b.tile t).st = 2)) = false :=
    any_eq_false_of_all_not (by simpa using htile)
  have hbind : (bit c.pkt.pnum 106 && (b.train.binds.get none (c.pkt.f 105 98)).isNone) = false := by
    cases h : bit c.pkt.pnum 106
    · rfl
    · rw [isNone_eq_false (hovf h)]
      rfl
  have hargs : ¬ ((runTiles c.pkt).isEmpty = true ∨ 8 ≤ runHandle c.pkt ∨ runSave c.pkt % 0x10000 ≠ 0) := by
    rw [hempty]
    rintro (h | h | h)
    · cases h
    · exact absurd h (Nat.not_le.mpr hh)
    · exact h hsave
  simp only [Block.startRun, if_neg hargs, hmap, hfault, hfmt', htile', hbind, Bool.or_self, Bool.false_eq_true, if_false]

/-- The RUNs that PREEMPT of some tiles concerns. -/
def Block.preempted (b : Block) (ts : List Nat) : List Cmd :=
  b.mer.running.filter (fun x => x.runWork.any (fun w => w.started && w.regen.isNone && w.tiles.any ts.contains))

theorem startPreempt_eq : b.startPreempt c =
    if (b.preempted (runTiles c.pkt)).any (fun x => match x.work with | .run w => w.saveDa = 0 | _ => false) then
      b.refuse c Status.badParam 0
    else if (b.preempted (runTiles c.pkt)).isEmpty then b.done c 0
    else
      ((b.preempted (runTiles c.pkt)).foldl (fun b x =>
        match x.work with
        | .run w =>
          w.tiles.foldl (fun b t => b.onTile t (fun y => { y with stopping := true }))
            (b.setWork x.id (.run { w with preempt := c.id :: w.preempt }))
        | _ => b) b).setWork c.id (.preempt ((b.preempted (runTiles c.pkt)).map (·.id)) 0) := by
  have hhit : (fun x : Cmd => match x.work with
      | .run w => w.started && w.regen.isNone && w.tiles.any (runTiles c.pkt).contains
      | _ => false) =
      fun x => x.runWork.any (fun w => w.started && w.regen.isNone && w.tiles.any (runTiles c.pkt).contains) := by
    funext x
    unfold Cmd.runWork
    cases x.work <;> rfl
  unfold Block.startPreempt Block.preempted
  rw [← hhit]
  rfl

theorem startPreempt_none (h : b.preempted (runTiles c.pkt) = []) : b.startPreempt c = b.done c 0 := by
  simp only [startPreempt_eq, h, List.any_nil, List.isEmpty_nil, Bool.false_eq_true, if_false, if_true]

theorem startPreempt_one {x : Cmd} {w : RunWork} (h : b.preempted (runTiles c.pkt) = [x]) (hx : x.runWork = some w)
    (hsave : w.saveDa ≠ 0) :
    b.startPreempt c = (w.tiles.foldl (fun (b : Block) t => b.setTile t { b.tile t with stopping := true })
      (b.setWork x.id (.run { w with preempt := c.id :: w.preempt }))).setWork c.id (.preempt [x.id] 0) := by
  simp only [startPreempt_eq, h, List.any_cons, List.any_nil, work_of_runWork hx, hsave, decide_false, Bool.or_self,
    Bool.false_eq_true, if_false, List.isEmpty_cons, List.foldl_cons, List.foldl_nil, List.map_cons, List.map_nil]
  rfl

section
variable (hdef : maskList 10 (c.pkt.f 31 0) = [])
  (hok : (maskList 32 (c.pkt.f 31 0)).zipIdx.all (fun x => fwEntryOk (c.pkt.f (64 * x.2 + 127) (64 * x.2 + 64))) = true)
  (hidle : (maskList 32 (c.pkt.f 31 0)).all (fun n => !bit b.fmtsBusy n) = true)
include hdef hok hidle

/-- FW_WRITE of valid user slots that no command uses: the slots are written, and a change is counted and reported. -/
theorem startFwWrite_of_right {new : Sparse Nat}
    (hnew : new = (maskList 32 (c.pkt.f 31 0)).zipIdx.foldl
      (fun m x => m.set 0 x.1 (c.pkt.f (64 * x.2 + 127) (64 * x.2 + 64))) b.fw.slots) :
    b.startFwWrite c =
      let b' := { b with fw := { slots := new, changes := if decide (new ≠ b.fw.slots) then (b.fw.changes + 1) % 4096 else b.fw.changes } }
      let b2 := if decide (new ≠ b.fw.slots) then b'.almanacChange Status.ok 0 c.index 0 0 else b'
      b2.done c (fields [(48, b2.fwRev), (0, b2.fwCrc)]) := by
  have hbad : (maskList 32 (c.pkt.f 31 0)).zipIdx.find? (fun x => !fwEntryOk (c.pkt.f (64 * x.2 + 127) (64 * x.2 + 64))) = none :=
    List.find?_eq_none.mpr fun x hx => by simpa using List.all_eq_true.mp hok x hx
  have hbusy : (maskList 32 (c.pkt.f 31 0)).find? (fun n => bit b.fmtsBusy n) = none :=
    List.find?_eq_none.mpr fun x hx => by simpa using List.all_eq_true.mp hidle x hx
  subst hnew
  simp only [Block.startFwWrite, hdef, List.head?_nil, hbad, hbusy]

end

/-- Settles O16: a PROG_LOAD passes its two reads and the image's check, a RUN its checks; PREEMPT concerns no RUN or one; FW_WRITE
of what stands there changes nothing, and of anything else counts a change. FW_WRITE's Almanac record carries the ring as INDEX,
which is log entry 30 (R444). -/
theorem programCommandsComplete : Obligations.ProgramCommandsComplete := by
  unfold Obligations.ProgramCommandsComplete
  intro s p c b1 hentry
  have hop : ∀ {n}, p.opcode = n → c.pkt.opcode = n := fun h => (packetEntry_opcode hentry).trans h
  refine ⟨fun ho => ?load, fun ho => ?run, fun ho => ?preempt, fun ho => ?wheel⟩
  case load =>
    intro da h hb body b2 b3 hh hal hmap hread n hmagic hver hlen hin hbody himg hused m
    refine packet_next hentry ho rfl (by decide) ((engineStart_progLoad b1 (hop ho)).trans ?_)
    have hargs : ¬ (8 ≤ h ∨ da % 64 ≠ 0) := fun k => k.elim (Nat.not_le.mpr hh) (· hal)
    have hhead : ¬ (bits (leNat hb) 31 0 ≠ 0x4D495054 ∨ bits (leNat hb) 47 32 ≠ 1 ∨ bits (leNat hb) 63 48 ≠ 128) := by
      rintro (k | k | k)
      · exact k hmagic
      · exact k hver
      · exact k hlen
    have hfree := any_eq_false_of_all_not hused
    simp only [Block.startProgLoad]
    rw [if_neg hargs]
    simp only [da, hmap, cmdRead_clean hread, if_neg hhead]
    simp only [n, da] at hin hbody
    simp only [hin, Bool.not_true, Bool.false_eq_true, if_false, cmdRead_clean hbody]
    simp only [h] at himg hfree
    simp only [himg, hfree, Bool.false_eq_true, if_false]
    rfl
  case run =>
    intro ts hts hh hsave harea hfault hfmt htile hovf
    exact packet_next hentry ho rfl (by decide)
      ((engineStart_run b1 (hop ho)).trans (startRun_of_right hts hh hsave harea hfault hfmt htile hovf))
  case preempt =>
    refine ⟨fun h => ?_, fun x w h hx hsave => ?_⟩
    · exact packet_next hentry ho rfl (by decide) ((engineStart_preempt b1 (hop ho)).trans (startPreempt_none h))
    · exact packet_next hentry ho rfl (by decide) ((engineStart_preempt b1 (hop ho)).trans (startPreempt_one h hx hsave))
  case wheel =>
    intro slots ent new hdef hok hidle
    have hstart := (engineStart_fwWrite b1 (hop ho)).trans (startFwWrite_of_right (new := new) hdef hok hidle rfl)
    refine ⟨fun hsame => ?_, fun hchg b2 hb2 => ?_⟩
    · rw [hsame] at hstart
      simp only [ne_eq, not_true_eq_false, decide_false, Bool.false_eq_true, if_false] at hstart
      exact packet_next hentry ho rfl (by decide) hstart
    · simp only [ne_eq, hchg, not_false_eq_true, decide_true, if_true] at hstart
      subst hb2
      exact packet_next hentry ho rfl (by decide) hstart

end Sys2Proof.Machine
end

section
/-!
PROOFS. The life of a RUN (R133, R152, R157, R158, R162): its start, the finish of its tiles, PREEMPT's boundary and save, and the
timeout of a wait.
-/

namespace Sys2Proof.Machine

variable {t : Nat} {b : Block} {c : Cmd} {w : RunWork}

/-- RUN_START where no regeneration run is due is the start of a RUN. -/
theorem runStartAny_of_no_regen
    (h : b.takeTiles.mer.running.find? b.takeTiles.regenReady = none ∨ b.takeTiles.pool = none) :
    b.runStartAny = b.takeTiles.runStart := by
  unfold Block.runStartAny
  dsimp only
  split
  · rename_i a pl ha hp
    exact (h.elim (fun k => absurd (k.symm.trans ha) (by simp)) (fun k => absurd (k.symm.trans hp) (by simp)))
  · rfl

theorem runStartAny_of_regen {a a' : Cmd} {pl : Pool} {v v' : AttnWork} {b2 : Block}
    (ha : b.takeTiles.mer.running.find? b.takeTiles.regenReady = some a) (hp : b.takeTiles.pool = some pl) (hw : a.work = .attn v)
    (happ : b.takeTiles.attnAppend a v (Attn.at a.pkt v) = (b2, v')) (ha' : b2.cmd a.id = some a') :
    b.runStartAny = b2.regenStart a' v' pl := by
  simp only [Block.runStartAny, ha, hp, hw, happ, ha']

/-- A RUN that waits and may start. -/
def Block.mayRun (b : Block) (x : Cmd) : Bool := x.runWork.any (fun v => !v.started && b.tilesReady x)

/-- The first RUN that may start is the one that starts. -/
theorem runStart_eq : b.runStart = match b.mer.running.find? b.mayRun with
    | none => b
    | some c =>
      match c.work with
      | .run w =>
        let v := { w with started := true }
        let b' := if w.resume then (b.setWork c.id (.run v)).resumeTiles c.id v else (b.setWork c.id (.run v)).startTiles c.id w.handle v
        b'.setWork c.id (.run { v with level := b'.runLevel v })
      | _ => b := by
  have hready : (fun x : Cmd => match x.work with | .run v => !v.started && b.tilesReady x | _ => false) = b.mayRun := by
    funext x
    unfold Block.mayRun Cmd.runWork
    cases x.work <;> rfl
  rw [← hready]
  rfl

theorem runStart_of_ready (hc : b.mer.running.find? b.mayRun = some c) (hw : c.work = .run w) : b.runStart =
      let v := { w with started := true }
      let b' := if w.resume then (b.setWork c.id (.run v)).resumeTiles c.id v else (b.setWork c.id (.run v)).startTiles c.id w.handle v
      b'.setWork c.id (.run { v with level := b'.runLevel v }) := by
  simp only [runStart_eq, hc, hw]

section
variable (hrun : (b.tile t).run = some c.id) (hcmd : b.cmd c.id = some c) (hw : c.work = .run w)
include hrun hcmd hw

/-- TILE_FINISH of an ended, quiet tile of a RUN without overflow repetition: the RUN goes on, or completes. -/
theorem tileFinish_of_quiet (hend : (b.tile t).ended = true) (hstop : (b.tile t).stopped = false)
    (hfin : w.finished.contains t = false) (hq : b.quiet t = true) (hovf : w.ovfEn = false) {v : RunWork}
    (hv : v = { w with
      finished := t :: w.finished, maxCycles := Nat.max w.maxCycles ((b.tile t).issueCyc.getD (b.tile t).cyc),
      frozen := w.frozen + (b.tile t).frozenTotal }) :
    b.tileFinish t =
      if w.tiles.length ≤ v.finished.length then
        ((b.finishOps t).setWork c.id (.run v)).endRun c.id Status.ok w.level
          (fields [(32, Nat.min v.maxCycles (2 ^ 32 - 1)), (0, Nat.min v.frozen (2 ^ 32 - 1))])
      else (b.finishOps t).setWork c.id (.run v) := by
  subst hv
  simp only [Block.tileFinish, hrun, Option.bind_some, hcmd, hw, hend, hstop, hfin, hq, hovf, Block.runDone, Bool.not_true, Bool.or_self,
    Bool.and_false, Bool.false_and, Bool.false_eq_true, if_false, decide_eq_true_eq]

/-- PREEMPT_SAVE_DONE of a stopped, quiet tile whose save area can be written: the tile counts as saved, and with the last one the RUN
ends PREEMPTED, its RESULT 0. -/
theorem saveDone_of_written (hstop : (b.tile t).stopped = true) (hsaved : w.saved.contains t = false) (hq : b.quiet t = true)
    (hwait : b.writeWaits (saveArea w.saveDa (w.tiles.idxOf t)) 0xC40000 = false) {ts : List Byte} {b1 b2 : Block}
    (hts : (b.finishOps t).tsRead t 0 tileBytes = (some ts, b1))
    (hwrite : b1.daWrite (saveArea w.saveDa (w.tiles.idxOf t)) (b1.saveBlock t ++ ts) = (b2, none)) :
    ∃ d, b.saveDone t =
      if w.tiles.all (t :: w.saved).contains then
        (b2.setWork c.id (.run { w with saved := t :: w.saved })).endRun c.id Status.preempted d 0
      else b2.setWork c.id (.run { w with saved := t :: w.saved }) := by
  unfold Block.saveDone
  -- the accesses stay opaque: the kernel would run them over millions of bytes
  obtain ⟨read, hr⟩ : ∃ f, f = Block.tsRead := exists_eq
  obtain ⟨write, hw'⟩ : ∃ f, f = Block.daWrite := exists_eq
  rw [← hr] at hts ⊢
  rw [← hw'] at hwrite ⊢
  simp only [hrun, Option.bind_some, hcmd, hw, hstop, hsaved, hq, hwait, hts, hwrite, Bool.not_true, Bool.or_self, Bool.false_eq_true,
    if_false]
  exact ⟨_, rfl⟩

theorem waitTimeout_of_limit (hlim : w.waitLimit ≠ 0) {since : Nat} (hsince : (b.tile t).waitSince = some since)
    (hdue : since + w.waitLimit ≤ b.sid.sc.toNat) : b.waitTimeout t = b.progFault t 0x09 0 none := by
  have hdue' : since + w.waitLimit ≤ b.now := hdue
  simp only [Block.waitTimeout, hsince, hrun, Option.bind_some, hcmd, hw, hlim, hdue', ne_eq, not_false_eq_true, and_self, if_true]

end

theorem preemptBoundary_of_boundary (hrun : (b.tile t).run.isSome = true) (hing : (b.tile t).stopping = true)
    (hstop : (b.tile t).stopped = false) (hb : (b.tile t).atBoundary = true) :
    b.preemptBoundary t = b.setTile t { b.tile t with
      stopped := true, issueCyc := (b.tile t).issueCyc.or (some (b.tile t).cyc) } := by
  simp only [Block.preemptBoundary, hrun, hing, hstop, hb, Bool.not_false, Bool.and_self, if_true]

/-- Settles O17: each event takes the branch that its premises name. That a RUN saved by PREEMPT ends with RESULT 0 is log entry 48. -/
theorem runLifeCycle : Obligations.RunLifeCycle := by
  unfold Obligations.RunLifeCycle
  intro s t c w
  refine ⟨?start, ?finish, ?boundary, ?save, ?timeout⟩
  case start =>
    rintro b0 rfl
    refine ⟨?_, ?_⟩
    · rintro hno hc hw v rfl b rfl
      exact run_put ((runStartAny_of_no_regen hno).trans (runStart_of_ready hc hw))
    · intro a a' pl v v' b2 ha hp hw happ ha'
      exact run_put (runStartAny_of_regen ha hp hw happ ha')
  case finish =>
    intro hrun hcmd hw hend hstop hfin hq hovf v hv
    have h := tileFinish_of_quiet hrun hcmd hw hend hstop hfin hq hovf hv
    refine ⟨fun hmore => ?_, fun hlast => ?_⟩
    · exact run_put (h.trans (if_neg (Nat.not_le.mpr hmore)))
    · exact run_put (h.trans (if_pos hlast))
  case boundary =>
    intro hrun hing hstop hb
    exact run_put (preemptBoundary_of_boundary hrun hing hstop hb)
  case save =>
    intro hrun hcmd hw hstop hsaved hq da hwait ts b b' hts hwrite
    obtain ⟨d, h⟩ := saveDone_of_written hrun hcmd hw hstop hsaved hq hwait hts hwrite
    refine ⟨fun hmore => run_put (h.trans (if_neg ?_)), fun hlast => ⟨d, run_put (h.trans (if_pos hlast))⟩⟩
    rw [hmore]
    exact Bool.false_ne_true
  case timeout =>
    intro hrun hcmd hw hlim since hsince hdue
    exact run_put (waitTimeout_of_limit hrun hcmd hw hlim hsince hdue)

end Sys2Proof.Machine
end

section
/-!
PROOFS. Convolution and attention commands (R188, R212, R213, R215, R232, R233): taken when their tiles are free, run and ended.
-/

namespace Sys2Proof.Machine

variable {b : Block} {c : Cmd}

/-- A condition that fails everywhere, written as a disjunction of the two ways it can hold. -/
theorem any_rerun_eq_false {ts : List Nat} (h : ts.all (fun t => (b.tile t).rerun.isEmpty && !(b.tile t).switching) = true) :
    ts.any (fun t => !(b.tile t).rerun.isEmpty || (b.tile t).switching) = false := by
  rw [List.any_eq_false]
  intro t ht
  have := List.all_eq_true.mp h t ht
  simp only [Bool.and_eq_true, Bool.not_eq_true'] at this
  simp [this.1, this.2]

theorem startConv_of_right (h : b.convFault (Conv.of c.pkt) = none) : b.startConv c =
    (b.setCmd { c with
      fmts := 2 ^ (Conv.of c.pkt).inSlot ||| 2 ^ (Conv.of c.pkt).wSlot ||| 2 ^ (Conv.of c.pkt).outSlot,
      work := .conv (Conv.of c.pkt).tiles false }).takeTiles := by
  simp only [Block.startConv, h]

/-- An attention command as its engine checks it: a paged one's key count comes from its sequence. -/
def Block.attnOf (b : Block) (p : Packet) : Attn :=
  if (Attn.of p).kvMode then
    { Attn.of p with keys := (match b.pool with
        | some pl => (b.seqE pl (Attn.of p).seq).length + (if (Attn.of p).append then (Attn.of p).lq else 0)
        | none => 0) } else Attn.of p

theorem startAttn_of_right (h : b.attnFault (b.attnOf c.pkt) = none) : b.startAttn c =
    (b.setCmd { c with
      fmts := [(b.attnOf c.pkt).qSlot, (b.attnOf c.pkt).kSlot, (b.attnOf c.pkt).vSlot, (b.attnOf c.pkt).pSlot,
        (b.attnOf c.pkt).outSlot, 1].foldl (fun m q => m ||| 2 ^ q) 0,
      work := .attn (AttnWork.fresh0 (b.attnOf c.pkt).tiles) }).takeTiles := by
  have heq : b.startAttn c = match b.attnFault (b.attnOf c.pkt) with
      | some (n, st) => b.refuse c st n
      | none => (b.setCmd { c with
          fmts := [(b.attnOf c.pkt).qSlot, (b.attnOf c.pkt).kSlot, (b.attnOf c.pkt).vSlot, (b.attnOf c.pkt).pSlot,
            (b.attnOf c.pkt).outSlot, 1].foldl (fun m q => m ||| 2 ^ q) 0,
          work := .attn (AttnWork.fresh0 (b.attnOf c.pkt).tiles) }).takeTiles := rfl
  simp only [heq, h]

/-- CONV_FINISH of a command whose tiles have nothing to rerun, whose outputs are not held back and whose operands can be read. -/
theorem convFinish_of_clear {id cycles : Nat} {ts : List Nat} (hcmd : b.takeTiles.cmd id = some c) (hw : c.work = .conv ts true)
    (hrerun : ts.all (fun t => (b.takeTiles.tile t).rerun.isEmpty && !(b.takeTiles.tile t).switching) = true)
    (houts : ((Conv.of c.pkt).blocks.flatMap (fun pb => (b.takeTiles.convBlock (Conv.of c.pkt) pb).writes)).all
      (fun w => !b.takeTiles.writeWaits w.1 w.2.length) = true)
    (hcensus : b.takeTiles.writeWaits (Conv.of c.pkt).censusDa 64 = false)
    (hbad : ts.zipIdx.all (fun x => (b.takeTiles.convBad (Conv.of c.pkt) (shareOf (Conv.of c.pkt).blocks x.2 ts.length)).isNone) = true) :
    b.convFinish id cycles = b.takeTiles.convCompute c ts (Conv.of c.pkt) cycles := by
  have hbads : ts.zipIdx.filterMap (fun x =>
      (b.takeTiles.convBad (Conv.of c.pkt) (shareOf (Conv.of c.pkt).blocks x.2 ts.length)).map (fun r => (x.2, r))) = [] := by
    refine List.filterMap_eq_nil_iff.mpr fun x hx => ?_
    rw [Option.isNone_iff_eq_none.mp (List.all_eq_true.mp hbad x hx), Option.map_none]
  simp only [Block.convFinish, hcmd, hw, any_rerun_eq_false hrerun, any_eq_false_of_all_not houts, hcensus, hbads, Bool.or_self,
    Bool.false_eq_true, if_false]

/-- ATTN_FINISH of an unpaged command that has started, with nothing to rerun and no output held back. -/
theorem attnFinish_of_unpaged {id cycles : Nat} {w : AttnWork} (hcmd : b.takeTiles.cmd id = some c) (hw : c.work = .attn w)
    (hkv : (Attn.of c.pkt).kvMode = false) (hfail : w.failed = none) (hstart : w.started = true) (hregen : w.regen = none)
    (hto : w.toRegen = [])
    (hrerun : w.tiles.all (fun t => (b.takeTiles.tile t).rerun.isEmpty && !(b.takeTiles.tile t).switching) = true)
    (houts : (b.takeTiles.attnWrites (Attn.of c.pkt)).all (fun x => !b.takeTiles.writeWaits x.1 x.2.length) = true) :
    b.attnFinish id cycles = b.takeTiles.attnCompute c w (Attn.of c.pkt) cycles := by
  have hat : Attn.at c.pkt w = Attn.of c.pkt := by
    simp only [Attn.at, hkv, Bool.false_eq_true, if_false]
  have hready : w.ready (Attn.of c.pkt) = true := by
    simp [AttnWork.ready, hkv, hstart]
  simp only [Block.attnFinish, hcmd, hw, hat, hfail, hready, hregen, hto, hkv, any_rerun_eq_false hrerun, Block.attnAppend,
    any_eq_false_of_all_not houts, Option.isSome_none, List.isEmpty_nil, Bool.not_true, Bool.not_false, Bool.and_false, Bool.false_and,
    Bool.true_or, Bool.or_self, Bool.false_eq_true, if_false, if_true]

/-- Settles O18: a command without a fault takes its tiles; the finish of one that is ready, unblocked and readable computes. -/
theorem sequencerCommandsComplete : Obligations.SequencerCommandsComplete := by
  unfold Obligations.SequencerCommandsComplete
  refine ⟨?start, ?finish⟩
  case start =>
    intro s p c b1 hentry
    have hop : ∀ {n}, p.opcode = n → c.pkt.opcode = n := fun h => (packetEntry_opcode hentry).trans h
    refine ⟨fun ho hf => ?_, fun ho hf => ?_, ?_⟩
    · exact packet_next hentry ho rfl (by decide) ((engineStart_conv b1 (.inl (hop ho))).trans (startConv_of_right hf))
    · exact packet_next hentry ho rfl (by decide) ((engineStart_conv b1 (.inr (hop ho))).trans (startConv_of_right hf))
    · rintro a rfl hf
      have h := startAttn_of_right hf
      exact ⟨fun ho => packet_next hentry ho rfl (by decide) ((engineStart_attn b1 (.inl (hop ho))).trans h),
        fun ho => packet_next hentry ho rfl (by decide) ((engineStart_attn b1 (.inr (hop ho))).trans h)⟩
  case finish =>
    rintro s b c id cycles rfl hcmd
    refine ⟨?_, ?_⟩
    · intro ts hw d hrerun houts hcensus hbad
      exact run_put (convFinish_of_clear hcmd hw hrerun houts hcensus hbad)
    · intro w hw hkv hfail hstart hregen hto hrerun houts
      exact run_put (attnFinish_of_unpaged hcmd hw hkv hfail hstart hregen hto hrerun houts)

end Sys2Proof.Machine
end

section
/-!
PROOFS. The KV page store (R234 to R247): POOL_INIT, the commands on a sequence, the admission and the copy of a tail page. The
structures of the pool are written whatever WP says of their pages (log 68), and NEXT of the last page keeps a free value (log 70).
-/

namespace Sys2Proof.Machine

variable {b : Block} {c : Cmd} {pl : Pool} {q : Nat}

/-! ### The commands -/

/-- POOL_INIT with no pool bound and right operands. -/
theorem startKv_pool (ho : c.pkt.opcode = 0x0402) (ha : c.pkt.f 511 508 = 0) (hnone : b.pool = none) (hpl : pl = {
      pageDa := c.pkt.f 491 440, entryDa := c.pkt.f 439 388, seqDa := c.pkt.f 387 336, pages := c.pkt.f 335 312,
      maxSeqs := c.pkt.f 311 288, kSlot := c.pkt.f 287 283, vSlot := c.pkt.f 282 278, kvHeads := c.pkt.f 277 262,
      headDim := c.pkt.f 261 254, free := List.range (c.pkt.f 335 312) })
    (hpages : 0 < pl.pages) (hseqs : 0 < pl.maxSeqs) (hmax : pl.maxSeqs ≤ 65536) (hk : kvSlotOk b pl.kSlot = true)
    (hv : kvSlotOk b pl.vSlot = true) (hheads : 0 < pl.kvHeads) (hdim : pl.headDim = 64 ∨ pl.headDim = 128)
    (hpage : hbmStatus pl.pageDa (pl.pages * b.pageBytes pl) = none) (hentry : hbmStatus pl.entryDa (32 * pl.pages) = none)
    (hseq : hbmStatus pl.seqDa (32 * pl.maxSeqs) = none) :
    b.startKv c =
      let pages := (List.range pl.pages).foldl (fun (b' : Block) i => b'.setPageE pl i {
        lastUse := 0, gen := 0, ref := 0, pin := 0, next := if i + 1 < pl.pages then i + 1 else (b.free 24).1, st := 0,
        droppable := false, filling := false, writer := 0 }) (b.free 24).2
      let seqs := (List.range pl.maxSeqs).foldl (fun (b : Block) i => b.setSeqE pl i {
        ptDa := 0, ptCap := 0, length := 0, handle := 15, arg := 0, isOpen := false, drop := false, busy := false }) pages
      (seqs.setPool pl).done c pl.pages := by
  have hargs : (pl.pages = 0 || pl.maxSeqs = 0 || decide (65536 < pl.maxSeqs) || !kvSlotOk b pl.kSlot || !kvSlotOk b pl.vSlot ||
      pl.kvHeads = 0 || (pl.headDim ≠ 64 && pl.headDim ≠ 128)) = false := by
    rcases hdim with h | h <;> simp [hk, hv, h, Nat.pos_iff_ne_zero.mp hpages, Nat.pos_iff_ne_zero.mp hseqs, hmax,
      Nat.pos_iff_ne_zero.mp hheads]
  subst hpl
  simp only [Block.startKv, ho, ha, and_self, if_true, Block.poolInit, hnone, Option.isSome_none, Bool.false_eq_true, if_false]
  rw [if_neg (Bool.eq_false_iff.mp hargs)]
  simp only [hpage, hentry, hseq, Option.or_none]
  simp only [Block.kvDone, Block.kvFreeCount, Block.setPool, Option.map_some, Option.getD_some, List.length_range]

/-- The table commands on a sequence that nothing holds, whose structures can be read. -/
theorem startKv_of_table (hp : b.pool = some pl) (hq : c.kvTable = some q) (hlt : q < pl.maxSeqs) (hfree : b.kvBlocked pl c = false)
    (hbad : b.kvBad pl q (ceilDiv (b.seqE pl q).length 64) = false)
    (hact : c.pkt.opcode = 0x0402 → c.pkt.f 511 508 = 1 ∨ c.pkt.f 511 508 = 2)
    (hsrc : c.pkt.opcode = 0x0403 → b.kvBad pl (c.pkt.f 255 240) (ceilDiv (c.pkt.f 223 200) 64) = false) :
    b.startKv c =
      if c.pkt.opcode = 0x0403 then b.kvShare c pl
      else if c.pkt.opcode = 0x0404 then b.kvFree c pl q
      else if c.pkt.f 511 508 = 1 then b.seqOpen c pl q
      else b.setDrop c pl q := by
  have hinit : ¬ (c.pkt.opcode = 0x0402 ∧ c.pkt.f 511 508 = 0) := fun h => by
    rcases hact h.1 with k | k <;> omega
  have hthree : ¬ (c.pkt.opcode = 0x0402 ∧ 3 ≤ c.pkt.f 511 508) := fun h => by
    rcases hact h.1 with k | k <;> omega
  have hread : (b.kvBad pl q (ceilDiv (b.seqE pl q).length 64) || (c.pkt.opcode = 0x0403 && decide (c.pkt.f 255 240 < pl.maxSeqs) &&
      b.kvBad pl (c.pkt.f 255 240) (ceilDiv (c.pkt.f 223 200) 64))) = false := by
    rw [hbad, Bool.false_or]
    by_cases h : c.pkt.opcode = 0x0403
    · rw [hsrc h, Bool.and_false]
    · simp only [h, decide_false, Bool.false_and]
  simp only [Block.startKv, if_neg hinit, if_neg hthree, Block.kvTry, hp, hfree, Bool.false_eq_true, if_false, Block.kvRun, hq,
    Option.getD_some, if_neg (Nat.not_le.mpr hlt)]
  rw [if_neg (Bool.eq_false_iff.mp hread)]

theorem seqOpen_of_closed (hclosed : (b.seqE pl q).isOpen = false) (hal : c.pkt.f 491 440 % 64 = 0)
    (hmap : hbmStatus (c.pkt.f 491 440) (8 * c.pkt.f 335 312) = none) {n : SeqE} (hn : n = {
      ptDa := c.pkt.f 491 440, ptCap := c.pkt.f 335 312, length := 0, handle := 15, arg := 0, isOpen := true,
      drop := bit c.pkt.pnum 253, busy := false }) :
    b.seqOpen c pl q = (((List.range n.ptCap).foldl (fun (b : Block) i =>
      b.setPtE n i { phys := 0, gen := 0, valid := false }) b).setSeqE pl q n).kvDone c := by
  subst hn
  simp only [Block.seqOpen, hclosed, hal, hmap, ne_eq, not_true_eq_false, Bool.false_eq_true, if_false]

theorem kvShare_of_right {e : SeqE} (he : e = b.seqE pl (c.pkt.f 239 224)) {es : List PtE}
    (hes : es = (List.range (ceilDiv (c.pkt.f 223 200) 64)).map (fun i => b.ptE (b.seqE pl (c.pkt.f 255 240)) i))
    (hsrc : c.pkt.f 255 240 < pl.maxSeqs) (hopen : e.isOpen = true) (hlen : e.length = 0)
    (hso : (b.seqE pl (c.pkt.f 255 240)).isOpen = true) (hn : 0 < c.pkt.f 223 200)
    (hle : c.pkt.f 223 200 ≤ (b.seqE pl (c.pkt.f 255 240)).length) (hcap : ceilDiv (c.pkt.f 223 200) 64 ≤ e.ptCap)
    (hblk : b.isBlockSlot pl.vSlot = true → c.pkt.f 223 200 % 32 = 0)
    (href : es.all (fun y => !b.current pl y || decide ((b.pageE pl y.phys).ref < 65535)) = true) :
    b.kvShare c pl = ((es.zipIdx.foldl (fun (b : Block) x =>
      (if b.current pl x.1 then b.setPageE pl x.1.phys { b.pageE pl x.1.phys with ref := (b.pageE pl x.1.phys).ref + 1 }
        else b).setPtE e x.2 x.1) b).setSeqE pl (c.pkt.f 239 224) { e with length := c.pkt.f 223 200 }).kvDone c := by
  have h1 : (decide (pl.maxSeqs ≤ c.pkt.f 255 240) || !e.isOpen || decide (e.length ≠ 0)) = false := by
    simp [hopen, hlen, hsrc]
  have h2 : (!(b.seqE pl (c.pkt.f 255 240)).isOpen || decide (c.pkt.f 223 200 = 0) ||
      decide ((b.seqE pl (c.pkt.f 255 240)).length < c.pkt.f 223 200)) = false := by
    simp [hso, Nat.pos_iff_ne_zero.mp hn, hle]
  have h4 : (b.isBlockSlot pl.vSlot && decide (c.pkt.f 223 200 % 32 ≠ 0)) = false := by
    cases h : b.isBlockSlot pl.vSlot
    · rfl
    · simp [hblk h]
  have h5 : es.any (fun e => b.current pl e && decide (65535 ≤ (b.pageE pl e.phys).ref)) = false := by
    refine any_eq_false_of_all_not (List.all_eq_true.mpr fun y hy => ?_)
    have := List.all_eq_true.mp href y hy
    simp only [Bool.or_eq_true, Bool.not_eq_true', decide_eq_true_eq] at this
    rcases this with k | k
    · simp [k]
    · simp [k]
  subst he hes
  simp only [Block.kvShare]
  rw [if_neg (Bool.eq_false_iff.mp h1), if_neg (Bool.eq_false_iff.mp h2), if_neg (Nat.not_lt.mpr hcap),
    if_neg (Bool.eq_false_iff.mp h4), if_neg (Bool.eq_false_iff.mp h5)]
  rfl

theorem setDrop_of_open (hopen : (b.seqE pl q).isOpen = true) :
    b.setDrop c pl q = ((List.range (ceilDiv (b.seqE pl q).length 64)).foldl (fun (b' : Block) i =>
      let y := b'.ptE (b.seqE pl q) i
      if decide (64 * i < c.pkt.f 335 312 + c.pkt.f 311 288) &&
          decide (c.pkt.f 335 312 < Nat.min (64 * i + 64) (b.seqE pl q).length) && decide (c.pkt.f 311 288 ≠ 0) && b'.current pl y then
        b'.setPageE pl y.phys { b'.pageE pl y.phys with droppable := bit c.pkt.pnum 253 }
      else b') b).kvDone c := by
  simp only [Block.setDrop, hopen, Bool.not_true, Bool.false_eq_true, if_false]
  rfl

theorem kvFree_of_open (hopen : (b.seqE pl q).isOpen = true) (hclose : bit c.pkt.pnum 215 = true → c.pkt.f 239 216 = 0) :
    b.kvFree c pl q = (((List.range (b.seqE pl q).ptCap).foldl (fun (b1 : Block) i =>
      if 64 * i < c.pkt.f 239 216 then b1 else
      let y := b1.ptE (b.seqE pl q) i
      if !y.valid then b1 else
      let b' := b1.setPtE (b.seqE pl q) i { y with valid := false }
      if b1.current pl y then b'.unref y.phys else b') b).setSeqE pl q
        { b.seqE pl q with length := Nat.min (b.seqE pl q).length (c.pkt.f 239 216), isOpen := !bit c.pkt.pnum 215 }).kvDone c := by
  have hargs : (bit c.pkt.pnum 215 && decide (c.pkt.f 239 216 ≠ 0)) = false := by
    cases h : bit c.pkt.pnum 215
    · rfl
    · simp [hclose h]
  simp only [Block.kvFree, hopen, Bool.not_true, Bool.false_eq_true, if_false]
  rw [if_neg (Bool.eq_false_iff.mp hargs)]

theorem startKvRegenSet_of_open (hp : b.pool = some pl) (hq : c.pkt.f 255 240 < pl.maxSeqs)
    (hh : c.pkt.f 239 236 < 8 ∨ c.pkt.f 239 236 = 15) (hbad : (b.badWord (pl.seqDa + 32 * c.pkt.f 255 240) 32).isSome = false)
    (hopen : (b.seqE pl (c.pkt.f 255 240)).isOpen = true) :
    b.startKvRegenSet c = (b.setSeqE pl (c.pkt.f 255 240) { b.seqE pl (c.pkt.f 255 240) with
      handle := c.pkt.f 239 236, arg := c.pkt.f 235 204 }).done c 0 := by
  have hargs : ¬ (pl.maxSeqs ≤ c.pkt.f 255 240 ∨ (8 ≤ c.pkt.f 239 236 ∧ c.pkt.f 239 236 ≠ 15)) := by omega
  simp only [Block.startKvRegenSet, hp, if_neg hargs, hbad, hopen, Bool.not_true, Bool.false_eq_true, if_false]

/-! ### Admission -/

/-- Every page of a sequence is current, so none is missing and all count as in use. -/
theorem drops_of_current {e : SeqE} {n : Nat} (h : ((List.range n).map (fun i => b.ptE e i)).all
      (fun y => b.current pl y && !(b.pageE pl y.phys).filling) = true) :
    ((List.range n).map (fun i => b.ptE e i)).filter (b.current pl) = (List.range n).map (fun i => b.ptE e i) ∧
      (List.range n).filter (fun i => !b.current pl (b.ptE e i)) = [] ∧
      ((List.range n).map (fun i => b.ptE e i)).any (fun y => (b.pageE pl y.phys).filling) = false := by
  have hall : ∀ y ∈ (List.range n).map (fun i => b.ptE e i), b.current pl y = true ∧ (b.pageE pl y.phys).filling = false := by
    intro y hy
    simpa using List.all_eq_true.mp h y hy
  refine ⟨List.filter_eq_self.mpr fun y hy => (hall y hy).1, List.filter_eq_nil_iff.mpr fun i hi => ?_, ?_⟩
  · simp [(hall _ (List.mem_map_of_mem hi)).1]
  · refine any_eq_false_of_all_not (List.all_eq_true.mpr fun y hy => ?_)
    rw [(hall y hy).2, Bool.not_false]

/-- A command that appends nothing needs no page; one that appends needs those its tokens reach. -/
theorem admitted_pages {e : SeqE} {r len fresh : Nat} (hr : r = ceilDiv e.length 64)
    (hlen : len = if c.kvAppend then e.length + c.pkt.f 327 304 else e.length) (hfresh : fresh = ceilDiv len 64 - r) :
    (if c.kvAppend then ceilDiv len 64 - r else 0) = fresh := by
  rw [hfresh]
  cases h : c.kvAppend
  · simp only [hlen, h, Bool.false_eq_true, if_false, hr, Nat.sub_self]
  · rfl

section
variable {w : AttnWork} {e : SeqE} {r len fresh : Nat} {es : List PtE}
  (he : e = b.seqE pl c.kvSeq) (hr : r = ceilDiv e.length 64) (hes : es = (List.range r).map (fun i => b.ptE e i))
  (hlen : len = if c.kvAppend then e.length + c.pkt.f 327 304 else e.length) (hfresh : fresh = ceilDiv len 64 - r)
  (hopen : e.isOpen = true) (hcap : ceilDiv len 64 ≤ e.ptCap)
  (hblk : c.kvAppend = true → b.isBlockSlot pl.vSlot = true → e.length % 32 = 0) (hbad : b.kvBad pl c.kvSeq r = false)
  (hcur : es.all (fun y => b.current pl y && !(b.pageE pl y.phys).filling) = true)
  (htail : c.kvAppend = true → e.length % 64 ≠ 0 →
    (b.pageE pl (b.ptE e (r - 1)).phys).ref ≤ 1 ∧ (b.pageE pl (b.ptE e (r - 1)).phys).pin = 0)
include he hr hes hlen hfresh hopen hcap hblk hbad hcur htail

/-- The admission of a command on an open sequence whose pages are all current and whose tail page is its own. -/
theorem kvAdmit_of_current : b.kvAdmit c w pl =
    if pl.free.length + (b.candidates pl (es.map (·.phys))).length < fresh then b.attnEnd c w Status.kvNoPages 0 0
    else
      let b1 := es.foldl (fun (b : Block) y => b.onPageE pl y.phys (fun x => { x with pin := x.pin + 1 })) b
      let t := b1.takePages pl c.kvSeq e.drop (es.map (·.phys)) fresh
      let b2 := ((List.range fresh).map (· + r)).zipIdx.foldl (fun (b : Block) x => b.setPtE e x.1
        { phys := t.1.getD x.2 0, gen := (b.pageE pl (t.1.getD x.2 0)).gen, valid := true }) t.2
      let b3 := b2.setSeqE pl c.kvSeq { e with length := len, busy := e.busy || c.kvAppend }
      b3.setWork c.id (.attn { w with
        admitted := true, pins := (List.range (ceilDiv len 64)).map (fun i => (b3.ptE e i).phys), cow := none, toRegen := [],
        fresh := t.1, lenBefore := e.length, lenAfter := len }) := by
  have hpages := admitted_pages hr hlen hfresh
  subst hes
  obtain ⟨hfil, hdrop, hfill⟩ := drops_of_current hcur
  have hargs : (!e.isOpen || (c.kvAppend && decide (e.ptCap < ceilDiv len 64)) ||
      (c.kvAppend && b.isBlockSlot pl.vSlot && decide (e.length % 32 ≠ 0))) = false := by
    rw [hopen, decide_eq_false (Nat.not_lt.mpr hcap)]
    cases ha : c.kvAppend
    · rfl
    · cases hb : b.isBlockSlot pl.vSlot
      · rfl
      · simp [hblk ha hb]
  have hcow : (c.kvAppend && decide (e.length % 64 ≠ 0) && !([] : List Nat).contains (r - 1) &&
      (decide (1 < (b.pageE pl (b.ptE e (r - 1)).phys).ref) || decide (0 < (b.pageE pl (b.ptE e (r - 1)).phys).pin))) = false := by
    cases ha : c.kvAppend
    · rfl
    · by_cases h : e.length % 64 = 0
      · simp [h]
      · obtain ⟨hle, hpin⟩ := htail ha h
        simp [hpin, Nat.not_lt.mpr hle]
  subst he
  simp only [Block.kvAdmit]
  rw [← hlen, ← hr]
  rw [if_neg (Bool.eq_false_iff.mp hargs), hbad, hdrop, hfil, hfill]
  simp only [hcow, hpages, Bool.false_eq_true, if_false, List.isEmpty_nil, Bool.not_true, Bool.false_and, b2n, List.length_nil,
    Nat.zero_add, List.nil_append, List.append_nil, List.zipIdx_nil, List.map_nil]

end

theorem kvAdmission_of_waiting {id : Nat} {w : AttnWork} (hcmd : b.cmd id = some c) (hp : b.pool = some pl) (hw : c.work = .attn w)
    (hadm : w.admitted = false) (hpaged : bit c.pkt.pnum 204 = true) (hfree : b.kvBlocked pl c = false) :
    b.kvAdmission id = (b.kvAdmit c w pl).kvRetry := by
  simp only [Block.kvAdmission, hcmd, hp, hw, hadm, hpaged, hfree, Bool.not_true, Bool.or_self, Bool.false_eq_true, if_false]

/-- KV_COPY_DONE of a page that can be read and whose place is not held back. -/
theorem kvCopyDone_of_copy {id old new : Nat} {w : AttnWork} (hcmd : b.cmd id = some c) (hp : b.pool = some pl) (hw : c.work = .attn w)
    (hcow : w.cow = some (old, new)) (hwait : b.writeWaits (pl.pageDa + new * b.pageBytes pl) (b.pageBytes pl) = false)
    {bs : List Byte} {b1 b2 : Block} (hread : b.daRead (pl.pageDa + old * b.pageBytes pl) (b.pageBytes pl) = (.ok bs false, b1))
    (hwrite : b1.daWrite (pl.pageDa + new * b.pageBytes pl) bs = (b2, none)) :
    b.kvCopyDone id = (b2.setWork id (.attn { w with cow := none })).unpin old := by
  unfold Block.kvCopyDone
  -- the accesses stay opaque to the kernel
  obtain ⟨read, hr⟩ : ∃ f, f = Block.daRead := exists_eq
  obtain ⟨write, hw'⟩ : ∃ f, f = Block.daWrite := exists_eq
  rw [← hr] at hread ⊢
  rw [← hw'] at hwrite ⊢
  simp only [hcmd, hp, hw, hcow, hwait, hread, hwrite, Bool.false_eq_true, if_false]

/-- Settles O19: the checks of each command pass and leave the branch that writes; an admission with every page current drops
nothing and copies nothing. -/
theorem kvPageStore : Obligations.KvPageStore := by
  unfold Obligations.KvPageStore
  refine ⟨?commands, ?events⟩
  case commands =>
    intro s p c b1 hentry
    have hop : ∀ {n}, p.opcode = n → c.pkt.opcode = n := fun h => (packetEntry_opcode hentry).trans h
    refine ⟨?init, ?tables, ?regen⟩
    case init =>
      intro ho ha hnone pl hpl hpages hseqs hmax hk hv hheads hdim hpage hent hseq
      exact packet_next hentry ho (decide_eq_true ha) (by decide) ((engineStart_kv b1 (.inl (hop ho))).trans
        (startKv_pool (hop ho) ha hnone hpl hpages hseqs hmax hk hv hheads hdim hpage hent hseq))
    case tables =>
      intro pl q hp hq hlt hfree hbad e
      refine ⟨?seqOpen, ?setDrop, ?share, ?free⟩
      case seqOpen =>
        intro ho ha hclosed hal hmap n hn
        have h := startKv_of_table hp hq hlt hfree hbad (fun _ => .inl ha) (fun h => absurd ((hop ho).symm.trans h) (by decide))
        rw [hop ho, if_neg (by decide), if_neg (by decide), if_pos ha] at h
        exact packet_next hentry ho (decide_eq_true ha) (by decide) ((engineStart_kv b1 (.inl (hop ho))).trans
          (h.trans (seqOpen_of_closed hclosed hal hmap hn)))
      case setDrop =>
        intro ho ha hopen
        have h := startKv_of_table hp hq hlt hfree hbad (fun _ => .inr ha) (fun h => absurd ((hop ho).symm.trans h) (by decide))
        rw [hop ho, if_neg (by decide), if_neg (by decide), ha, if_neg (by decide)] at h
        exact packet_next hentry ho (decide_eq_true ha) (by decide) ((engineStart_kv b1 (.inl (hop ho))).trans
          (h.trans (setDrop_of_open hopen)))
      case share =>
        intro ho src n es hsrc hsbad hopen hlen hso hn hle hcap hblk href
        have hdst : q = c.pkt.f 239 224 := by
          simp only [Cmd.kvTable, hop ho, Nat.reduceEqDiff, if_false, if_true, Option.some.injEq] at hq
          exact hq.symm
        subst hdst
        have h := startKv_of_table hp hq hlt hfree hbad (fun h => absurd ((hop ho).symm.trans h) (by decide)) (fun _ => hsbad)
        rw [if_pos (hop ho)] at h
        exact packet_next hentry ho rfl (by decide) ((engineStart_kv b1 (.inr (.inl (hop ho)))).trans
          (h.trans (kvShare_of_right rfl rfl hsrc hopen hlen hso hn hle hcap hblk href)))
      case free =>
        intro ho hopen f close hclose
        have h := startKv_of_table hp hq hlt hfree hbad (fun h => absurd ((hop ho).symm.trans h) (by decide))
          (fun h => absurd ((hop ho).symm.trans h) (by decide))
        rw [hop ho, if_neg (by decide), if_pos rfl] at h
        exact packet_next hentry ho rfl (by decide) ((engineStart_kv b1 (.inr (.inr (hop ho)))).trans
          (h.trans (kvFree_of_open hopen hclose)))
    case regen =>
      intro pl ho hp hq hh hbad hopen
      exact packet_next hentry ho rfl (by decide)
        ((engineStart_kvRegenSet b1 (hop ho)).trans (startKvRegenSet_of_open hp hq hh hbad hopen))
  case events =>
    intro s id c pl w hcmd hp hw
    refine ⟨?admission, ?copy⟩
    case admission =>
      intro hadm hpaged hfree e r es len fresh hopen hcap hblk hbad hcur htail pinned
      have h := (kvAdmission_of_waiting hcmd hp hw hadm hpaged hfree).trans
        (congrArg Block.kvRetry (kvAdmit_of_current (w := w) (es := es) (fresh := fresh) rfl rfl rfl rfl rfl hopen hcap hblk hbad hcur htail))
      refine ⟨fun hroom => ?_, fun hfew => ?_⟩
      · exact run_put (h.trans (congrArg Block.kvRetry (if_neg (Nat.not_lt.mpr hroom))))
      · exact run_put (h.trans (congrArg Block.kvRetry (if_pos hfew)))
    case copy =>
      intro old new hcow n hwait bs b b' hread hwrite
      exact run_put (kvCopyDone_of_copy hcmd hp hw hcow hwait hread hwrite)

end Sys2Proof.Machine
end

section
/-!
PROOFS. Stacked memory (spec/10): class MEM, patrol, migration, walks and stack temperatures.
-/

namespace Sys2Proof.Machine

variable {b : Block} {c : Cmd}

/-- A bit of the parameters is the field of that one bit. -/
theorem bit_pnum_eq (p : Packet) (i : Nat) : bit p.pnum i = decide (p.f i i = 1) := by
  unfold bit Packet.f bits
  rw [Nat.testBit_eq_decide_div_mod_eq, Nat.shiftRight_eq_div_pow, Nat.add_sub_cancel_left, pow_one]

/-! ### Class MEM -/

theorem startMemFill_of_right {b2 : Block} (hal : c.pkt.f 255 204 % 64 = 0) (hpos : 0 < c.pkt.f 203 152)
    (hmul : c.pkt.f 203 152 % 64 = 0) (hin : inHbm (c.pkt.f 255 204) (c.pkt.f 203 152) = true)
    (hpages : (pagesOf (c.pkt.f 255 204) (c.pkt.f 203 152)).all (fun g =>
      decide (attrClass (b.attr g) ≤ 1 ∨ 4 < attrClass (b.attr g)) && !attrWp (b.attr g) && !attrCodec (b.attr g)) = true)
    (hwrite : b.daWrite (c.pkt.f 255 204) ((List.replicate (c.pkt.f 203 152 / 8) (leBytes 8 (c.pkt.f 151 88))).flatten) = (b2, none)) :
    b.startMemFill c = b2.done c (c.pkt.f 203 152) := by
  have hargs : ¬ (c.pkt.f 255 204 % 64 ≠ 0 ∨ c.pkt.f 203 152 = 0 ∨ c.pkt.f 203 152 % 64 ≠ 0) := by omega
  have hplain : (pagesOf (c.pkt.f 255 204) (c.pkt.f 203 152)).any (fun g =>
      decide (attrClass (b.attr g) = 4) || attrWp (b.attr g) || attrCodec (b.attr g) || decide (attrClass (b.attr g) = 2) ||
        decide (attrClass (b.attr g) = 3)) = false := by
    refine any_eq_false_of_all_not (List.all_eq_true.mpr fun g hg => ?_)
    have := List.all_eq_true.mp hpages g hg
    simp only [Bool.and_eq_true, decide_eq_true_eq, Bool.not_eq_true'] at this
    obtain ⟨⟨hclass, hwp⟩, hcodec⟩ := this
    have h4 : attrClass (b.attr g) ≠ 4 := by omega
    have h2 : attrClass (b.attr g) ≠ 2 := by omega
    have h3 : attrClass (b.attr g) ≠ 3 := by omega
    simp [hwp, hcodec, h4, h2, h3]
  simp only [Block.startMemFill, if_neg hargs, hin, hplain, cmdWrite_clean hwrite, Bool.not_true, Bool.false_eq_true, if_false]

theorem startScrubCfg_of_right (h : 256 ≤ c.pkt.f 127 112) : b.startScrubCfg c =
    ({ b with mem.passEpochs := c.pkt.f 127 112, mem.patrolEn := bit c.pkt.pnum 111 } : Block).done c 0 := by
  simp only [Block.startScrubCfg, if_neg (Nat.not_lt.mpr h)]

theorem startDomainSet_discard (hfault : b.domainFault c = none) (hm : c.pkt.f 164 164 = 0) : b.startDomainSet c =
    (((List.range (c.pkt.f 203 172)).map (· + c.pkt.f 255 204 / 0x10000)).foldl (fun (b : Block) g =>
      b.zeroPage g (mkAttr (c.pkt.f 171 168) (c.pkt.f 167 165) true false false)) b).done c 0 := by
  simp only [Block.startDomainSet, hfault, bit_pnum_eq, hm, zero_ne_one, decide_false, Bool.false_eq_true, if_false]
  rfl

theorem startDomainSet_move (hfault : b.domainFault c = none) (hm : c.pkt.f 164 164 = 1) : b.startDomainSet c =
    { b with mem.walks := b.mem.walks ++ [{
      domain := c.pkt.f 171 168, cmd := c.id,
      touches := (c.pkt.f 171 168 :: ((List.range (c.pkt.f 203 172)).map (· + c.pkt.f 255 204 / 0x10000)).map
        (fun g => attrDomain (b.attr g))).eraseDups,
      pos := c.pkt.f 255 204 / 0x10000, last := c.pkt.f 255 204 / 0x10000 + c.pkt.f 203 172, gran := 0,
      move := some (c.pkt.f 171 168, c.pkt.f 167 165), old := none }] } := by
  simp only [Block.startDomainSet, hfault, bit_pnum_eq, hm, decide_true, if_true]
  rfl

/-- Settles O20: an ordinary range is filled by one write; DISCARD zeroes the pages, MOVE starts a walk. -/
theorem memCommandsComplete : Obligations.MemCommandsComplete := by
  unfold Obligations.MemCommandsComplete
  intro s p c b1 hentry
  have hop : ∀ {n}, p.opcode = n → c.pkt.opcode = n := fun h => (packetEntry_opcode hentry).trans h
  refine ⟨?fill, fun ho hn => ?scrub, ?domain⟩
  case fill =>
    intro ho da n b2 hal hpos hmul hin hpages hwrite
    exact packet_next hentry ho rfl (by decide)
      ((engineStart_memFill b1 (hop ho)).trans (startMemFill_of_right hal hpos hmul hin hpages hwrite))
  case scrub =>
    exact packet_next hentry ho rfl (by decide) ((engineStart_scrubCfg b1 (hop ho)).trans (startScrubCfg_of_right hn))
  case domain =>
    intro ho hfault g0 n dom cls pages
    refine ⟨fun hm => ?_, fun hm w hw => ?_⟩
    · exact packet_next hentry ho (decide_eq_true hm) (by decide)
        ((engineStart_domainSet b1 (hop ho)).trans (startDomainSet_discard hfault hm))
    · subst hw
      exact packet_next hentry ho (decide_eq_true hm) (by decide)
        ((engineStart_domainSet b1 (hop ho)).trans (startDomainSet_move hfault hm))

/-! ### Events -/

/-- PATROL_SCRUB of a populated location of an active pseudo-channel, while the patrol runs. -/
theorem patrol_of_active {q loc da : Nat} {upsets : List (Nat × Nat)} {retryOk perm : Bool} (hup : b.stacksUp = true)
    (hawake : b.pow.sleep ≠ .asleep 2) (hen : b.mem.patrolEn = true ∨ b.shut.shut = true) (hq : q < 768) (hloc : loc < 1233824)
    (hst : (b.pc q).st = .active) (hda : b.daAt q loc = some da) (hz : attrZeroed (b.attr (pageOf da)) = false) {b' : Block}
    (hb' : b' = (Block.sweep da retryOk perm { b with
        mem.errs := upsets.foldl (fun (m : Sparse Nat) (u : Nat × Nat) =>
          m.upd 0 (da / 16 + u.1 % 128) (fun e => e ^^^ (u.2 % 2 ^ 144))) b.mem.errs }).1) :
    b.patrol q loc upsets retryOk perm =
      if (768 - (b'.mem.pcs.filter (fun (e : Nat × Pc) => e.2.st ≠ .active && e.2.st ≠ .degraded)).length) * 1233824 ≤
          b'.mem.patrolled + 1 then
        { b' with mem.patrolled := 0, mem.scrubPasses := (b'.mem.scrubPasses + 1) % 2 ^ 32 }
      else { b' with mem.patrolled := b'.mem.patrolled + 1 } := by
  have hrun : (!b.stacksUp || decide (b.pow.sleep = Sleeping.asleep 2)) = false := by simp [hup, hawake]
  have hidle : ((!b.mem.patrolEn && !b.shut.shut) || decide (768 ≤ q) || decide (1233824 ≤ loc) ||
      (decide ((b.pc q).st ≠ .active) && decide ((b.pc q).st ≠ .degraded))) = false := by
    rcases hen with h | h <;> simp [h, hst, Nat.not_le.mpr hq, Nat.not_le.mpr hloc]
  subst hb'
  unfold Block.patrol
  dsimp only
  rw [if_neg (Bool.eq_false_iff.mp hrun), if_neg (Bool.eq_false_iff.mp hidle)]
  simp only [hda, hz, Bool.false_eq_true, if_false]

theorem migrationCopy_of_location {q da : Nat} (hmig : b.migrating = some q) (hshut : b.shut.shut = false)
    (hloc : b.mem.migNext < 1233760) (hnew : b.mem.migrated.contains b.mem.migNext = false)
    (hda : b.daAt q b.mem.migNext = some da) (hz : attrZeroed (b.attr (pageOf da)) = false) :
    b.migrationCopy = { (b.sweep da false false).1 with
      mem.migNext := b.mem.migNext + 1, mem.migPoison := b.mem.migPoison ++ (b.sweep da false false).2 } := by
  have hgo : (b.shut.shut || decide (1233760 ≤ b.mem.migNext)) = false := by simp [hshut, hloc]
  simp only [Block.migrationCopy, hmig]
  rw [if_neg (Bool.eq_false_iff.mp hgo)]
  simp only [hnew, hda, hz, Bool.false_eq_true, if_false]

/-- An Almanac change leaves the lists of memory alone. -/
theorem almanacChange_mig (st u i d n : Nat) (b : Block) : (b.almanacChange st u i d n).mem.migPoison = b.mem.migPoison ∧
    (b.almanacChange st u i d n).mem.migQueue = b.mem.migQueue := by
  unfold Block.almanacChange
  dsimp only
  generalize hb' : ({ b with alm.generation := (b.alm.generation + 1) % 2 ^ 32 } : Block) = b'
  have hp : b'.mem = b.mem := by rw [← hb']
  rw [← hp]
  exact ⟨by obtain ⟨_, _, _, _, _, _, h⟩ := logEntry_noted _ b'; rw [h], by obtain ⟨_, _, _, _, _, _, h⟩ := logEntry_noted _ b'; rw [h]⟩

theorem migrationDone_of_last {q : Nat} (hmig : b.migrating = some q) (hshut : b.shut.shut = false)
    (hloc : 1233760 ≤ b.mem.migNext) (hqueue : b.mem.migQueue = []) (hpois : b.mem.migPoison = []) {b' : Block}
    (hb' : b' = (b.setPc q { b.pc q with st := .retired }).almanacChange Status.pcRetired 2 q 0 0) :
    b.migrationDone = { b' with
      mer.running := b'.mer.running.map (fun (c : Cmd) => { c with acq := c.acq ++ [Status.pcRetired + loggedMark] }),
      mem.migNext := 0, mem.migrated := [], mem.migPoison := [] } := by
  have hgo : (b.shut.shut || decide (b.mem.migNext < 1233760)) = false := by simp [hshut, hloc]
  obtain ⟨hp, hq⟩ := almanacChange_mig Status.pcRetired 2 q 0 0 (b.setPc q { b.pc q with st := .retired })
  have hp' := hp.trans hpois
  have hq' := hq.trans hqueue
  subst hb'
  unfold Block.migrationDone
  simp only [hmig, hgo, hp', hq', List.isEmpty_nil, if_true, Bool.false_eq_true, if_false]

section
variable {d g : Nat} {w v : Walk} (hwalk : b.activeWalk d = some w) (hshut : b.shut.shut = false)
include hwalk hshut

theorem walkerGranule_eq (hpage : b.walkPage w = some g) (hv : v = (if g = w.pos then w else { w with pos := g, gran := 0 })) {b' : Block}
    (hb' : b' = (if attrZeroed (b.attr g) then b else (b.sweep (g * 0x10000 + 2048 * v.gran) false false).1)) :
    b.walkerGranule d =
      if v.gran < 31 then b'.setWalk { v with gran := v.gran + 1 }
      else
        match v.move with
        | some (dom, cls) =>
          (b'.setWalk { v with pos := g + 1, gran := 0 }).setAttr g (mkAttr dom cls
            (attrZeroed ((b'.setWalk { v with pos := g + 1, gran := 0 }).attr g))
            (attrWp ((b'.setWalk { v with pos := g + 1, gran := 0 }).attr g))
            (attrCodec ((b'.setWalk { v with pos := g + 1, gran := 0 }).attr g)))
        | none => b'.setWalk { v with pos := g + 1, gran := 0 } := by
  subst hb'
  subst hv
  simp only [Block.walkerGranule, hwalk, hshut, hpage, Bool.false_eq_true, if_false] <;> rfl

theorem walkDone_of_end (hpage : b.walkPage w = none) : b.walkDone d =
    Block.completeId w.cmd Status.ok 0 0 { b with mem.walks := b.mem.walks.filter (fun v => v.cmd ≠ w.cmd) } := by
  simp only [Block.walkDone, hwalk, hshut, hpage, Option.isSome_none, Bool.or_self, Bool.false_eq_true, if_false]

end

theorem memTemp_of_stack {h temp : Nat} (hh : h < 24) (hup : b.stacksUp = true) : b.memTemp h temp = { b with
    mem.temps := b.mem.temps.set (0, 0, 0) h
      (Nat.min temp 255, 1, zoneOf (b.mem.temps.get (0, 0, 0) h).2.2 (Nat.min temp 255)) } := by
  have hgo : (decide (24 ≤ h) || !b.stacksUp) = false := by simp [hup, hh]
  unfold Block.memTemp
  rw [if_neg (Bool.eq_false_iff.mp hgo)]

/-- Settles O21: each event past its guards. A migration and a walk read by the background path, which makes no retry of its own and
names no permanent fault (log 50, 55); the zone of a sample is log entry 113. -/
theorem memEvents : Obligations.MemEvents := by
  unfold Obligations.MemEvents
  intro s
  refine ⟨?patrol, ?copy, ?done, ?granule, ?walked, ?temp⟩
  case patrol =>
    intro q loc da upsets retryOk perm hup hawake hen hq hloc hst hda hz b hb live
    exact run_put (patrol_of_active hup hawake hen hq hloc hst hda hz hb)
  case copy =>
    intro q da hmig hshut hloc hnew hda hz
    exact run_put (migrationCopy_of_location hmig hshut hloc hnew hda hz)
  case done =>
    intro q hmig hshut hloc hqueue hpois b
    exact run_put (migrationDone_of_last hmig hshut hloc hqueue hpois rfl)
  case granule =>
    intro d g w v hwalk hshut hpage hv b hb
    have h := walkerGranule_eq hwalk hshut hpage hv hb
    refine ⟨fun hgran => run_put (h.trans (if_pos hgran)), fun hgran dom cls hmove => ?_⟩
    refine run_put (h.trans ((if_neg (Nat.not_lt.mpr hgran)).trans ?_))
    split
    · rename_i heq
      cases hmove.symm.trans heq
      rfl
    · rename_i heq
      cases hmove.symm.trans heq
  case walked =>
    intro d w hwalk hshut hpage
    exact run_put (walkDone_of_end hwalk hshut hpage)
  case temp =>
    intro h temp hh hup
    exact run_put (memTemp_of_stack hh hup)

end Sys2Proof.Machine
end

section
/-!
PROOFS. The commands of the codec (R276, R298): a DESTROY waits for the tier commands at work on its map, so the statement, which
asks only that no page is held back, fails.
-/

namespace Sys2Proof.Machine

variable {b : Block} {c : Cmd} {m : CMap}

/-- DESTROY of a map on whose pages a tier command is at work waits (R276). -/
theorem startCodecMap_waits (ha : c.pkt.f 511 508 = 1) (hm : b.mapNum (c.pkt.f 507 502) = some m)
    (ht : b.tierOn m 0 m.pages = true) : b.startCodecMap c = b.setWork c.id .scaleWait := by
  simp only [Block.startCodecMap, ha, hm, ht, Bool.or_true, if_true, one_ne_zero, if_false]
  rfl

theorem mapDrop_maps (m : CMap) (b : Block) : (b.mapDrop m).codec.maps = b.codec.maps.filter (fun x => x.num ≠ m.num) := by
  have hfold : ∀ (l : List Nat) (b : Block), (l.foldl (fun (b : Block) g =>
      b.zeroPage g (mkAttr (attrDomain (b.attr g)) (attrClass (b.attr g)) true (attrWp (b.attr g)) false)) b).codec = b.codec := by
    intro l
    induction l with
    | nil => exact fun _ => rfl
    | cons g l ih => exact fun b => ih _
  unfold Block.mapDrop
  exact congrArg Codec.maps (hfold _ _)

/-- Passing the ring's pointers leaves the codec alone. -/
theorem past_codec (b0 : Block) (p : Packet) (b : Block) : (b0.past p b).codec = b.codec := by
  obtain ⟨_, h⟩ := past_eq b0 p b
  rw [h]

/-! ### The counterexample -/

/-- A map of one page group at page 1, its entries at page 2. -/
def busyMap : CMap :=
  { num := 0, da := 0x10000, count := 1, entryDa := 0x20000, mode := 0, elem := 0, fs := 0, key := 1, m := 0, floor := 0,
    tableMask := 1, tables := [] }

/-- A packet of ring 0 and job 7, its CHECK as R48 gives it. -/
def codecPacket (op : Nat) (params : List Byte) : Packet :=
  let h := fields [(0, op), (16, ceilDiv (64 + params.length) 64), (24, params.length), (128, 7)]
  { src := .ring 0, hdr := BitVec.ofNat 512 (h + 2 ^ 480 * crc32c ((leBytes 64 h).take 60 ++ params)), params := params }

/-- An OFFLOAD of page 0 of the map that moves. -/
def movingOffload : Cmd :=
  { id := 9, pkt := codecPacket 0x0601 (leBytes 64 (fields [(408, 0x8000000000000), (368, 8192), (176, 1)])), ring := 0,
    sealedOk := none, acq := [], detail := 0, result := 0, rsp := [], fmts := 0,
    work := .tier {
      channel := 0, phase := .moving, ctr := 0, moved := 64, total := some 64, late := false, buf := [], waiting := 0,
      flushAsked := false, flushed := false } }

/-- A module that is READY, ring 0 enabled in HBM, job 7 bound, the map created and the OFFLOAD running. -/
def busyCodec : State :=
  let b := Block.powerOn
  let cfg : RingCfg := { RingCfg.zero with loc := true }
  { pending := []
    blk := { b with
      boot.phase := .ready, boot.ready := true, boot.perst := false, trust.job := 7, host.linkUp := true,
      codec.maps := [busyMap], mer.running := [movingOffload],
      mer.rings := [(0, { Ring.zero with enable := true, cfg := cfg, latched := cfg, subTail := 60 })] } }

/-- DESTROY of map 0. -/
def destroyPacket : Packet := codecPacket 0x0501 (leBytes 64 (fields [(508, 1)]))

/-- The DESTROY is dispatched at once, no page of its map is held back, and the OFFLOAD works on the map. -/
theorem busyCodec_entry : (busyCodec.blk.packetEntry destroyPacket).any (fun x =>
    x.2.mapNum (x.1.pkt.f 507 502) = some busyMap && x.1.pkt.f 511 508 = 1 &&
      (pagesOf busyMap.da (0x10000 * busyMap.count)).all (fun g => !attrWp (x.2.attr g)) &&
      x.2.tierOn busyMap 0 busyMap.pages) = true := by decide +kernel

/-- Refutes O22: in `busyCodec` the DESTROY waits for the OFFLOAD (R276), so its map stands, where the statement drops it. -/
theorem not_codecCommandsComplete : ¬ Obligations.CodecCommandsComplete := by
  unfold Obligations.CodecCommandsComplete
  intro h
  obtain ⟨⟨c, b1⟩, hentry, hmeets⟩ := (Option.any_eq_true _ _).mp busyCodec_entry
  simp only [Bool.and_eq_true, decide_eq_true_eq] at hmeets
  obtain ⟨⟨⟨hm, ha⟩, hwp⟩, ht⟩ := hmeets
  have ho : destroyPacket.opcode = 0x0501 := by decide +kernel
  obtain ⟨-, -, hmaps, -⟩ := h busyCodec destroyPacket c b1 hentry
  have hclaim := (hmaps busyMap ho hm).1 ha hwp
  have hreal : exec (.codecMapDestroy destroyPacket) busyCodec =
      .next (busyCodec.after destroyPacket (b1.setWork c.id .scaleWait)) :=
    packet_next hentry ho (decide_eq_true ha) (by decide)
      ((engineStart_codecMap b1 ((packetEntry_opcode hentry).trans ho)).trans (startCodecMap_waits ha hm ht))
  have hmapsEq : b1.codec.maps = b1.codec.maps.filter (fun x => x.num ≠ busyMap.num) := by
    have := congrArg (fun s : State => s.blk.codec.maps) (Host.Outcome.next.inj (hreal.symm.trans hclaim))
    simp only [State.after, past_codec, (done_apart c 0 (b1.mapDrop busyMap)).codec, mapDrop_maps] at this
    exact this
  have hin : busyMap ∈ b1.codec.maps := List.mem_of_find?_eq_some hm
  rw [hmapsEq] at hin
  exact absurd (List.mem_filter.mp hin).2 (by decide)

end Sys2Proof.Machine
end

section
/-!
PROOFS. The tier mover (R296 to R305): a command enters its channel, waits, moves and commits. That the Tally takes an OFFLOAD's bytes
at their place in the map, and an envelope's plaintext 32 bytes into its destination, is log entry 62.
-/

namespace Sys2Proof.Machine

variable {b : Block} {c : Cmd} {w : TierWork} {ch : Nat}

/-- A tier command that passes its checks waits in its channel. -/
theorem startTier_of_right (h : b.tierFault c = none) {w : TierWork} (hw : w = {
      channel := c.pkt.f 169 164, phase := .queued, ctr := if c.envOut then b.tier.ctr else 0, moved := 0, total := none,
      late := false, buf := [], waiting := 0, flushAsked := false, flushed := false }) :
    b.startTier c = (((if c.envOut then { b with tier.ctr := b.tier.ctr + 1 } else b).setWork c.id (.tier w)).tallyStart 0
      w.channel c.id).tallyStart 1 w.channel c.id := by
  subst hw
  simp only [Block.startTier, h]
  rfl

/-- Settles O23: the three commands share one start. -/
theorem tierCommandsStart : Obligations.TierCommandsStart := by
  unfold Obligations.TierCommandsStart
  intro s p c b1 hentry hfault w hw b2 b3
  have hop : ∀ {n}, p.opcode = n → c.pkt.opcode = n := fun h => (packetEntry_opcode hentry).trans h
  have h := startTier_of_right hfault hw
  refine ⟨fun ho => ?_, fun ho => ?_, fun ho => ?_⟩
  · exact packet_next hentry ho rfl (by decide) ((engineStart_tier b1 (.inl (hop ho))).trans h)
  · exact packet_next hentry ho rfl (by decide) ((engineStart_tier b1 (.inr (.inl (hop ho)))).trans h)
  · exact packet_next hentry ho rfl (by decide) ((engineStart_tier b1 (.inr (.inr (hop ho)))).trans h)

/-! ### Which command it is -/

theorem isOffload_of_ne (h : c.pkt.opcode ≠ 0x0601) : c.isOffload = false := decide_eq_false h
theorem isOffload_of_eq (h : c.pkt.opcode = 0x0601) : c.isOffload = true := decide_eq_true h
theorem isCopy_of_eq (h : c.pkt.opcode = 0x0600) : c.isCopy = true := decide_eq_true h
theorem isCopy_of_ne (h : c.pkt.opcode ≠ 0x0600) : c.isCopy = false := decide_eq_false h

/-! ### The course -/

section
variable (hhead : (b.tierQueue ch).head? = some (c, w))
include hhead

/-- The head of a channel, where it is in a phase. -/
theorem tierAt_of_head {ph : TierPhase} (h : w.phase = ph) : b.tierAt ch ph = some (c, w) := by
  simp only [Block.tierAt, hhead, Option.bind_some, h, if_true]

theorem tierHead_of_plain (hq : w.phase = .queued) (ho : c.pkt.opcode ≠ 0x0601) :
    b.tierHead ch = b.setWork c.id (.tier { w with phase := .waiting }) := by
  simp only [Block.tierHead, tierAt_of_head hhead hq, isOffload_of_ne ho, Bool.not_false, if_true]

theorem tierHead_of_offload {m : CMap} (hq : w.phase = .queued) (ho : c.pkt.opcode = 0x0601) (hm : b.mapNum c.tMap = some m)
    (hclose : (b.tierOpen m c).all (fun v => b.closable m v) = true) :
    b.tierHead ch = ((b.closePages m (b.tierOpen m c)).2.foldl (fun (b : Block) st => b.acquire c.id st)
      (b.closePages m (b.tierOpen m c)).1).setWork c.id (.tier { w with phase := .waiting }) := by
  simp only [Block.tierHead, tierAt_of_head hhead hq, isOffload_of_eq ho, hm, hclose, Bool.not_true, Bool.false_eq_true, if_false, if_true]

theorem tierNotBefore_of_due (hwait : w.phase = .waiting) (ho : c.pkt.opcode ≠ 0x0601)
    (hdue : c.pkt.f 367 304 = 0 ∨ b.sid.state = .unset ∨ b.sid.state = .lost ∨ c.pkt.f 367 304 ≤ b.now) :
    b.tierNotBefore ch = b.setWork c.id (.tier { w with
      phase := .moving, total := if c.isPrefetch || c.envIn then none else some (c.tLen + (if c.envOut then 48 else 0)) }) := by
  have hgo : (decide (c.tNotBefore = 0) || b.timeless || decide (c.tNotBefore ≤ b.now)) = true := by
    unfold Cmd.tNotBefore Block.timeless
    rcases hdue with h | h | h | h <;> simp [h]
  simp only [Block.tierNotBefore, tierAt_of_head hhead hwait, hgo, if_true, Block.tierBuild, isOffload_of_ne ho, Bool.false_eq_true,
    if_false]

theorem tierDeadline_of_late (hph : w.phase = .moving ∨ w.phase = .commit) (hlate : w.late = false) (hdl : c.pkt.f 303 240 ≠ 0)
    (hunset : b.sid.state ≠ .unset) (hlost : b.sid.state ≠ .lost) (hpast : c.pkt.f 303 240 < b.now) :
    b.tierDeadline ch = { b.setWork c.id (.tier { w with late := true }) with
      tier.late := Nat.min (b.tier.late + 1) (2 ^ 32 - 1) } := by
  have hgo : b.tierLate c w = true := by
    unfold Block.tierLate Block.timeless Cmd.tDeadline
    rcases hph with h | h <;> simp [h, hdl, hunset, hlost, hpast]
  simp only [Block.tierDeadline, hhead, hgo, if_true, Block.goLate, hlate, Bool.false_eq_true, if_false]

/-! ### The commit -/

section
variable (hph : w.phase = .moving ∨ w.phase = .commit) (hdone : Block.tierDone w = true)
include hph hdone

/-- TIER_COMMIT of a head that has moved its bytes: the flush of an OFFLOAD, then the commit once nothing holds it back. -/
theorem tierCommit_eq : b.tierCommit ch =
    if c.isOffload && !w.flushAsked then b.tierFlush c { w with phase := .commit }
    else if c.isOffload && !w.flushed then b
    else if !b.tierMayCommit c w (b.mapNum c.tMap) then b.setWork c.id (.tier { w with phase := .commit })
    else if c.isCopy then b.commitCopy c w
    else
      match b.mapNum c.tMap with
      | none => b.tierEnd c.id Status.badParam 3 0
      | some m => if c.isOffload then b.commitOffload c w m else b.commitPrefetch c w m := by
  have hgo : ((decide (w.phase ≠ .moving) && decide (w.phase ≠ .commit)) || !Block.tierDone w) = false := by
    rcases hph with h | h <;> simp [h, hdone]
  simp only [Block.tierCommit, hhead]
  rw [if_neg (Bool.eq_false_iff.mp hgo)] <;> rfl

theorem tierCommit_of_copy (ho : c.pkt.opcode = 0x0600) (hin : c.envIn = false) :
    b.tierCommit ch = b.commitCopy c w := by
  have hno : c.isOffload = false := isOffload_of_ne (by rw [ho]; decide)
  simp only [tierCommit_eq hhead hph hdone, hno, isCopy_of_eq ho, Block.tierMayCommit, hin, Bool.false_and, Bool.not_false, Bool.true_or,
    Bool.not_true, Bool.false_eq_true, if_false, if_true]

theorem tierCommit_of_unflushed (ho : c.pkt.opcode = 0x0601) (hask : w.flushAsked = false) :
    b.tierCommit ch = b.tierFlush c { w with phase := .commit } := by
  simp only [tierCommit_eq hhead hph hdone, isOffload_of_eq ho, hask, Bool.not_false, Bool.and_self, if_true]

theorem tierCommit_of_flushed {m : CMap} (ho : c.pkt.opcode = 0x0601) (hask : w.flushAsked = true) (hfl : w.flushed = true)
    (hm : b.mapNum c.tMap = some m) (hrel : c.tRelease = false) : b.tierCommit ch = b.commitOffload c w m := by
  have hno : c.isCopy = false := isCopy_of_ne (by rw [ho]; decide)
  simp only [tierCommit_eq hhead hph hdone, isOffload_of_eq ho, hno, hask, hfl, hm, hrel, Block.tierMayCommit, Bool.not_false, Bool.not_true,
    Bool.and_self, Bool.and_false, Bool.true_or, Bool.false_eq_true, if_false, if_true]

theorem tierCommit_of_prefetch {m : CMap} (ho : c.pkt.opcode = 0x0602) (hm : b.mapNum c.tMap = some m)
    (hmay : b.tierMayCommit c w (some m) = true) : b.tierCommit ch = b.commitPrefetch c w m := by
  have hno : c.isOffload = false := isOffload_of_ne (by rw [ho]; decide)
  have hnc : c.isCopy = false := isCopy_of_ne (by rw [ho]; decide)
  simp only [tierCommit_eq hhead hph hdone, hno, hnc, hm, hmay, Bool.false_and, Bool.not_true, Bool.false_eq_true, if_false]

end

end

theorem commitCopy_inbound (hin : c.envIn = false) (hib : c.inbound = true) : b.commitCopy c w = b.tierEnd c.id Status.ok 0 0 := by
  simp only [Block.commitCopy, hin, hib, Bool.false_eq_true, if_false, if_true]

theorem commitCopy_outgoing (hin : c.envIn = false) (hib : c.inbound = false) :
    b.commitCopy c w = (((if c.envOut then b.setLedgerOf c.tSet w.ctr else b).tallyData 0 w.channel c.id c.tSrc w.buf).tallyData 1
      w.channel c.id (c.tDst + (if c.envOut then 32 else 0)) w.buf).tierEnd c.id Status.ok 0 0 := by
  simp only [Block.commitCopy, hin, hib, Bool.false_eq_true, if_false]

theorem commitOffload_kept {m : CMap} (hrel : c.tRelease = false) :
    b.commitOffload c w m = (((if c.envOut then b.setLedgerOf c.tSet w.ctr else b).tallyData 0 w.channel c.id (m.da + 4096 * c.tFirst)
      w.buf).tallyData 1 w.channel c.id (c.tDst + (if c.envOut then 32 else 0)) w.buf).tierEnd c.id Status.ok 0
        (fields [(24, w.total.getD 0), (0, if c.envOut then w.ctr % 2 ^ 24 else 0)]) := by
  simp only [Block.commitOffload, hrel, Bool.false_eq_true, if_false]

/-- Settles O24: each event of the command at the head of its channel, in the phase it is in. -/
theorem tierCourse : Obligations.TierCourse := by
  unfold Obligations.TierCourse
  intro s ch c w hhead
  refine ⟨?head, ?offload, ?notBefore, ?deadline, ?commit⟩
  case head => exact fun hq ho => run_put (tierHead_of_plain hhead hq ho)
  case offload => exact fun m hq ho hm hclose => run_put (tierHead_of_offload hhead hq ho hm hclose)
  case notBefore => exact fun hwait ho hdue => run_put (tierNotBefore_of_due hhead hwait ho hdue)
  case deadline =>
    exact fun hph hlate hdl hunset hlost hpast => run_put (tierDeadline_of_late hhead hph hlate hdl hunset hlost hpast)
  case commit =>
    intro hph hdone
    refine ⟨?copy, ?unflushed, ?flushed, ?prefetch⟩
    case copy =>
      intro ho hin
      have h := tierCommit_of_copy hhead hph hdone ho hin
      refine ⟨fun hib => run_put (h.trans (commitCopy_inbound hin hib)), fun hib b hb => ?_⟩
      subst hb
      exact run_put (h.trans (commitCopy_outgoing hin hib))
    case unflushed => exact fun ho hask => run_put (tierCommit_of_unflushed hhead hph hdone ho hask)
    case flushed =>
      intro m ho hask hfl hm hrel b hb
      subst hb
      exact run_put ((tierCommit_of_flushed hhead hph hdone ho hask hfl hm hrel).trans (commitOffload_kept hrel))
    case prefetch => exact fun m ho hm hmay => run_put (tierCommit_of_prefetch hhead hph hdone ho hm hmay)

end Sys2Proof.Machine
end

section
/-!
PROOFS. Training numerics (R310 to R320, R380): SCALE_SET by ACTION, STEP_OPEN and STEP_CLOSE.
-/

namespace Sys2Proof.Machine

variable {b : Block} {c : Cmd}

/-- A write of the scale table that nothing holds back goes on. -/
theorem scaleWrite_free {da n : Nat} (h : b.scaleBlocked c da n = false) (go : Block → Block) : b.scaleWrite c da n go = go b := by
  simp only [Block.scaleWrite, h, Bool.false_eq_true, if_false]

theorem scaleInit_of_right (hnone : b.train.table = none) (hal : c.pkt.f 507 456 % 128 = 0) (hn : c.pkt.f 431 408 ≠ 0)
    (hmax : c.pkt.f 431 408 ≠ 0xFFFFFF)
    (hpages : b.pagesAll (c.pkt.f 507 456) (128 * (c.pkt.f 431 408 + 1)) (fun a => attrClass a = 3) = true)
    (hfree : b.scaleBlocked c (c.pkt.f 507 456) (128 * (c.pkt.f 431 408 + 1)) = false) :
    b.scaleInit c = ((List.range (c.pkt.f 431 408)).foldl
      (fun (b : Block) i => b.wr (scaleAddr (c.pkt.f 507 456) i) 128 scaleDefault)
      (({ b with train.table := some (c.pkt.f 507 456, c.pkt.f 431 408) } : Block).setStepRec stepDefault)).done c 0 := by
  simp only [Block.scaleInit, ssDa, ssCount, hnone, hal, hn, hmax, hpages, Option.isSome_none, ne_eq, not_true_eq_false, decide_false,
    Bool.not_true, Bool.or_self, Bool.false_eq_true, if_false, scaleWrite_free hfree]

section
variable {base m : Nat} (htab : b.train.table = some (base, m))
include htab

theorem scaleRecWrite_of_image {bs : List Byte} {b2 : Block} (hi : ¬ (m ≤ c.pkt.f 455 432 ∧ c.pkt.f 455 432 ≠ 0xFFFFFF))
    (hmap : localStatus (c.pkt.f 507 456) 128 = none) (hread : b.daRead (c.pkt.f 507 456) 128 = (.ok bs false, b2)) :
    b.scaleRecWrite c =
      if c.pkt.f 455 432 = 0xFFFFFF then
        if b2.stepIsOpen || !stepImageOk (leNat bs) then b2.refuse c Status.badParam 0
        else b2.scaleWrite c base 128 (fun b => (b.setStepRec (leNat bs)).done c 0)
      else if !b2.scaleImageOk (leNat bs) then b2.refuse c Status.badParam 0
      else b2.scaleWrite c (scaleAddr base (c.pkt.f 455 432)) 128 (fun b => (b.wr (scaleAddr base (c.pkt.f 455 432)) 128
        (if bits (leNat bs) 511 480 = 0 then leNat bs else b.recode (leNat bs))).done c 0) := by
  simp only [Block.scaleRecWrite, htab, ssIndex, ssDa, if_neg hi, hmap, cmdRead_clean hread]
  rfl

theorem scaleRecWrite_step {bs : List Byte} {b2 : Block} (hi : c.pkt.f 455 432 = 0xFFFFFF)
    (hmap : localStatus (c.pkt.f 507 456) 128 = none) (hread : b.daRead (c.pkt.f 507 456) 128 = (.ok bs false, b2))
    (hclosed : b2.stepIsOpen = false) (himg : stepImageOk (leNat bs) = true) (hfree : b2.scaleBlocked c base 128 = false) :
    b.scaleRecWrite c = (b2.setStepRec (leNat bs)).done c 0 := by
  rw [scaleRecWrite_of_image htab (fun h => h.2 hi) hmap hread, if_pos hi, hclosed, himg, scaleWrite_free hfree]
  rfl

theorem scaleRecWrite_record {bs : List Byte} {b2 : Block} (hlt : c.pkt.f 455 432 < m) (hi : c.pkt.f 455 432 ≠ 0xFFFFFF)
    (hmap : localStatus (c.pkt.f 507 456) 128 = none) (hread : b.daRead (c.pkt.f 507 456) 128 = (.ok bs false, b2))
    (himg : b2.scaleImageOk (leNat bs) = true) (hfree : b2.scaleBlocked c (scaleAddr base (c.pkt.f 455 432)) 128 = false) :
    b.scaleRecWrite c = (b2.wr (scaleAddr base (c.pkt.f 455 432)) 128
      (if bits (leNat bs) 511 480 = 0 then leNat bs else b2.recode (leNat bs))).done c 0 := by
  rw [scaleRecWrite_of_image htab (fun h => absurd h.1 (Nat.not_le.mpr hlt)) hmap hread, if_neg hi, himg, scaleWrite_free hfree]
  rfl

/-- FOLD whose fold neither repeats nor reports a non-finite or saturated element, and asks for no addition. -/
theorem scaleFold_of_plain {bs rb : List Byte} {b2 b3 b4 : Block} {r : Nat} {again : Bool} (hlt : c.pkt.f 455 432 < m)
    (hn : 0 < c.pkt.f 431 408) (hmax : c.pkt.f 431 408 ≤ 4096) (hal : c.pkt.f 507 456 % 64 = 0)
    (hmap : localStatus (c.pkt.f 507 456) (64 * c.pkt.f 431 408) = none)
    (hfree : b.scaleBlocked c (scaleAddr base (c.pkt.f 455 432)) 128 = false)
    (hread : b.daRead (c.pkt.f 507 456) (64 * c.pkt.f 431 408) = (.ok bs false, b2))
    (hrec : b2.daRead (scaleAddr base (c.pkt.f 455 432)) 128 = (.ok rb false, b3))
    (hfold : b3.foldRecord c base (c.pkt.f 455 432) (leNat rb) (combineCensus bs (c.pkt.f 431 408)) (c.pkt.f 385 384) 0
      (bit (c.pkt.f 383 383) 0) false = (r, again, b4))
    (hagain : again = false) (hnon : bit r 205 = false) (hsat : bit r 203 = false) (hadd : c.pkt.f 394 394 = 0) :
    b.scaleFold c = b4.completeId c.id Status.ok (fields [(2, b2n (bit r 204))])
      (fields [(32, Nat.min (combineCensus bs (c.pkt.f 431 408)).sat (2 ^ 32 - 1)), (0, bits r 271 240)]) := by
  have hargs : ¬ (m ≤ c.pkt.f 455 432 ∨ c.pkt.f 431 408 = 0 ∨ 4096 < c.pkt.f 431 408 ∨ c.pkt.f 507 456 % 64 ≠ 0) := by omega
  have hdetail : ∀ x, fields [(0, b2n false), (1, b2n false), (2, x), (3, b2n false)] = fields [(2, x)] := fun x => by
    simp [fields, b2n]
  simp only [Block.scaleFold, htab, ssIndex, ssDa, ssCount, if_neg hargs, hmap, scaleWrite_free hfree, cmdRead_clean hread,
    cmdRead_clean hrec, hfold, hagain, hnon, hsat, hadd, hdetail, zero_ne_one, decide_false, Bool.false_and, Bool.false_eq_true, if_false]

theorem scaleBind_away (hi : c.pkt.f 455 432 = 0xFFFFFF) : b.scaleBind c =
    ({ b with train.binds := b.train.binds.set none (c.pkt.f 393 386) none } : Block).done c 0 := by
  simp only [Block.scaleBind, htab, ssIndex, hi, if_true]

theorem scaleBind_record (hlt : c.pkt.f 455 432 < m) (hi : c.pkt.f 455 432 ≠ 0xFFFFFF) : b.scaleBind c =
    ({ b with train.binds := b.train.binds.set none (c.pkt.f 393 386) (some (c.pkt.f 455 432)) } : Block).done c 0 := by
  simp only [Block.scaleBind, htab, ssIndex, if_neg hi, if_neg (Nat.not_le.mpr hlt)]

theorem stepOpen_of_agreeing {h : Nat} {l0 : Ledger} {ls : List (Nat × Ledger)} (hfree : b.scaleBlocked c base 128 = false)
    (hls : b.ledgerList = (h, l0) :: ls) (hclosed : b.stepIsOpen = false) (hvalid : b.train.invalid = [])
    (hstep : ∀ x ∈ ls, x.2.stepNext = l0.stepNext) {b2 : Block}
    (hb2 : b2 = { b.onLedgers Ledger.openS with train := { (b.onLedgers Ledger.openS).train with
      flagged := false, late := false, tested := false, before := b.stepRec, updStep := l0.stepNext, updStarted := 0,
      updFinal := 0, finals := [] } }) :
    b.stepOpen c = (b2.setStepRec (putBits (putBits (putBits (setBit (setBit b.stepRec 428 true) 429 true) 431 430 0) 479 456 0xFFFFFF)
      639 576 b2.openStep)).done c 0 := by
  have hany : ((h, l0) :: ls).any (fun l => decide (l.2.stepNext ≠ l0.stepNext)) = false := by
    refine any_eq_false_of_all_not (List.all_eq_true.mpr fun x hx => ?_)
    rcases List.mem_cons.mp hx with rfl | hx
    · simp
    · simp [hstep x hx]
  subst hb2
  simp only [Block.stepOpen, htab, hls, List.head?_cons, hclosed, hvalid, List.isEmpty_nil, hany, Bool.not_true, Bool.or_self,
    Bool.false_eq_true, if_false, scaleWrite_free hfree]
  rfl

theorem stepClose_of_combined (hfree : b.scaleBlocked c base 128 = false) (hopen : b.stepIsOpen = true)
    (hcomb : bits b.stepRec 431 430 ≠ 0) : b.stepClose c =
      ((b.setStepRec (stepClosed b.stepRec)).onLedgers (fun l => { l with openStep := 0 })).done c
        (fields [(0, bits (stepClosed b.stepRec) 455 448), (32, bits (stepClosed b.stepRec) 575 544)]) := by
  simp only [Block.stepClose, htab, hopen, hcomb, decide_false, Bool.not_true, Bool.or_self, Bool.false_eq_true, if_false,
    scaleWrite_free hfree]

end

/-- Settles O25: every ACTION past its checks, its write not held back. -/
theorem trainingCommands : Obligations.TrainingCommands := by
  unfold Obligations.TrainingCommands
  refine ⟨?scale, ?step⟩
  case scale =>
    intro s p c b1 hentry ho da i n
    have hstart := engineStart_scale b1 ((packetEntry_opcode hentry).trans ho)
    refine ⟨?init, fun base m bs b2 htab => ⟨fun ha hmap hread => ⟨?writeStep, ?writeRecord⟩, ?fold, ?away, ?bind⟩⟩
    case init =>
      rintro ha hnone hal hn hmax hpages hfree b2 rfl
      have hgo : b1.startScale c = b1.scaleInit c := by rw [Block.startScale, ha]; rfl
      exact packet_next hentry ho (decide_eq_true ha) (by decide)
        (hstart.trans (hgo.trans (scaleInit_of_right hnone hal hn hmax hpages hfree)))
    case writeStep =>
      intro hi hm hclosed himg hfree
      have hgo : b1.startScale c = b1.scaleRecWrite c := by rw [Block.startScale, ha]; rfl
      exact packet_next hentry ho (decide_eq_true ha) (by decide)
        (hstart.trans (hgo.trans (scaleRecWrite_step htab hi hmap hread hclosed himg hfree)))
    case writeRecord =>
      intro hlt hi himg hfree
      have hgo : b1.startScale c = b1.scaleRecWrite c := by rw [Block.startScale, ha]; rfl
      exact packet_next hentry ho (decide_eq_true ha) (by decide)
        (hstart.trans (hgo.trans (scaleRecWrite_record htab hlt hi hmap hread himg hfree)))
    case fold =>
      intro ha hlt hn hmax hal hmap hfree hread rb b3 hrec r again b4 hfold hagain hnon hsat hadd
      have hgo : b1.startScale c = b1.scaleFold c := by rw [Block.startScale, ha]; rfl
      exact packet_next hentry ho (decide_eq_true ha) (by decide)
        (hstart.trans (hgo.trans (scaleFold_of_plain htab hlt hn hmax hal hmap hfree hread hrec hfold hagain hnon hsat hadd)))
    case away =>
      intro ha hi
      have hgo : b1.startScale c = b1.scaleBind c := by rw [Block.startScale, ha]; rfl
      exact packet_next hentry ho (decide_eq_true ha) (by decide) (hstart.trans (hgo.trans (scaleBind_away htab hi)))
    case bind =>
      intro ha hlt hi
      have hgo : b1.startScale c = b1.scaleBind c := by rw [Block.startScale, ha]; rfl
      exact packet_next hentry ho (decide_eq_true ha) (by decide) (hstart.trans (hgo.trans (scaleBind_record htab hlt hi)))
  case step =>
    intro s p c b1 hentry ho base n htab hfree
    have hstart := engineStart_scale b1 ((packetEntry_opcode hentry).trans ho)
    refine ⟨?opens, ?closes⟩
    case opens =>
      intro h l0 ls ha hls hclosed hvalid hstep b2 hb2
      have hgo : b1.startScale c = b1.stepOpen c := by rw [Block.startScale, ha]; rfl
      exact packet_next hentry ho (decide_eq_true ha) (by decide)
        (hstart.trans (hgo.trans (stepOpen_of_agreeing htab hfree hls hclosed hvalid hstep hb2)))
    case closes =>
      intro ha hopen hcomb
      have hgo : b1.startScale c = b1.stepClose c := by rw [Block.startScale, ha]; rfl
      exact packet_next hentry ho (decide_eq_true ha) (by decide)
        (hstart.trans (hgo.trans (stepClose_of_combined htab hfree hopen hcomb)))

end Sys2Proof.Machine
end

section
/-!
SUPPORT. A write of local memory never changes the ranks a module emulates, whatever it meets on its way: closing and losing codec
pages, faults of memory, and the entry into Shutter these may bring.
-/

namespace Sys2Proof.Machine

variable {b : Block}

/-- A fold over steps that keep the emulated ranks keeps them. -/
theorem foldl_emul {α : Type} {f : Block → α → Block} (hf : ∀ (b : Block) x, (f b x).fab.emul = b.fab.emul) :
    ∀ (l : List α) (b : Block), (l.foldl f b).fab.emul = b.fab.emul
  | [], _ => rfl
  | x :: l, b => (foldl_emul hf l (f b x)).trans (hf b x)

theorem foldl_fst_emul {α β : Type} {f : Block × β → α → Block × β} (hf : ∀ a x, (f a x).1.fab.emul = a.1.fab.emul) :
    ∀ (l : List α) (a : Block × β), (l.foldl f a).1.fab.emul = a.1.fab.emul
  | [], _ => rfl
  | x :: l, a => (foldl_fst_emul hf l (f a x)).trans (hf a x)

theorem ite_emul {p : Prop} [Decidable p] {a c d : Block} (ha : a.fab.emul = d.fab.emul) (hc : c.fab.emul = d.fab.emul) :
    (if p then a else c).fab.emul = d.fab.emul := by
  split
  · exact ha
  · exact hc

theorem ite_some_emul {p : Prop} [Decidable p] {x y : Option Block} {d b' : Block} (hx : ∀ b', x = some b' → b'.fab.emul = d.fab.emul)
    (hy : ∀ b', y = some b' → b'.fab.emul = d.fab.emul) (h : (if p then x else y) = some b') : b'.fab.emul = d.fab.emul := by
  split at h
  · exact hx _ h
  · exact hy _ h

theorem ite_fst_emul {β : Type} {p : Prop} [Decidable p] {x y : Block × β} {d : Block} (hx : x.1.fab.emul = d.fab.emul)
    (hy : y.1.fab.emul = d.fab.emul) : (if p then x else y).1.fab.emul = d.fab.emul := by
  split
  · exact hx
  · exact hy

/-! ### Records and completions -/

@[simp] theorem logError_emul (st u i d n : Nat) (b : Block) : (b.logError st u i d n).fab.emul = b.fab.emul :=
  congrArg Fabric.emul (logError_apart st u i d n b).fab
@[simp] theorem logState_emul (st n : Nat) (b : Block) : (b.logState st n).fab.emul = b.fab.emul :=
  congrArg Fabric.emul (logState_apart st n b).fab
@[simp] theorem complete_emul (c : Cmd) (st d r : Nat) (b : Block) : (b.complete c st d r).fab.emul = b.fab.emul :=
  congrArg Fabric.emul (complete_apart c st d r b).fab
@[simp] theorem completeId_emul (id st d r : Nat) (b : Block) : (b.completeId id st d r).fab.emul = b.fab.emul :=
  congrArg Fabric.emul (completeId_apart id st d r b).fab
@[simp] theorem almanacChange_emul (st u i d n : Nat) (b : Block) : (b.almanacChange st u i d n).fab.emul = b.fab.emul :=
  congrArg Fabric.emul (logEntry_apart _ _).fab

/-! ### Single fields -/

@[simp] theorem setAttr_emul (p a : Nat) (b : Block) : (b.setAttr p a).fab.emul = b.fab.emul := rfl
@[simp] theorem setPool_emul (pl : Pool) (b : Block) : (b.setPool pl).fab.emul = b.fab.emul := rfl
@[simp] theorem free_emul (w : Nat) (b : Block) : (b.free w).2.fab.emul = b.fab.emul := rfl
@[simp] theorem setCmd_emul (c : Cmd) (b : Block) : (b.setCmd c).fab.emul = b.fab.emul := rfl
@[simp] theorem setTile_emul (t : Nat) (x : Tile) (b : Block) : (b.setTile t x).fab.emul = b.fab.emul := rfl
@[simp] theorem onTile_emul (t : Nat) (f : Tile → Tile) (b : Block) : (b.onTile t f).fab.emul = b.fab.emul := rfl

/-! ### Memory -/

@[simp] theorem unzero_emul (da n : Nat) (b : Block) : (b.unzero da n).fab.emul = b.fab.emul := by
  unfold Block.unzero
  refine ite_emul rfl (foldl_emul (fun b p => ?_) _ _)
  exact ite_emul (setAttr_emul _ _ b) rfl

@[simp] theorem markMigrated_emul (da n : Nat) (b : Block) : (b.markMigrated da n).fab.emul = b.fab.emul := by
  unfold Block.markMigrated
  split
  · refine ite_emul (foldl_emul (fun b i => ?_) _ _) rfl
    dsimp only
    split <;> rfl
  · rfl

@[simp] theorem memWrite_emul (da : Nat) (bs : List Byte) (b : Block) : (b.memWrite da bs).fab.emul = b.fab.emul := by
  have h : ((b.unzero da bs.length).markMigrated da bs.length).fab.emul = b.fab.emul := by simp
  unfold Block.memWrite
  exact ite_emul (ite_emul h h) (ite_emul h h)

@[simp] theorem wr_emul (da n v : Nat) (b : Block) : (b.wr da n v).fab.emul = b.fab.emul := memWrite_emul _ _ _

/-! ### Commands that end (R33) -/

@[simp] theorem onPageE_emul (pl : Pool) (p : Nat) (f : PageE → PageE) (b : Block) : (b.onPageE pl p f).fab.emul = b.fab.emul :=
  wr_emul _ _ _ _
@[simp] theorem setPageE_emul (pl : Pool) (p : Nat) (e : PageE) (b : Block) : (b.setPageE pl p e).fab.emul = b.fab.emul := wr_emul _ _ _ _
@[simp] theorem setSeqE_emul (pl : Pool) (q : Nat) (e : SeqE) (b : Block) : (b.setSeqE pl q e).fab.emul = b.fab.emul := wr_emul _ _ _ _

@[simp] theorem freePage_emul (p : Nat) (b : Block) : (b.freePage p).fab.emul = b.fab.emul := by
  unfold Block.freePage
  split
  · rfl
  · simp

@[simp] theorem unpin_emul (p : Nat) (b : Block) : (b.unpin p).fab.emul = b.fab.emul := by
  unfold Block.unpin
  split
  · rfl
  · exact ite_emul ((freePage_emul _ _).trans (setPageE_emul _ _ _ _)) (setPageE_emul _ _ _ _)

@[simp] theorem dropKvPage_emul (p : Nat) (b : Block) : (b.dropKvPage p).fab.emul = b.fab.emul := by
  unfold Block.dropKvPage
  split
  · rfl
  · exact (freePage_emul _ _).trans (onPageE_emul _ _ _ _)

@[simp] theorem kvRelease_emul (c : Cmd) (w : AttnWork) (b : Block) : (b.kvRelease c w).fab.emul = b.fab.emul := by
  unfold Block.kvRelease
  split
  · have hfresh (pl : Pool) := foldl_emul (f := fun (b : Block) p => b.onPageE pl p (fun e => { e with filling := false }))
      (fun b p => onPageE_emul pl p _ b) w.fresh b
    have hpins := foldl_emul (f := fun (b : Block) p => b.unpin p) (fun b p => unpin_emul p b) w.pins
    have hregen (pl : Pool) := foldl_emul (f := fun (b : Block) (x : Nat × Nat) => if (b.pageE pl x.2).ref = 0 then b else b.dropKvPage x.2)
      (fun _ _ => ite_emul rfl (dropKvPage_emul _ _)) w.toRegen
    dsimp only
    refine ite_emul ((setSeqE_emul _ _ _ _).trans ?_) ?_
    all_goals
      refine (hregen _ _).trans ((hpins _).trans ?_)
      split
      · exact (unpin_emul _ _).trans (hfresh _)
      · exact hfresh _
  · rfl

@[simp] theorem drainFlight_emul (t : Nat) (b : Block) : (b.drainFlight t).fab.emul = b.fab.emul := by
  unfold Block.drainFlight
  exact foldl_emul (f := fun (b : Block) (f : InFlight) => b.memWrite (tileDa t + f.addr) f.bytes) (fun b _ => memWrite_emul _ _ b) _ _

@[simp] theorem haltTiles_emul (ts : List Nat) (b : Block) : (b.haltTiles ts).fab.emul = b.fab.emul :=
  foldl_emul (f := fun (b : Block) t => (b.finishOps t).onTile t Tile.halt) (fun _ t => drainFlight_emul t _) ts b

@[simp] theorem preemptDrop_emul (id : Nat) (v : Bool) (b : Block) : (b.preemptDrop id v).fab.emul = b.fab.emul := by
  unfold Block.preemptDrop
  refine foldl_emul (fun b c => ?_) _ b
  split
  · exact ite_emul (ite_emul (completeId_emul _ _ _ _ _) rfl) rfl
  · rfl

@[simp] theorem regenEnd_emul (c : Cmd) (w : RunWork) (n st d r : Nat) (b : Block) : (b.regenEnd c w n st d r).fab.emul = b.fab.emul := by
  unfold Block.regenEnd
  have htiles := foldl_emul (f := fun (b : Block) t => b.onTile t (fun x => { x with held := some n, halted := false }))
    (fun _ _ => rfl) w.tiles
  dsimp only
  split
  · rfl
  · split
    · refine ite_emul ?_ (htiles _)
      rw [setCmd_emul]
      split
      · exact (onPageE_emul _ _ _ _).trans (htiles _)
      · exact htiles _
    · rfl

@[simp] theorem endRun_emul (id st d r : Nat) (b : Block) : (b.endRun id st d r).fab.emul = b.fab.emul := by
  unfold Block.endRun
  split
  · split
    · dsimp only
      split
      · simp
      · simp
    · simp
  · rfl

@[simp] theorem haltCmd_emul (id st : Nat) (b : Block) : (b.haltCmd id st).fab.emul = b.fab.emul := by
  unfold Block.haltCmd
  split
  · rfl
  · split <;> simp

@[simp] theorem haltWhere_emul (p : Cmd → Bool) (st : Nat) (b : Block) : (b.haltWhere p st).fab.emul = b.fab.emul :=
  foldl_emul (f := fun (b : Block) (c : Cmd) => b.haltCmd c.id st) (fun b c => haltCmd_emul c.id st b) _ _

@[simp] theorem setCsu_emul (i : Nat) (c : Csu) (b : Block) : (b.setCsu i c).fab.emul = b.fab.emul := by
  unfold Block.setCsu
  exact ite_emul rfl rfl

@[simp] theorem onCsu_emul (p : Csu → Bool) (f : Csu → Csu) (b : Block) : (b.onCsu p f).fab.emul = b.fab.emul := by
  unfold Block.onCsu
  exact foldl_emul (fun b _ => ite_emul (setCsu_emul _ _ b) rfl) _ _

@[simp] theorem reap_emul (b : Block) : b.reap.fab.emul = b.fab.emul := onCsu_emul _ _ _

@[simp] theorem abortHeld_emul (n st : Nat) (b : Block) : (b.abortHeld n st).fab.emul = b.fab.emul := by
  unfold Block.abortHeld
  exact foldl_emul (f := fun (b : Block) c => b.complete c st 0 0) (fun b c => complete_emul c st 0 0 b) _ _

@[simp] theorem abortAllHeld_emul (st : Nat) (b : Block) : (b.abortAllHeld st).fab.emul = b.fab.emul := by
  unfold Block.abortAllHeld
  exact (foldl_emul (f := fun (b : Block) c => b.complete c st 0 0) (fun b c => complete_emul c st 0 0 b) _ _).trans
    (foldl_emul (f := fun (b : Block) (e : Nat × Ring) => b.abortHeld e.1 st) (fun b e => abortHeld_emul e.1 st b) _ _)

@[simp] theorem shutterActions_emul (b : Block) : b.shutterActions.fab.emul = b.fab.emul := by
  simp [Block.shutterActions]

@[simp] theorem wakeBy_emul (src unit index : Nat) (b : Block) : (b.wakeBy src unit index).fab.emul = b.fab.emul := by
  unfold Block.wakeBy
  refine ite_emul (ite_emul rfl rfl) ?_
  split
  · rfl
  · rfl
  · refine ite_emul (ite_emul rfl rfl) ?_
    unfold Block.abortSleep
    dsimp only
    split
    · exact completeId_emul _ _ _ _ _
    · rfl
  · rfl

@[simp] theorem latchCause_emul (k st : Nat) (b : Block) : (b.latchCause k st).fab.emul = b.fab.emul := by
  unfold Block.latchCause
  dsimp only
  split
  · rw [shutterActions_emul, wakeBy_emul]
    exact ite_emul (logState_emul _ _ _) (logState_emul _ _ _)
  · rw [wakeBy_emul]
    exact ite_emul (logState_emul _ _ _) (logState_emul _ _ _)

/-! ### Faults of memory -/

@[simp] theorem fence_emul (h : Nat) (b : Block) : (b.fence h).fab.emul = b.fab.emul := by
  unfold Block.fence
  exact ite_emul ((latchCause_emul _ _ _).trans (almanacChange_emul _ _ _ _ _ _)) (almanacChange_emul _ _ _ _ _ _)

@[simp] theorem pcFault_emul (h : Nat) (b : Block) : (b.pcFault h).fab.emul = b.fab.emul := by
  unfold Block.pcFault
  dsimp only
  split
  · exact ite_emul rfl (ite_emul rfl (fence_emul _ _))
  · exact ite_emul rfl (ite_emul rfl (fence_emul _ _))
  · exact ite_emul (fence_emul _ _) rfl
  · rfl

@[simp] theorem countPin_emul (h pin : Nat) (b : Block) : (b.countPin h pin).fab.emul = b.fab.emul := by
  unfold Block.countPin
  exact ite_emul (ite_emul (logError_emul _ _ _ _ _ _) (pcFault_emul _ _)) rfl

@[simp] theorem scrubWord_emul (w : Nat) (b : Block) : (b.scrubWord w).fab.emul = b.fab.emul := by
  unfold Block.scrubWord
  split
  · have hres (p : Prop) [Decidable p] (x : Block) (y : List Byte) (hx : x.fab.emul = b.fab.emul) :
        (if p then x else (x.free 128).2.rawWrite (16 * w) y).fab.emul = b.fab.emul := ite_emul hx hx
    exact ite_emul ((countPin_emul _ _ _).trans ((logError_emul _ _ _ _ _ _).trans (hres _ _ _ rfl))) (hres _ _ _ rfl)
  · rfl

@[simp] theorem scrubRange_emul (da n : Nat) (b : Block) : (b.scrubRange da n).fab.emul = b.fab.emul := by
  unfold Block.scrubRange
  exact ite_emul rfl (foldl_emul (fun b w => scrubWord_emul w b) _ _)

@[simp] theorem memFaultWith_emul (perm : Bool) (w : Nat) (b : Block) : (b.memFaultWith perm w).fab.emul = b.fab.emul := by
  unfold Block.memFaultWith
  have hpoison : ∀ x : Block, x.fab.emul = b.fab.emul →
      (if x.isPoisoned w || decide ((x.pc (x.home (16 * w)).1).st = .fenced) then x else
        if perm then (x.poisonBlock w).pcFault (x.home (16 * w)).1 else x.poisonBlock w).fab.emul = b.fab.emul :=
    fun x hx => ite_emul hx (ite_emul ((pcFault_emul _ _).trans hx) hx)
  have hlog := (logError_emul Status.memUncorrectable 2 (b.home (16 * w)).1 0 (16 * w) _).trans
    (hpoison { b with mem.ueCount := satInc 32 b.mem.ueCount } rfl)
  exact ite_emul rfl (ite_emul ((latchCause_emul _ _ _).trans hlog) hlog)

@[simp] theorem memFault_emul (w : Nat) (b : Block) : (b.memFault w).fab.emul = b.fab.emul := by
  unfold Block.memFault
  exact ite_emul rfl (memFaultWith_emul _ _ _)

/-! ### Codec pages -/

section
variable (m : CMap)

@[simp] theorem setEntry_emul (v : Nat) (e : CEntry) (b : Block) : (b.setEntry m v e).fab.emul = b.fab.emul := memWrite_emul _ _ _

theorem storeStream_emul {v k x crc : Nat} {s : List Byte} {own : List Nat} {b' : Block}
    (h : b.storeStream m v k x crc s own = some b') : b'.fab.emul = b.fab.emul := by
  unfold Block.storeStream at h
  dsimp only at h
  split at h
  · cases h
  · cases h
    exact (setEntry_emul m _ _ _).trans (foldl_emul (fun b _ => memWrite_emul _ _ b) _ _)

theorem tryPut_emul {v : Nat} {content : List Byte} {ref : Option (List Byte)} {b' : Block}
    (h : b.tryPut m v content ref = some b') : b'.fab.emul = b.fab.emul := by
  unfold Block.tryPut at h
  dsimp only at h
  split at h
  · cases h
    exact setEntry_emul m _ _ _
  · exact ite_some_emul (fun _ h => storeStream_emul m h) (fun _ h => storeStream_emul m h) h

theorem loseGo_emul : ∀ (fuel v : Nat) (b : Block), (b.loseGo m fuel v).fab.emul = b.fab.emul
  | 0, _, _ => setEntry_emul m _ _ _
  | fuel + 1, v, b => by
    unfold Block.loseGo
    split
    · exact setEntry_emul m _ _ _
    · split
      · split
        · rename_i hput
          exact (tryPut_emul m hput).trans (setEntry_emul m _ _ _)
        · exact (setEntry_emul m _ _ _).trans (loseGo_emul fuel _ _)
      · exact (setEntry_emul m _ _ _).trans (loseGo_emul fuel _ _)

@[simp] theorem losePage_emul (v : Nat) (b : Block) : (b.losePage m v).fab.emul = b.fab.emul := loseGo_emul m 64 v b
@[simp] theorem logLost_emul (v : Nat) (b : Block) : (b.logLost m v).fab.emul = b.fab.emul := logError_emul _ _ _ _ _ _
@[simp] theorem decodeFault_emul (st da : Nat) (b : Block) : (b.decodeFault st da).fab.emul = b.fab.emul := by
  unfold Block.decodeFault
  exact ite_emul (memFault_emul _ _) rfl

@[simp] theorem putPage_emul (v : Nat) (content : List Byte) (ref : Option (List Byte)) (b : Block) :
    (b.putPage m v content ref).1.fab.emul = b.fab.emul := by
  unfold Block.putPage
  split
  · rename_i hput
    exact tryPut_emul m hput
  · simp

theorem reencodeDep_emul (v : Nat) (new : Option (List Byte)) {go : Block → Block × Option Nat}
    (hgo : ∀ b : Block, (go b).1.fab.emul = b.fab.emul) (b : Block) : (b.reencodeDep m v new go).1.fab.emul = b.fab.emul := by
  unfold Block.reencodeDep
  split
  · exact hgo b
  · split
    · dsimp only
      split
      · rename_i hput
        exact (tryPut_emul m hput).trans (hgo b)
      · exact (hgo _).trans (by simp)
    · exact (hgo _).trans (by simp)

@[simp] theorem rewritePage_emul (v : Nat) (content : List Byte) (b : Block) : (b.rewritePage m v content).1.fab.emul = b.fab.emul := by
  unfold Block.rewritePage
  refine reencodeDep_emul m v _ (fun b => ?_) b
  split
  · split <;> simp
  · simp

@[simp] theorem scrubPage_emul (v : Nat) (b : Block) : (b.scrubPage m v).2.fab.emul = b.fab.emul := by
  unfold Block.scrubPage
  split
  · rfl
  · exact foldl_emul (fun b r => scrubRange_emul _ _ b) _ _

@[simp] theorem closePage_emul (s : Slot) (b : Block) : (b.closePage m s).1.fab.emul = b.fab.emul := by
  unfold Block.closePage
  dsimp only
  split <;> simp

@[simp] theorem openPage_emul (v : Nat) (b : Block) : (b.openPage m v).1.fab.emul = b.fab.emul := by
  unfold Block.openPage
  split
  · rfl
  · dsimp only
    split
    · rfl
    · split
      · split
        · exact closePage_emul _ _ _
        · rfl
      · rfl

@[simp] theorem pageWrite_emul (v off : Nat) (bs : List Byte) (b : Block) : (b.pageWrite m v off bs).1.fab.emul = b.fab.emul := by
  unfold Block.pageWrite
  dsimp only
  split
  · exact openPage_emul m v b
  · exact ite_fst_emul ((closePage_emul m _ _).trans (openPage_emul m v b)) (openPage_emul m v b)

end

@[simp] theorem hbmWrite_emul (da : Nat) (bs : List Byte) (b : Block) : (b.hbmWrite da bs).1.fab.emul = b.fab.emul := by
  unfold Block.hbmWrite
  split
  · exact memWrite_emul _ _ _
  · refine foldl_fst_emul (fun a _ => ?_) _ _
    split
    · rfl
    · exact memWrite_emul _ _ _

@[simp] theorem pieceWrite_emul (da : Nat) (bs : List Byte) (b : Block) : (b.pieceWrite da bs).1.fab.emul = b.fab.emul := by
  unfold Block.pieceWrite
  split
  · exact pageWrite_emul _ _ _ _ _
  · split
    · exact hbmWrite_emul _ _ _
    · exact memWrite_emul _ _ _

/-- A write of local memory keeps the emulated ranks. -/
theorem daWrite_emul {da : Nat} {bs : List Byte} {b' : Block} {st : Option Nat} (h : b.daWrite da bs = (b', st)) :
    b'.fab.emul = b.fab.emul := by
  have hfold := foldl_fst_emul (f := fun (acc : Block × Option Nat) (c : Nat × Nat) =>
    ((acc.1.pieceWrite c.1 ((bs.drop (c.1 - da)).take c.2)).1, acc.2.or (acc.1.pieceWrite c.1 ((bs.drop (c.1 - da)).take c.2)).2))
    (fun a _ => pieceWrite_emul _ _ a.1) (chunksOf da bs.length) (b, none)
  exact (congrArg (fun x : Block × Option Nat => x.1.fab.emul) h).symm.trans hfold

end Sys2Proof.Machine
end

section
/-!
PROOFS. The update engines (R333, R335, R340, R343): their commands at dispatch, FREEZE_SET at its lock, and the block pass. The pass of
a MOMENT_FORMAT by blocks is log entry 76.
-/

namespace Sys2Proof.Machine

variable {b : Block} {c : Cmd}

/-! ### Dispatch -/

theorem startUpdate_of_right (hpos : 0 < c.pkt.f 314 303) (hmax : c.pkt.f 314 303 ≤ 1024) (htab : c.pkt.f 434 383 % 64 = 0)
    (hstat : c.pkt.f 382 331 % 16 = 0) (hset : ∀ k, k < 8 → hyperOk (updSet c k) = true)
    (hdesc : hbmStatus (c.pkt.f 434 383 + 64 * c.pkt.f 330 315) (64 * c.pkt.f 314 303) = none)
    (hsta : hbmStatus (c.pkt.f 382 331) (16 * c.pkt.f 314 303) = none)
    (hpages : b.pagesAll (c.pkt.f 434 383 + 64 * c.pkt.f 330 315) (64 * c.pkt.f 314 303) (fun a => attrClass a = 3) = true)
    (htrain : b.train.table.isSome = true) (hopen : b.stepIsOpen = true) :
    b.startUpdate c = (b.setWork c.id (.upd UpdWork.start)).updKick := by
  have hsets : ¬ (List.range 8).any (fun k => !hyperOk (updSet c k)) = true := by
    rw [List.any_eq_true]
    rintro ⟨k, hk, hbad⟩
    rw [hset k (List.mem_range.mp hk)] at hbad
    cases hbad
  have hargs : ¬ (c.pkt.f 314 303 = 0 ∨ 1024 < c.pkt.f 314 303 ∨ c.pkt.f 434 383 % 64 ≠ 0 ∨ c.pkt.f 382 331 % 16 ≠ 0 ∨
      (List.range 8).any (fun k => !hyperOk (updSet c k)) = true) := by
    rintro (h | h | h | h | h)
    · omega
    · omega
    · exact h htab
    · exact h hstat
    · exact hsets h
  simp only [Block.startUpdate, if_neg hargs, hdesc, hsta, Option.or_none, hpages, isNone_eq_false htrain, hopen, Bool.not_true,
    Bool.or_self, Bool.false_eq_true, if_false]

theorem startDescCmd_of_right (hmap : hbmStatus (c.pkt.f 255 204) 64 = none) (hal : c.pkt.f 255 204 % 64 = 0)
    (hpages : b.pagesAll (c.pkt.f 255 204) 64 (fun a => attrClass a = 3) = true)
    (hdst : c.pkt.opcode = 0x0801 → c.pkt.f 203 152 % 64 = 0) :
    b.startDescCmd c = (b.setWork c.id (.upd UpdWork.start)).updKick := by
  have hargs : (decide (c.pkt.f 255 204 % 64 ≠ 0) || !b.pagesAll (c.pkt.f 255 204) 64 (fun a => decide (attrClass a = 3)) ||
      (decide (c.pkt.opcode = 0x0801) && decide (c.pkt.f 203 152 % 64 ≠ 0))) = false := by
    rw [hpages]
    by_cases h : c.pkt.opcode = 0x0801
    · simp [hal, hdst h]
    · simp [hal, h]
  simp only [Block.startDescCmd, hmap]
  exact if_neg (Bool.eq_false_iff.mp hargs)

/-! ### FREEZE_SET at its lock -/

/-- A read of a descriptor or a record without a flawed word goes on with its bytes. -/
theorem updRead_clean {da n : Nat} {bs : List Byte} {b' : Block} (hbad : b.badWord da n = none)
    (hread : b.daRead da n = (.ok bs false, b')) (k : List Byte → Block → Block) : b.updRead c da n k = k bs b' := by
  simp only [Block.updRead, hbad, cmdRead_clean hread]

theorem updDescs_of_desc (h : c.pkt.opcode ≠ 0x0800) : c.updDescs = [c.pkt.f 255 204] := by
  simp only [Cmd.updDescs, if_neg h]

/-- A FREEZE_SET whose descriptor is free takes its lock, reads it and goes on. -/
theorem updStep_freeze {b2 : Block} {q da : Nat} {w : UpdWork} {bs : List Byte} (hhead : (b.updQueue q).head? = some (c, w))
    (hph : w.phase = .lock) (hlocks : w.locks = []) (ho : c.pkt.opcode = 0x0802) (hda : da = c.pkt.f 255 204)
    (hfree : b.updLocked c da = false) (hb2 : b2 = b.setWork c.id (.upd { w with locks := [da] }))
    (hcmd : (b2.cmd c.id).isSome = true) (hbad : b2.badWord da 64 = none) (hread : b2.daRead da 64 = (.ok bs false, b2))
    (hcheck : dCheckOk (leNat bs) = true) : b.updStep q = b2.freezeGo c (b2.rd da 64) da := by
  have hdescs : c.updDescs = [da] := by rw [hda, updDescs_of_desc (by rw [ho]; decide)]
  have htake : b.takeLocks c w.locks (c.updDescs.drop w.locks.length) = [da] := by
    simp only [hlocks, hdescs, List.length_nil, List.drop_zero, Block.takeLocks, hfree, Bool.false_eq_true, if_false, List.nil_append]
  have hgo : b2.updLockedGo c { w with locks := [da] } = b2.freezeGo c (b2.rd da 64) da := by
    unfold Block.updLockedGo
    simp only [hdescs, List.foldl_cons, List.foldl_nil, isNone_eq_false hcmd, updRead_clean hbad hread, hcheck, Bool.false_eq_true,
      if_false, if_true, List.headD_cons, ho]
  have hstep : b.updStep q = b2.updLockedGo c { w with locks := [da] } := by
    subst hb2
    unfold Block.updStep
    simp only [hhead, hph, htake]
    exact if_pos (by rw [hdescs])
  exact hstep.trans hgo

theorem freezeGo_same {d : Desc} {da : Nat} (h : bit c.pkt.pnum 171 = dFreeze d) :
    b.freezeGo c d da = b.updEnd c Status.ok 0 (dApplied d) := by
  simp only [Block.freezeGo, h, if_true]

theorem freezeGo_changed {d : Desc} {da : Nat} {b' : Block} (h : bit c.pkt.pnum 171 ≠ dFreeze d) (hwait : b.writeWaits da 64 = false)
    (hwrite : b.daWrite da (leBytes 64 (dSeal (if bit c.pkt.pnum 171 then setBit d 146 (bit c.pkt.pnum 171)
      else putBits (setBit d 146 (bit c.pkt.pnum 171)) 479 448 (c.pkt.f 203 172 + 2 ^ 32 - dApplied d)))) = (b', none)) :
    b.freezeGo c d da = b'.updEnd c Status.ok 0 (dApplied d) := by
  simp only [Block.freezeGo, if_neg h, hwait, cmdWrite_clean hwrite, Bool.false_eq_true, if_false]

/-! ### The block pass -/

theorem blockPass_of_pass {q : Nat} {w : UpdWork} (hshut : b.shut.shut = false) (hhead : (b.updKick.updQueue q).head? = some (c, w))
    (hph : w.phase = .pass) : b.blockPass q =
      (if c.pkt.opcode = 0x0800 then b.updKick.updPass c w else b.updKick.formatPass c w).updKick := by
  simp only [Block.blockPass, hshut, hhead, hph, ne_eq, not_true_eq_false, Bool.false_eq_true, if_false]

/-- A block of a MOMENT_FORMAT whose old record can be read and whose new place is not held back. -/
theorem formatPass_block {w : UpdWork} {d : Desc} {to_ : Nat} {bs : List Byte} {b2 b3 : Block} {r : List Byte × Nat}
    (hd : b.rd (c.pkt.f 255 204) 64 = d) (hto : c.pkt.f 203 152 + recSize (c.pkt.f 151 151) * w.next = to_)
    (hmore : w.next < dBlocks d) (hwait : b.writeWaits to_ (recSize (c.pkt.f 151 151)) = false)
    (hbad : b.badWord (dRec d + recSize (dMfmt d) * w.next) (recSize (dMfmt d)) = none)
    (hread : b.daRead (dRec d + recSize (dMfmt d) * w.next) (recSize (dMfmt d)) = (.ok bs false, b2))
    (hok : recOk (dMfmt d) (dTensor d) ((dFirst d + w.next) % 2 ^ 32) bs = true)
    (hr : formatRecord d (c.pkt.f 151 151) (bit c.pkt.pnum 150) ((dFirst d + w.next) % 2 ^ 32) bs = r)
    (hwrite : b2.daWrite to_ r.1 = (b3, none)) :
    b.formatPass c w = (b3.tallyData 5 c.updEngine c.id to_ r.1).setWork c.id (.upd { w with next := w.next + 1, sat := w.sat + r.2 }) := by
  unfold Block.formatPass
  dsimp only
  rw [hd, hto, if_pos hmore, hwait, if_neg Bool.false_ne_true, updRead_clean hbad hread, hok, Bool.not_true, if_neg Bool.false_ne_true,
    hr, cmdWrite_clean hwrite]

theorem formatPass_last {w : UpdWork} {d : Desc} {b2 : Block} (hd : b.rd (c.pkt.f 255 204) 64 = d) (hlast : dBlocks d ≤ w.next)
    (hwait : b.writeWaits (c.pkt.f 255 204) 64 = false) (hemul : b.fab.emul = [])
    (hwrite : b.daWrite (c.pkt.f 255 204) (leBytes 64 (dSeal (setBit (putBits (putBits d 415 364 (c.pkt.f 203 152)) 148 148
      (c.pkt.f 151 151)) 147 (bit c.pkt.pnum 150)))) = (b2, none)) :
    b.formatPass c w = b2.updEnd c Status.ok 0 w.sat := by
  have hnone : (decide (c.pkt.f 151 151 = 1) && !b2.fab.emul.isEmpty) = false := by
    rw [daWrite_emul hwrite, hemul, List.isEmpty_nil, Bool.not_true, Bool.and_false]
  unfold Block.formatPass
  dsimp only
  rw [hd, if_neg (Nat.not_lt.mpr hlast), hwait, if_neg Bool.false_ne_true, cmdWrite_clean hwrite]
  exact congrArg (fun x : Block => x.updEnd c Status.ok 0 w.sat) (if_neg (Bool.eq_false_iff.mp hnone))

/-- Settles O26: the three commands enter their queue; FREEZE_SET writes at its lock, a MOMENT_FORMAT block by block and its
descriptor last, which a module that emulates no rank reports to nobody. -/
theorem updateEngines : Obligations.UpdateEngines := by
  unfold Obligations.UpdateEngines
  refine ⟨?start, ?freeze, ?pass⟩
  case start =>
    intro s p c b1 hentry go
    have hop : ∀ {n}, p.opcode = n → c.pkt.opcode = n := fun h => (packetEntry_opcode hentry).trans h
    refine ⟨?update, ?desc⟩
    case update =>
      intro ho n table status descs hpos hmax htab hstat hset hdesc hsta hpages htrain hopen
      exact packet_next hentry ho rfl (by decide) ((engineStart_update b1 (hop ho)).trans
        (startUpdate_of_right hpos hmax htab hstat hset hdesc hsta hpages htrain hopen))
    case desc =>
      rintro da rfl hmap hal hpages
      refine ⟨fun ho hdst => ?_, fun ho => ?_⟩
      · exact packet_next hentry ho rfl (by decide) ((engineStart_descCmd b1 (.inl (hop ho))).trans
          (startDescCmd_of_right hmap hal hpages (fun _ => hdst)))
      · exact packet_next hentry ho rfl (by decide) ((engineStart_descCmd b1 (.inr (hop ho))).trans
          (startDescCmd_of_right hmap hal hpages (fun h => absurd ((hop ho).symm.trans h) (by decide))))
  case freeze =>
    intro b b2 q da c w bs hhead hph hlocks ho hda hfree hb2 hcmd hbad hread hcheck d want d1 d2
    have h := updStep_freeze hhead hph hlocks ho hda hfree hb2 hcmd hbad hread hcheck
    exact ⟨fun hsame => h.trans (freezeGo_same hsame), fun hchg hwait b3 hwrite => h.trans (freezeGo_changed hchg hwait hwrite)⟩
  case pass =>
    intro s q c w hshut hhead hph
    have h := blockPass_of_pass hshut hhead hph
    refine ⟨?update, ?format⟩
    case update =>
      intro ho
      rw [if_pos ho] at h
      exact run_put h
    case format =>
      intro ho b1 dda d to_
      rw [if_neg (by rw [ho]; decide)] at h
      refine ⟨?_, ?_⟩
      · intro hmore hwait bs b2 b3 r hbad hread hok hr hwrite
        exact run_put (h.trans (congrArg Block.updKick (formatPass_block rfl rfl hmore hwait hbad hread hok hr.symm hwrite)))
      · intro hlast hwait hemul b2 hwrite
        have hpass := formatPass_last (b := b1) (c := c) (w := w) (d := d) (b2 := b2) rfl hlast hwait hemul hwrite
        exact run_put (h.trans (congrArg Block.updKick hpass))

end Sys2Proof.Machine
end

section
/-!
PROOFS. Ranks, trees, windows, SEND and RECV (R364 to R366, R379). That an undefined tree completes OK too is log entry 90.
-/

namespace Sys2Proof.Machine

/-- The row of a packet of class FABRIC whose port key is there: its engine's block, the ring's pointers past the packet. -/
theorem fabric_next {s : State} {op : Nat} {act : Packet → Bool} {p : Packet} {c : Cmd} {b1 b2 : Block}
    (h : s.blk.packetEntry p = some (c, b1)) (ho : p.opcode = op) (ha : act c.pkt = true)
    (hk : b1.trust.sealedReq = true → b1.trust.secretSet = true) (hb : b1.engineStart c = b2) :
    s.run (Block.packet op act p) = .next (s.after p b2) := by
  rw [fabric_run h ho ha hk, hb]

/-- TREE_SET and EXPORT_SET need no port key (R418). -/
theorem startEngine_noKey {c : Cmd} {b : Block} (h : 0x0907 < c.pkt.opcode) : b.startEngine c = b.engineStart c := by
  have hkey : c.needsPortKey = false := by
    rw [Cmd.needsPortKey, decide_eq_false (Nat.not_le.mpr h), Bool.and_false]
  simp only [Block.startEngine, hkey, Bool.and_false, Bool.false_eq_true, if_false]

theorem noKey_next {s : State} {op : Nat} {act : Packet → Bool} {p : Packet} {c : Cmd} {b1 b2 : Block}
    (h : s.blk.packetEntry p = some (c, b1)) (ho : p.opcode = op) (ha : act c.pkt = true) (hk : 0x0907 < op)
    (hb : b1.engineStart c = b2) : s.run (Block.packet op act p) = .next (s.after p b2) := by
  rw [packet_run h ho ha, startEngine_noKey (((packetEntry_opcode h).trans ho).symm ▸ hk), hb]

variable {b : Block} {c : Cmd}

/-! ### TREE_SET -/

theorem startTreeSet_self (ha : c.pkt.f 511 508 = 0) : b.startTreeSet c = b.treeSelf c := by rw [Block.startTreeSet, ha]; rfl
theorem startTreeSet_define (ha : c.pkt.f 511 508 = 1) : b.startTreeSet c = b.treeDefine c := by rw [Block.startTreeSet, ha]; rfl
theorem startTreeSet_routes (ha : c.pkt.f 511 508 = 2) : b.startTreeSet c = b.treeRoutes c := by rw [Block.startTreeSet, ha]; rfl
theorem startTreeSet_undefine (ha : c.pkt.f 511 508 = 3) : b.startTreeSet c = b.treeUndefine c := by
  rw [Block.startTreeSet, ha]; rfl

theorem treeSelf_of_idle {ranks : List Nat} (hn : c.pkt.f 379 377 < 7)
    (hr : ranks = c.pkt.f 507 492 :: (List.range (c.pkt.f 379 377)).map (fun k => c.pkt.f (16 * k + 411) (16 * k + 396)))
    (hnodup : ranks.Nodup) (hcolls : b.fab.colls = []) (hreqs : b.fab.reqs = [])
    (hidle : ∀ x ∈ b.mer.running, x.pkt.opcode ≠ 0x0905 ∧ x.pkt.opcode ≠ 0x0906) {ls : Sparse (Option Ledger)}
    (hls : ls = ranks.zipIdx.foldl (fun (m : Sparse (Option Ledger)) (x : Nat × Nat) =>
      match b.ledger x.2 with
      | some l => m.set none x.2 (some (if l.rank = x.1 then l else Ledger.fresh x.1))
      | none => m.set none x.2 (some (Ledger.fresh x.1))) []) :
    b.treeSelf c = Block.done c 0 { b with
      fab.primary := some (c.pkt.f 507 492), fab.emul := ranks.tail,
      fab.exports := (if ranks ≠ b.hosted then [] else b.fab.exports), train.ledgers := ls } := by
  have hno : b.mer.running.any (fun x => decide (x.pkt.opcode = 0x0905) || decide (x.pkt.opcode = 0x0906)) = false := by
    rw [List.any_eq_false]
    intro x hx
    simp [hidle x hx]
  have hgo : (decide (c.pkt.f 379 377 = 7) || (!b.fab.colls.isEmpty || !b.fab.reqs.isEmpty ||
      b.mer.running.any (fun x => decide (x.pkt.opcode = 0x0905) || decide (x.pkt.opcode = 0x0906))) ||
      !decide ranks.Nodup) = false := by
    rw [hno, hcolls, hreqs, decide_eq_true hnodup, decide_eq_false (Nat.ne_of_lt hn)]
    rfl
  subst hls hr
  unfold Block.treeSelf
  dsimp only
  rw [if_neg (Bool.eq_false_iff.mp hgo)]
  rfl

theorem treeDefine_of_right {n t : Nat} {bs : List Byte} {b2 : Block} {ms : List Nat} (hn : c.pkt.f 372 356 = n)
    (ht : c.pkt.f 376 373 = t) (hpos : 0 < n) (hmax : n ≤ 65536) (hbusy : b.treeBusy t = false)
    (hmap : localStatus (c.pkt.f 355 304) (2 * n) = none) (hread : b.daRead (c.pkt.f 355 304) (2 * n) = (.ok bs false, b2))
    (hms : ms = (List.range n).map (fun i => leNat ((bs.drop (2 * i)).take 2))) (hnodup : ms.Nodup) (hosts : ms.any b2.hosts = true)
    (hroom : n + ((b2.fab.trees.filter (fun x => x.num ≠ t)).map (fun x => x.members.length)).sum ≤ 262144) :
    b.treeDefine c = Block.done c 0 { b2 with
      fab.trees := b2.fab.trees.filter (fun x => x.num ≠ t) ++ [{ num := t, members := ms, seq := 0 }] } := by
  have hargs : ¬ (n = 0 ∨ 65536 < n ∨ b.treeBusy t = true) := by
    rintro (h | h | h)
    · omega
    · omega
    · rw [hbusy] at h
      cases h
  have hgo : (!decide ms.Nodup || !ms.any b2.hosts || decide (262144 < n + ((b2.fab.trees.filter (fun x => x.num ≠ t)).map
      (fun x => x.members.length)).sum)) = false := by
    rw [decide_eq_true hnodup, hosts, decide_eq_false (Nat.not_lt.mpr hroom)]
    rfl
  subst hms
  unfold Block.treeDefine
  dsimp only
  rw [hn, ht, if_neg hargs, hmap]
  dsimp only
  rw [cmdRead_clean hread]
  exact if_neg (Bool.eq_false_iff.mp hgo)

theorem treeRoutes_of_right {bs : List Byte} {b2 : Block} (hmap : localStatus (c.pkt.f 355 304) 65536 = none)
    (hread : b.daRead (c.pkt.f 355 304) 65536 = (.ok bs false, b2)) :
    b.treeRoutes c = Block.done c 0 { b2 with
      fab.routes := Sparse.setL 0xFF 0 (bs.map (fun (x : Byte) => x.toNat)) [] } := by
  unfold Block.treeRoutes
  dsimp only
  rw [hmap]
  dsimp only
  rw [cmdRead_clean hread]

theorem treeUndefine_of_idle (hbusy : b.treeBusy (c.pkt.f 376 373) = false) :
    b.treeUndefine c = Block.done c 0 { b with fab.trees := b.fab.trees.filter (fun x => x.num ≠ c.pkt.f 376 373) } := by
  simp only [Block.treeUndefine, hbusy, Bool.false_eq_true, if_false]

/-! ### EXPORT_SET -/

theorem startExportSet_close (hosts : b.hosts (c.pkt.f 255 240) = true) (hopen : c.pkt.f 236 236 = 0) :
    b.startExportSet c = Block.done c 0 { b with
      fab.exports := b.fab.exports.filter (fun e => !(e.rank = c.pkt.f 255 240 && e.win = c.pkt.f 239 237)) } := by
  simp only [Block.startExportSet, hosts, hopen, Bool.not_true, Bool.false_eq_true, if_false, if_true]

theorem startExportSet_open (hosts : b.hosts (c.pkt.f 255 240) = true) (hopen : c.pkt.f 236 236 = 1) (hpos : 0 < c.pkt.f 181 165)
    (hmax : c.pkt.f 181 165 ≤ 65536) (hal : c.pkt.f 233 182 % 65536 = 0)
    (hpages : b.pagesAll (c.pkt.f 233 182) (65536 * c.pkt.f 181 165) (fun a => attrClass a ≠ 4) = true) :
    b.startExportSet c = Block.done c 0 { b with
      fab.exports := b.fab.exports.filter (fun e => !(e.rank = c.pkt.f 255 240 && e.win = c.pkt.f 239 237)) ++ [{
        rank := c.pkt.f 255 240, win := c.pkt.f 239 237, rd := decide (c.pkt.f 235 235 = 1),
        wr := decide (c.pkt.f 234 234 = 1), base := c.pkt.f 233 182, pages := c.pkt.f 181 165 }] } := by
  have hargs : (decide (c.pkt.f 181 165 = 0) || decide (65536 < c.pkt.f 181 165) || decide (c.pkt.f 233 182 % 65536 ≠ 0) ||
      !b.pagesAll (c.pkt.f 233 182) (65536 * c.pkt.f 181 165) (fun a => attrClass a ≠ 4)) = false := by
    rw [hpages, decide_eq_false (Nat.ne_of_gt hpos), decide_eq_false (Nat.not_lt.mpr hmax), decide_eq_false (not_not_intro hal)]
    rfl
  unfold Block.startExportSet
  dsimp only
  rw [hosts, Bool.not_true, if_neg Bool.false_ne_true, if_neg (by rw [hopen]; decide), if_neg (Bool.eq_false_iff.mp hargs)]

/-! ### SEND and RECV -/

/-- The message of a transfer of one chunk. -/
theorem p2pStart_of_chunk (hda : c.pkt.f 495 444 % 64 = 0) (hoff : c.pkt.f 440 409 % 64 = 0) (hpos : 0 < c.pkt.f 408 377)
    (hlen : c.pkt.f 408 377 % 64 = 0) (hrop : c.pkt.f 363 362 ≠ 3) (hmap : localStatus (c.pkt.f 495 444) (c.pkt.f 408 377) = none)
    (hwin : c.pkt.f 440 409 + c.pkt.f 408 377 ≤ 2 ^ 32) :
    b.p2pStart c = b.p2pGo c (ceilDiv (c.pkt.f 408 377) p2pChunk + 2) 0 0 := by
  have hargs : ¬ (c.pkt.f 495 444 % 64 ≠ 0 ∨ c.pkt.f 440 409 % 64 ≠ 0 ∨ c.pkt.f 408 377 = 0 ∨ c.pkt.f 408 377 % 64 ≠ 0 ∨
      c.pkt.f 363 362 = 3) := by
    rintro (h | h | h | h | h)
    · exact h hda
    · exact h hoff
    · omega
    · exact h hlen
    · exact hrop h
  simp only [Block.p2pStart, if_neg hargs, hmap, if_neg (Nat.not_lt.mpr hwin)]

theorem ceilDiv_chunk {len : Nat} (hpos : 0 < len) (hmax : len ≤ 0x400000) : ceilDiv len p2pChunk = 1 := by
  unfold ceilDiv p2pChunk
  omega

/-- A transfer whose one message has left waits for its answer. -/
theorem p2pGo_left {fuel : Nat} (h1 : ceilDiv (c.pkt.f 408 377) p2pChunk = 1) :
    b.p2pGo c (fuel + 1) 1 1 = b.setWork c.id (.await 3 1 1 0) := by
  simp only [Block.p2pGo, h1, le_refl, if_true, one_ne_zero, if_false]

/-- The message of a SEND or RECV of one chunk, but for its kind and data. -/
def p2pMsg (b : Block) (c : Cmd) : Msg :=
  { Msg.zero with
    src := b.primaryRank, dest := c.pkt.f 511 496, vl := 3, length := c.pkt.f 408 377, offset := c.pkt.f 440 409,
    exp := c.pkt.f 443 441, rctr := c.pkt.f 376 364, rop := c.pkt.f 363 362, rval := c.pkt.f 361 330 }

theorem p2pGo_first (hpos : 0 < c.pkt.f 408 377) (hmax : c.pkt.f 408 377 ≤ 0x400000) {fuel : Nat} :
    b.p2pGo c (fuel + 2) 0 0 =
      if c.pkt.opcode = 0x0905 then
        (b.setWork c.id (.await 3 0 0 0)).cmdRead c.id (c.pkt.f 495 444) (c.pkt.f 408 377) (fun bs b' =>
          (b'.post { p2pMsg b c with kind := Kind.peerWrite, data := bs } (some (.cmd c.id 0 (c.pkt.f 408 377)))).setWork c.id
            (.await 3 1 1 0))
      else
        ((b.setWork c.id (.await 3 0 0 0)).post { p2pMsg b c with kind := Kind.readReq } (some (.cmd c.id 0 (c.pkt.f 408 377)))).setWork
          c.id (.await 3 1 1 0) := by
  have h1 := ceilDiv_chunk hpos hmax
  have hmin : Nat.min p2pChunk (c.pkt.f 408 377) = c.pkt.f 408 377 := Nat.min_eq_right hmax
  rw [Block.p2pGo]
  dsimp only
  simp only [h1, Nat.mul_zero, Nat.add_zero, Nat.sub_zero, hmin, Nat.zero_add, p2pGo_left h1]
  rfl

/-- Settles O27: by ACTION, and by command; a transfer of at most 4 MiB is one message. -/
theorem rankCommandsComplete : Obligations.RankCommandsComplete := by
  unfold Obligations.RankCommandsComplete
  intro s p c b1 hentry
  have hop : ∀ {n}, p.opcode = n → c.pkt.opcode = n := fun h => (packetEntry_opcode hentry).trans h
  refine ⟨?tree, ?window, ?p2p⟩
  case tree =>
    intro ho
    have hstart := engineStart_treeSet b1 (hop ho)
    refine ⟨?self, ?define, ?routes, ?undefine⟩
    case self =>
      intro ranks ha hn hr hnodup hcolls hreqs hidle ls hls
      exact noKey_next hentry ho (decide_eq_true ha) (by decide)
        ((hstart.trans (startTreeSet_self ha)).trans (treeSelf_of_idle hn hr hnodup hcolls hreqs hidle hls))
    case define =>
      intro bs b2 ms n t ha hpos hmax hbusy hmap hread hms hnodup hosts hroom
      exact noKey_next hentry ho (decide_eq_true ha) (by decide) ((hstart.trans (startTreeSet_define ha)).trans
        (treeDefine_of_right rfl rfl hpos hmax hbusy hmap hread hms hnodup hosts hroom))
    case routes =>
      intro bs b2 ha hmap hread
      exact noKey_next hentry ho (decide_eq_true ha) (by decide)
        ((hstart.trans (startTreeSet_routes ha)).trans (treeRoutes_of_right hmap hread))
    case undefine =>
      intro ha hbusy
      exact noKey_next hentry ho (decide_eq_true ha) (by decide)
        ((hstart.trans (startTreeSet_undefine ha)).trans (treeUndefine_of_idle hbusy))
  case window =>
    intro ho hosts rest
    have hstart := engineStart_exportSet b1 (hop ho)
    refine ⟨fun hopen => ?_, fun hopen hpos hmax hal hpages => ?_⟩
    · exact noKey_next hentry ho rfl (by decide) (hstart.trans (startExportSet_close hosts hopen))
    · exact noKey_next hentry ho rfl (by decide) (hstart.trans (startExportSet_open hosts hopen hpos hmax hal hpages))
  case p2p =>
    intro hkey da len hda hoff hpos hlen hmax hrop hmap hwin msg hmsg
    have hgo : b1.p2pStart c = b1.p2pGo c (ceilDiv len p2pChunk + 2) 0 0 := p2pStart_of_chunk hda hoff hpos hlen hrop hmap hwin
    subst hmsg
    refine ⟨fun bs b2 ho hread => ?_, fun ho => ?_⟩
    · refine fabric_next hentry ho rfl hkey (((engineStart_p2p b1 (.inl (hop ho))).trans hgo).trans ?_)
      rw [p2pGo_first hpos hmax, if_pos (hop ho), cmdRead_clean hread]
      rfl
    · refine fabric_next hentry ho rfl hkey (((engineStart_p2p b1 (.inr (hop ho))).trans hgo).trans ?_)
      rw [p2pGo_first hpos hmax, if_neg (by rw [hop ho]; decide)]
      rfl

end Sys2Proof.Machine
end

section
/-!
PROOFS. Collectives: their admission (R367, R369), and the data of one whose partners have not all started (R369, log 92), which
the statement about collective messages leaves out.
-/

namespace Sys2Proof.Machine

variable {b : Block} {c : Cmd}

theorem isFlag_of_ne (h : c.pkt.opcode ≠ 0x0907) : c.isFlag = false := decide_eq_false h
theorem isFlag_of_eq (h : c.pkt.opcode = 0x0907) : c.isFlag = true := decide_eq_true h

/-- A collective that is not refused, with no release recorded for it. -/
theorem startColl_of_fresh {t : TreeDef} {x : Coll} {b2 : Block} (hok : b.collRefusal c = none) (ht : b.tree c.colTree = some t)
    (hrel : b.fab.releases.find? (fun r => r.kind = c.colHold && r.arg = c.colTag) = none)
    (hx : x = {
        cmd := c.id, op := c.pkt.opcode, tree := t.num, members := t.members, seq := t.seq,
        digest := c.colDigest t.members.length, hold := c.colHold, tag := c.colTag, timeout := c.colTimeout,
        startable := decide (c.colHold = 0), started := false, startSc := 0, order := b.fab.nextOrder,
        flag := bit b.stepRec 429, starts := [], parts := [], sent := [], out := [], written := [], census := Census.empty })
    (hb2 : b2 = { b with
        fab.trees := b.fab.trees.map (fun (y : TreeDef) => if y.num = t.num then { y with seq := (y.seq + 1) % 2 ^ 32 } else y),
        fab.colls := b.fab.colls ++ [x], fab.nextOrder := b.fab.nextOrder + 1 }) :
    b.startColl c = (if c.isFlag then { b2 with train.flagged := true } else b2.tallyStart 4 t.num c.id).collKick 17 := by
  subst hb2 hx
  simp only [Block.startColl, hok, ht, hrel, Option.isSome_none, Bool.or_false, ite_self, stepLocalBit]

/-- Settles O28: the five collectives start a Tally transfer of their tree, FLAG_COMBINE marks the step instead. -/
theorem collectivesAdmitted : Obligations.CollectivesAdmitted := by
  unfold Obligations.CollectivesAdmitted
  intro s p c b1 t hentry hkey hok ht hrel x b2 hx hb2 go
  have hop : ∀ {n}, p.opcode = n → c.pkt.opcode = n := fun h => (packetEntry_opcode hentry).trans h
  have hstart := startColl_of_fresh hok ht hrel hx hb2
  have hcoll : ∀ n, n ∈ [0x0900, 0x0901, 0x0902, 0x0903, 0x0904] → p.opcode = n → b1.engineStart c = go := by
    intro n hn ho
    have hmem : c.pkt.opcode ∈ [0x0900, 0x0901, 0x0902, 0x0903, 0x0904, 0x0907] := by
      rw [hop ho]
      exact List.mem_append_left [0x0907] hn
    have hne : c.pkt.opcode ≠ 0x0907 := by
      rw [hop ho]
      rintro rfl
      exact absurd hn (by decide)
    exact ((engineStart_coll b1 hmem).trans hstart).trans (by rw [isFlag_of_ne hne, if_neg Bool.false_ne_true])
  have hflag : p.opcode = 0x0907 → b1.engineStart c = ({ b2 with train.flagged := true } : Block).collKick 17 := by
    intro ho
    have hmem : c.pkt.opcode ∈ [0x0900, 0x0901, 0x0902, 0x0903, 0x0904, 0x0907] := by
      rw [hop ho]
      decide
    exact ((engineStart_coll b1 hmem).trans hstart).trans (by rw [isFlag_of_eq (hop ho), if_pos rfl])
  refine ⟨fun ho => ?_, fun ho => ?_, fun ho => ?_, fun ho => ?_, fun ho => ?_, fun ho => ?_⟩
  · exact fabric_next hentry ho rfl hkey (hcoll _ (by decide) ho)
  · exact fabric_next hentry ho rfl hkey (hcoll _ (by decide) ho)
  · exact fabric_next hentry ho rfl hkey (hcoll _ (by decide) ho)
  · exact fabric_next hentry ho rfl hkey (hcoll _ (by decide) ho)
  · exact fabric_next hentry ho rfl hkey (hcoll _ (by decide) ho)
  · exact fabric_next hentry ho rfl hkey (hflag ho)

/-! ### The counterexample -/

/-- Output data of a collective whose partners have not all started waits (R369). -/
theorem collDataMsg_waits {src no : Nat} {m : Msg} {x : Coll} (hm : b.inMsg Kind.collData src no = some m)
    (hx : b.fab.colls.find? (fun y => y.tree = m.tree && y.seq = m.seq) = some x) (hc : b.cmd x.cmd = some c)
    (hout : ((b.colOuts c x.members).filter (fun (o : Nat × Nat × CKey × Nat) => o.2.2.1 =
      { vl := m.vl, shard := m.shard, level := m.level, node := m.node, off := m.offset })).isEmpty = false)
    (hmet : b.collMet x c = false) : b.collDataMsg src no = b := by
  simp only [Block.collDataMsg, Block.collMsg, hm, Block.collOf, hx, hc, hout, hmet, Bool.not_false, Bool.and_self, Bool.true_or,
    if_true]

/-- An ALL_GATHER of 128-byte shards over tree 0, from 64 KiB on to 128 KiB on. -/
def waitingGather : Cmd :=
  { id := 9
    pkt := {
      src := .ring 0, hdr := BitVec.ofNat 512 0x0902,
      params := leBytes 64 (fields [(460, 0x10000), (408, 0x20000), (368, 128)]) }
    ring := 0, sealedOk := none, acq := [], detail := 0, result := 0, rsp := [], fmts := 0, work := .none }

def waitingColl : Coll :=
  { cmd := 9, op := 0x0902, tree := 0, members := [5, 6], seq := 0, digest := 0, hold := 0, tag := 0, timeout := 0,
    startable := false, started := false, startSc := 0, order := 0, flag := false, starts := [], parts := [], sent := [], out := [],
    written := [], census := Census.empty }

/-- The shard of rank 6, which has sent no COLL_START yet. -/
def earlyData : Msg :=
  { Msg.zero with
    kind := Kind.collData, src := 6, dest := 5, no := 1, vl := 2, length := 128, shard := 1, data := List.replicate 128 0 }

/-- Rank 5 with the collective and the message in its inbox. -/
def earlyGather : State :=
  { pending := []
    blk := { Block.powerOn with
      fab.primary := some 5, fab.colls := [waitingColl], fab.inbox := [earlyData], mer.running := [waitingGather] } }

theorem earlyGather_waits : earlyGather.blk.collDataMsg 6 1 = earlyGather.blk :=
  collDataMsg_waits (m := earlyData) (x := waitingColl) (c := waitingGather) (by decide +kernel) (by decide +kernel)
    (by decide +kernel) (by decide +kernel) (by decide +kernel)

/-- No page that the data goes to is held back. -/
theorem earlyGather_free : ∀ o ∈ earlyGather.blk.colOuts waitingGather waitingColl.members,
    earlyGather.blk.writeWaits o.2.2.2 earlyData.data.length = false := by decide +kernel

def earlyKey : CKey := { vl := 2, shard := 1, level := 0, node := 0, off := 0 }

/-- What the statement claims of the message: taken in and acknowledged, which numbers a message. -/
theorem earlyGather_claim :
    ((((((earlyGather.blk.dropMsg earlyData).setColl { waitingColl with parts := [(earlyKey, earlyData.data)] }).collPump 9).applyRop
      earlyData).ackMsg earlyData true).collKick 17).fab.nextMsg = 1 := by decide +kernel

/-- Refutes O29: in `earlyGather` the data of an output waits in the inbox, since rank 6 has sent no COLL_START and nothing is written
before every partner has (R369, log 92); the statement has it taken in and acknowledged. -/
theorem not_collectiveMessages : ¬ Obligations.CollectiveMessages := by
  unfold Obligations.CollectiveMessages
  rintro ⟨h, -⟩
  obtain ⟨-, hdata, -⟩ := h earlyGather 6 1 earlyData waitingColl (by decide +kernel)
  have hclaim := hdata waitingGather (by decide +kernel) (by decide +kernel) (fun o ho _ => earlyGather_free o ho)
  have hreal : exec (.collData 6 1) earlyGather = .next earlyGather := run_self earlyGather_waits
  have hmsg := congrArg (fun s : State => s.blk.fab.nextMsg) (Host.Outcome.next.inj (hreal.symm.trans hclaim))
  exact absurd (hmsg.trans earlyGather_claim) (by decide +kernel)

end Sys2Proof.Machine
end

section
/-!
PROOFS. Messages of peers (R353, R364), flits received and sent, and the states of a port (R351, R354 to R361). That ROP 1 in a
WRITE_ACK tells of a write that was made is log entry 85, the model's own choice.
-/

namespace Sys2Proof.Machine

variable {b : Block} {m : Msg} {src no : Nat}

/-! ### Messages of peers -/

theorem peerWrite_outside (hm : b.inMsg Kind.peerWrite src no = some m)
    (hw : b.window m.dest m.exp m.offset m.data.length true = none) : b.peerWrite src no = (b.dropMsg m).ackMsg m false := by
  simp only [Block.peerWrite, hm, hw]

theorem peerWrite_window {da : Nat} {b1 : Block} (hm : b.inMsg Kind.peerWrite src no = some m)
    (hw : b.window m.dest m.exp m.offset m.data.length true = some da) (hro : b.roHit da m.data.length = false)
    (hwait : b.writeWaits da m.data.length = false) (hwrite : b.daWrite da m.data = (b1, none)) :
    b.peerWrite src no = ((b1.dropMsg m).applyRop m).ackMsg m true := by
  simp only [Block.peerWrite, hm, hw, hro, hwait, hwrite, Bool.false_eq_true, if_false]

theorem peerRead_outside (hm : b.inMsg Kind.readReq src no = some m)
    (hw : b.window m.dest m.exp m.offset m.length false = none) : b.peerRead src no = (b.dropMsg m).rspMsg m [] := by
  simp only [Block.peerRead, hm, hw]

theorem peerRead_window {da : Nat} {bs : List Byte} {corrected : Bool} {b1 : Block} (hm : b.inMsg Kind.readReq src no = some m)
    (hw : b.window m.dest m.exp m.offset m.length false = some da) (hwait : b.readWaits da m.length = false)
    (hread : b.daRead da m.length = (.ok bs corrected, b1)) :
    b.peerRead src no = ((b1.dropMsg m).applyRop m).rspMsg m bs := by
  simp only [Block.peerRead, hm, hw, hwait, hread, Bool.false_eq_true, if_false]

/-- Settles O30: an access by its window, an answer by the request it names. -/
theorem peerMessages : Obligations.PeerMessages := by
  unfold Obligations.PeerMessages
  intro s src no m
  refine ⟨fun hm => ⟨fun hw => ?_, fun da b1 hw hro hwait hwrite => ?_⟩,
    fun hm => ⟨fun hw => ?_, fun da bs corrected b1 hw hwait hread => ?_⟩,
    fun dest r b1 htake => ⟨fun hm => ?_, fun hm => ?_, fun hm hr => ?_⟩⟩
  · exact run_put (peerWrite_outside hm hw)
  · exact run_put (peerWrite_window hm hw hro hwait hwrite)
  · exact run_put (peerRead_outside hm hw)
  · exact run_put (peerRead_window hm hw hwait hread)
  · exact run_put (by simp only [Block.writeAck, hm, htake])
  · exact run_put (by simp only [Block.readRsp, hm, htake])
  · refine run_put ?_
    simp only [Block.unreachMsg, hm, htake]

end Sys2Proof.Machine
end

section
namespace Sys2Proof.Machine

variable {b : Block} {m : Nat} {f : Flit}

/-! ### Flits received -/

/-- A flit of its type without word errors, on a port that is up, is handed on. -/
theorem rxFlit_clean {typ : Nat} {go : Block → Block} (hup : (b.port m).st.isUp = true) (hbad : f.bad = []) (hfixed : f.fixed = [])
    (ht : f.typ = typ) : b.rxFlit m typ f go = go b := by
  have hwords : b.rxWords m f = b := by
    simp only [Block.rxWords, hbad, hfixed, List.isEmpty_nil, Bool.and_self, if_true]
  simp only [Block.rxFlit, hup, hwords, hbad, ht, List.isEmpty_nil, Bool.not_true, ne_eq, not_true_eq_false, Bool.false_eq_true,
    if_false, if_true]

/-- The expected flit with a right tag is decrypted and accepted. -/
theorem rxSequenced_expected {key : Nat} {p1 : Port} {go : Nat → Block → Block} (hkey : (b.port m).rxKey = some key)
    (hfail : (b.port m).failed = false) (hseq : f.seq = (b.port m).rxSeq)
    (htag : (b.port m).tagOk f (b.port m).rxCtr = true)
    (hp1 : p1 = { (b.port m).credit f with
      rxSeq := ((b.port m).rxSeq + 1) % 4096, rxCtr := (b.port m).rxCtr + 1, nakSent := false, fails := 0,
      freed := (b.port m).freed.upd 0 f.vl (· + 1) }) :
    b.rxSequenced m f go = go (leNat (xorBytes (leBytes 224 f.payload.toNat)
      (Config.gcmStream key (gcmIv (b.port m).rxSalt (b.port m).rxCtr) 224))) (b.setPort m p1) := by
  have hd : ((b.port m).rxSeq + 4096 - f.seq) % 4096 = 0 := by rw [hseq, Nat.add_sub_cancel_left]
  subst hp1
  simp only [Block.rxSequenced, hkey, hfail, hd, htag, Option.isNone_some, Bool.or_self, Bool.false_eq_true, if_false, if_true,
    Option.getD_some]

/-- Settles O31: a link-local flit at once, a sequenced one once it is accepted. -/
theorem flitsReceived : Obligations.FlitsReceived := by
  unfold Obligations.FlitsReceived
  intro s m f hup hbad hfixed
  refine ⟨fun ht => run_put (rxFlit_clean hup hbad hfixed ht), fun ht => run_put (rxFlit_clean hup hbad hfixed ht), ?_⟩
  intro key p1 hkey hfail hseq _ htag hp1 b pl
  have hrx : ∀ typ (go : Nat → Block → Block), f.typ = typ →
      s.blk.rxFlit m typ f (Block.rxSequenced m f go) = go pl b := fun typ go ht =>
    (rxFlit_clean hup hbad hfixed ht).trans (rxSequenced_expected hkey hfail hseq htag hp1)
  refine ⟨fun ht hhost => ?_, fun ht hhost hshut => ?_, fun ht => ?_, fun ht => ?_, fun ht => ?_⟩
  · exact run_put ((hrx 1 _ ht).trans (if_pos hhost))
  · have hgo : b.place m f pl = _ := (if_neg (Bool.eq_false_iff.mp hhost)).trans (if_neg (Bool.eq_false_iff.mp hshut))
    exact run_put ((hrx 1 _ ht).trans hgo)
  · exact run_put (hrx 2 _ ht)
  · exact run_put (hrx 4 _ ht)
  · exact run_put (hrx 5 _ ht)

/-! ### Flits sent -/

variable {p : Port}

theorem not_asleep_of_isUp {st : PortState} (h : st.isUp = true) : st ≠ .asleep := by
  rintro rfl
  cases h

/-- A port with nothing queued has no flit for any VL. -/
theorem vlHead_of_empty (vl : Nat) (h : p.queues = []) : b.vlHead p vl = none := by
  simp only [Block.vlHead, h, Sparse.get, Option.or_self, ite_self]

theorem drr_of_empty (n : Nat) : ∀ p : Port, p.queues = [] → b.drr n p = none := by
  induction n with
  | zero => exact fun _ _ => rfl
  | succ n ih =>
    intro p h
    simp only [Block.drr, vlHead_of_empty _ h, ite_self]
    exact ih _ h

theorem slotFill_of_idle (hup : (b.port m).st.isUp = true) (hq : (b.port m).queues = []) (hr : (b.port m).resend = none) :
    b.slotFill m = if b.shut.shut then b.sendShutter m else b.sendIdle m := by
  simp only [Block.slotFill, hup, hq, hr, vlHead_of_empty _ hq, drr_of_empty 7 _ hq, not_asleep_of_isUp hup, Option.or_self,
    List.any_nil, Bool.and_false, Bool.not_true, Bool.false_eq_true, if_false, ite_self]

theorem slotFill_of_replay {i : Nat} {t : TxFlit} (hup : (b.port m).st.isUp = true) (hfail : (b.port m).failed = false)
    (hshut : b.trustShut = false) (hr : (b.port m).resend = some i) (ht : (b.port m).replay[i]? = some t) (hsent : t.sent < 9) :
    b.slotFill m = (b.setPort m { b.port m with
      replay := (b.port m).replay.set i { t with sent := t.sent + 1 }, replays := Nat.min ((b.port m).replays + 1) (2 ^ 32 - 1),
      resend := if i + 1 < (b.port m).replay.length then some (i + 1) else none }).sendFlit m ((b.port m).header t.seq t.q) t.cipher
        t.tag := by
  simp only [Block.slotFill, hup, hr, ht, hfail, hshut, not_asleep_of_isUp hup, Option.map_some, decide_false, Bool.false_and,
    Bool.or_self, Bool.not_true, Bool.false_eq_true, if_false, if_neg (Nat.not_le.mpr hsent)]

/-! ### The states of a port -/

theorem trainingDone_all {good id gen nonce : Nat} (hst : (b.port m).st = .train) (hgood : good % 256 = 255)
    (hret : ((b.trainKeys m id gen nonce).port m).retiredLanes = 0) :
    b.trainingDone m good id gen nonce = (b.trainKeys m id gen nonce).setPort m
      { ((b.trainKeys m id gen nonce).port m).trained with st := .up8, lanes := 255 } := by
  have hall : (good &&& (255 ^^^ 0)) % 256 = 255 := by
    rw [Nat.xor_zero, show (255 : Nat) = 2 ^ 8 - 1 from rfl, Nat.and_two_pow_sub_one_eq_mod, Nat.mod_mod]
    exact hgood
  simp only [Block.trainingDone, hst, hret, hall, ne_eq, not_true_eq_false, if_false, if_true]

/-- Settles O32, event by event. -/
theorem portEvents : Obligations.PortEvents := by
  unfold Obligations.PortEvents
  intro s m p
  refine ⟨?idle, ?replay, ?timeout, ?trained, ?noSignal, ?signal, ?loss, ?timeCode, ?notice, ?ended⟩
  case idle =>
    intro hup hq hr
    refine ⟨fun hshut => run_put ?_, fun hshut => run_put ?_⟩
    · rw [slotFill_of_idle hup hq hr, hshut, if_neg Bool.false_ne_true]
    · rw [slotFill_of_idle hup hq hr, hshut, if_pos rfl]
  case replay =>
    intro i t hup hfail hshut hr ht hsent p1 hp1
    subst hp1
    exact run_put (slotFill_of_replay hup hfail hshut hr ht hsent)
  case timeout =>
    intro hup hne
    have hgo : ((s.blk.port m).st.isUp && !(s.blk.port m).replay.isEmpty) = true := by
      rw [hup, Bool.true_and, Bool.not_eq_true', List.isEmpty_eq_false_iff]
      exact hne
    exact run_put (if_pos hgo)
  case trained =>
    intro good id gen nonce hst _ hgood b hret
    exact run_put (trainingDone_all hst hgood hret)
  case noSignal =>
    intro hst
    exact run_put (if_pos hst)
  case signal =>
    intro hst
    exact run_put (if_pos (decide_eq_true hst))
  case loss =>
    intro hup
    exact run_put (if_pos hup)
  case timeCode =>
    intro hup hdue hjob b hb
    subst hb
    have hgo : (s.blk.sid.timeDue.contains m && (s.blk.port m).st.isUp && decide (s.blk.trust.job ≠ 0)) = true := by
      rw [hdue, hup, decide_eq_true hjob]
      rfl
    exact run_put (if_pos hgo)
  case notice =>
    intro hup hshut
    have hgo : (s.blk.shut.shut && (s.blk.port m).st.isUp) = true := by rw [hshut, hup]; rfl
    exact run_put (if_pos hgo)
  case ended =>
    intro hps
    exact run_put (if_pos hps)

end Sys2Proof.Machine
end

section
/-!
PROOFS. The cube array and the moves (R112 to R132, R143 to R146). That a STEP keeps the codes of the second half of an 8 × 8 block
for the step after it (keptA, keptB) is log entry 147, the model's own choice.
-/

namespace Sys2Proof.Machine

variable {b : Block} {t g : Nat}

/-! ### Slots -/

/-- A slot of a tile that issues has its effect. -/
theorem slot_of_issuing {f : Block → Block} (h : (b.tile t).issuing = true) : b.slot t f = f b := if_pos h

/-! ### STEP, DRAIN and DISCARD -/

theorem cubeStep_opens (first : (b.tile t |>.group g).state = .closed) (ha : (b.tile t).dregAt.get 0 (16 + g) ≤ (b.tile t).cyc)
    (hb : (b.tile t).dregAt.get 0 (20 + g) ≤ (b.tile t).cyc)
    (hcheck : b.openCheck (Osr.of ((b.tile t).dreg (16 + g))) (Osr.of ((b.tile t).dreg (20 + g))) = none) :
    b.cubeStep t g true = b.applyStep t g { Group.closedG with
      state := .accum, osrA := (b.tile t).dreg (16 + g), osrB := (b.tile t).dreg (20 + g),
      cells := List.replicate 6144 Cell.zero } := by
  have hlatched : (decide ((b.tile t).cyc < (b.tile t).dregAt.get 0 (16 + g)) ||
      decide ((b.tile t).cyc < (b.tile t).dregAt.get 0 (20 + g))) = false := by
    rw [decide_eq_false (Nat.not_lt.mpr ha), decide_eq_false (Nat.not_lt.mpr hb), Bool.or_self]
  simp only [Block.cubeStep, first, hlatched, hcheck, Bool.false_eq_true, if_false]

theorem cubeStep_continues (h : (b.tile t |>.group g).state = .accum) :
    b.cubeStep t g false = b.applyStep t g ((b.tile t).group g) := by
  simp only [Block.cubeStep, h]

/-- A step whose operands are in place and clean: its products in every cell, its rows read, k on by d. -/
theorem applyStep_clean {gr : Group} {d raise : Nat} (hpair : b.pairClass (Osr.of gr.osrA).slot (Osr.of gr.osrB).slot = some (d, raise))
    (hclean : b.allClean = true) {ranges : List (Nat × Nat)}
    (hranges : b.readRanges (Osr.of gr.osrA) 96 gr.k d ++ b.readRanges (Osr.of gr.osrB) 64 gr.k d = ranges)
    (hsettled : ranges.all (fun r => !(b.tile t).unsettled r.1 r.2) = true) {ca cb : List (List Nat) × List (List Nat)}
    (hca : b.stepCodes (b.tsPeek t) (Osr.of gr.osrA) 96 gr.k d gr.keptA = ca)
    (hcb : b.stepCodes (b.tsPeek t) (Osr.of gr.osrB) 64 gr.k d gr.keptB = cb) {r : List Cell × Nat}
    (hr : b.stepCells (b.tsPeek t) (Osr.of gr.osrA) (Osr.of gr.osrB) ca.1 cb.1 gr.k gr.cells = r) :
    b.applyStep t g gr = b.setTile t (ranges.foldl (fun y q => y.touch 0 q.1 q.2 false)
      ((b.tile t).setGroup g { gr with
        k := gr.k + d, last := (b.tile t).cyc, cells := r.1, sat := gr.sat + r.2, keptA := ca.2, keptB := cb.2,
        state := if (Osr.of gr.osrA).klen ≤ gr.k + d then .settle else .accum })) := by
  have hin : ranges.any (fun r => (b.tile t).unsettled r.1 r.2) = false := by
    rw [List.any_eq_false]
    intro r hmem
    have := List.all_eq_true.mp hsettled r hmem
    rw [Bool.not_eq_true'] at this
    rw [this]
    exact Bool.false_ne_true
  unfold Block.applyStep
  simp only [hpair, hranges, hclean, hin, hca, hcb, hr, Bool.not_true, Bool.false_and, Bool.false_eq_true, if_false]
  rfl

theorem cubeDrain_ready {odr : Nat} (hst : (b.tile t |>.group g).state = .ready)
    (hlatched : (b.tile t).dregAt.get 0 (24 + odr) ≤ (b.tile t).cyc) (hfree : (b.tile t).drain = none)
    (hok : b.odrOk (Odr.of ((b.tile t).dreg (24 + odr))) = true) :
    b.cubeDrain t g odr = b.setTile t { ((b.tile t).setGroup g Group.closedG) with
      drain := some { odr := (b.tile t).dreg (24 + odr), cells := ((b.tile t).group g).cells, issued := (b.tile t).cyc,
                      sat := ((b.tile t).group g).sat, chunk := 0 } } := by
  simp only [Block.cubeDrain, hst, if_neg (Nat.not_lt.mpr hlatched), hfree, hok, Option.isSome_none, Bool.not_true, Bool.false_eq_true,
    if_false]

theorem cubeDiscard_idle (h : (b.tile t |>.group g).state ≠ .rerun) :
    b.cubeDiscard t g = b.setTile t ((b.tile t).setGroup g Group.closedG) := by
  simp only [Block.cubeDiscard]
  rfl

/-- Settles O33: a pair on one group faults, and on two groups acts one after the other. -/
theorem cubeSlotOps : Obligations.CubeSlotOps := by
  unfold Obligations.CubeSlotOps
  intro s t g hiss x
  refine ⟨?step, ?drain, ?discard, ?pair, ?same⟩
  case step =>
    intro first gr d raise hfirst hnext oa ob hpair hclean ranges hsettled ca cb r
    have hgo : s.blk.cubeStep t g first = s.blk.applyStep t g gr := by
      cases first with
      | true =>
        obtain ⟨hst, ha, hb, hcheck, hgr⟩ := hfirst rfl
        rw [hgr]
        exact cubeStep_opens hst ha hb hcheck
      | false =>
        obtain ⟨hst, hgr⟩ := hnext rfl
        rw [hgr]
        exact cubeStep_continues hst
    exact run_put (((slot_of_issuing hiss).trans hgo).trans (applyStep_clean hpair hclean rfl hsettled rfl rfl rfl))
  case drain =>
    intro odr hst hlatched hfree hok
    exact run_put ((slot_of_issuing hiss).trans (cubeDrain_ready hst hlatched hfree hok))
  case discard =>
    intro hst
    exact run_put ((slot_of_issuing hiss).trans (cubeDiscard_idle hst))
  case pair =>
    intro first dg odr u hne hu
    have hstep : exec (.step t g first) s = .next (s.put (s.blk.cubeStep t g first)) := run_put (slot_of_issuing hiss)
    have hu' : u = s.put (s.blk.cubeStep t g first) := Host.Outcome.next.inj (hu.symm.trans hstep)
    subst hu'
    refine ⟨run_put ((slot_of_issuing hiss).trans (if_neg hne)), run_put ((slot_of_issuing hiss).trans (if_neg hne))⟩
  case same =>
    intro first odr
    exact ⟨run_put ((slot_of_issuing hiss).trans (if_pos rfl)), run_put ((slot_of_issuing hiss).trans (if_pos rfl))⟩

/-! ### Settling, draining, reruns and the spare row -/

/-- A group in one of the three open states goes to RERUN with its state and step count kept. -/
theorem toRerun_of_open {gr : Group} (h : gr.state = .accum ∨ gr.state = .settle ∨ gr.state = .ready) :
    gr.toRerun = { gr with state := .rerun, back := gr.state, target := gr.k, cells := [] } := by
  obtain h | h | h := h <;> simp only [Group.toRerun, h]

theorem transientFault_first {row col id : Nat} (hheld : (b.tile t).held = none) (hrun : (b.tile t).run = some id)
    (hhalt : (b.tile t).halted = false) (hsw : (b.tile t).switching = false) (hre : (b.tile t).rerun = [])
    (hst : (b.tile t |>.group g).state = .accum ∨ (b.tile t |>.group g).state = .settle ∨ (b.tile t |>.group g).state = .ready) :
    b.transientFault t g row col = Block.tileAcquire t Status.passRerun (b.setTile t
      { ((b.tile t).setGroup g { (b.tile t).group g with
          state := .rerun, back := ((b.tile t).group g).state, target := ((b.tile t).group g).k, cells := [] }) with
        rerun := [g], faultAt := (g, row, col) :: (b.tile t).faultAt.filter (fun f => f.1 ≠ g) }) := by
  have hnot : (b.tile t |>.group g).state ≠ .rerun ∧ (b.tile t |>.group g).state ≠ .closed := by
    obtain h | h | h := hst <;> rw [h] <;> decide
  simp only [Block.transientFault, hheld, hrun, hhalt, hsw, hre, if_neg hnot.1, if_neg hnot.2, toRerun_of_open hst, Option.isSome_none,
    Option.isNone_some, Bool.or_self, Bool.false_eq_true, if_false, List.nil_append]
  rfl

theorem rerunDone_head {rest : List Nat} (hsw : (b.tile t).switching = false) (hre : (b.tile t).rerun = g :: rest)
    (hheld : (b.tile t).held = none) :
    b.rerunDone t = b.setTile t { ((b.tile t).setGroup g (b.replay t ((b.tile t).group g))) with
      rerun := rest, faultAt := (b.tile t).faultAt.filter (fun f => f.1 ≠ g) } := by
  simp only [Block.rerunDone, hsw, hre, hheld, Option.isSome_none, Bool.false_eq_true, if_false]

theorem spareRowDone_switching {row col : Nat} {more : List (Nat × Nat × Nat)} (hsw : (b.tile t).switching = true)
    (hf : (b.tile t).faultAt = (g, row, col) :: more) :
    b.spareRowDone t = Block.tileAcquire t (Status.passRerun + loggedMark)
      ((b.setTile t { b.tile t with switching := false, badRow := row, st := 1, faultAt := [] }).almanacChange Status.passRerun 1 t
        0 0) := by
  simp only [Block.spareRowDone, hsw, hf, Bool.not_true, Bool.false_eq_true, if_false]

theorem drainEvent_running {d : Drain} (hd : (b.tile t).drain = some d) (hrun : (b.tile t).run.isSome = true)
    (hdue : d.until ≤ (b.tile t).cyc) :
    b.drainEvent t = (List.range (96 / (Odr.of d.odr).rows - d.chunk)).foldl (fun (b : Block) _ => b.drainChunk t) b := by
  simp only [Block.drainEvent, Block.drainComplete, hd, isNone_eq_false hrun, if_pos hdue, Bool.false_eq_true, if_false]

theorem drainEvent_halted {d : Drain} (hd : (b.tile t).drain = some d) (hrun : (b.tile t).run = none) :
    b.drainEvent t = (b.drainComplete t).drainFlight t := by
  simp only [Block.drainEvent, hd, hrun, Option.isNone_none, if_true]

/-- Settles O34, event by event. -/
theorem cubeEvents : Obligations.CubeEvents := by
  unfold Obligations.CubeEvents
  intro s t g x
  refine ⟨?settle, ?drain, ?halted, ?fault, ?rerun, ?spare⟩
  case settle =>
    intro hst hdue
    exact run_put (if_pos ⟨hst, hdue⟩)
  case drain =>
    intro d hd hrun hdue
    exact run_put (drainEvent_running hd hrun hdue)
  case halted =>
    intro d hd hrun
    exact run_put (drainEvent_halted hd hrun)
  case fault =>
    intro row col id hheld hrun hhalt hsw hre hst
    exact run_put (transientFault_first hheld hrun hhalt hsw hre hst)
  case rerun =>
    intro rest hsw hre hheld
    exact run_put (rerunDone_head hsw hre hheld)
  case spare =>
    intro row col more hsw hf
    exact run_put (spareRowDone_switching hsw hf)

/-! ### Moves -/

theorem moveIssue_of_valid {load : Bool} {mdr ac : Nat} (hroom : (b.tile t).moves.length < 32)
    (hlatched : (b.tile t).dregAt.get 0 mdr ≤ (b.tile t).cyc) (hvalid : ((b.tile t).mkMove load mdr ac).valid = true) :
    b.moveIssue t load mdr ac = Block.tallyStart (moveKind load) t (b.tile t).nextMove
      (b.setTile t { b.tile t with
        moves := (b.tile t).moves ++ [(b.tile t).mkMove load mdr ac], nextMove := (b.tile t).nextMove + 1 }) := by
  simp only [Block.moveIssue, if_neg (Nat.not_le.mpr hroom), if_neg (Nat.not_lt.mpr hlatched), hvalid, Bool.not_true, Bool.false_eq_true,
    if_false]
  rfl

variable {m : Move}

/-- The granule of a LOAD that is still to come, by the region of its address. -/
theorem loadGranule_open (hm : (b.tile t).move m.id = some m) (hg : g < m.total) (hdone : m.done.contains g = false)
    (hasked : m.asked.contains g = false) (hload : m.load = true) :
    (∀ addr, regionOf (m.gda g) = .host addr → b.loadGranule t m.id g =
      Block.askHost addr 64 (.move t m.id g) (b.setTile t ((b.tile t).setMove { m with asked := g :: m.asked }))) ∧
    (∀ ex rank off, regionOf (m.gda g) = .peer ex rank off → b.loadGranule t m.id g =
      Block.askPeerRead ex rank off 64 (.move t m.id g) (b.setTile t ((b.tile t).setMove { m with asked := g :: m.asked }))) ∧
    (∀ (bs : List Byte) (b' : Block), regionOf (m.gda g) = .hbm → b.readWaits (m.gda g) 64 = false →
      b.daRead (m.gda g) 64 = (.ok bs false, b') → b.loadGranule t m.id g =
        ((b'.memWrite (tileDa t + m.gts g) bs).tallyData 2 t m.id (m.gda g) bs).countGranule t m g) := by
  have hgo : (!m.load || decide (m.total ≤ g) || m.done.contains g || m.asked.contains g) = false := by
    rw [hload, hdone, hasked, decide_eq_false (Nat.not_le.mpr hg)]
    rfl
  refine ⟨fun addr hr => ?_, fun ex rank off hr => ?_, fun bs b' hr hwait hread => ?_⟩
  · simp only [Block.loadGranule, hm, hgo, hr, Bool.false_eq_true, if_false]
    rfl
  · simp only [Block.loadGranule, hm, hgo, hr, Bool.false_eq_true, if_false]
    rfl
  · unfold Block.loadGranule
    obtain ⟨read, hread'⟩ : ∃ f, f = Block.daRead := exists_eq
    rw [← hread'] at hread ⊢
    simp only [hm, hgo, hr, hwait, hread, Bool.false_eq_true, if_false]
    simp only [Block.loadArrives, hload, moveKind, if_true]

/-- The granule of a STORE that is still to go, by the region of its address. -/
theorem storeGranule_open (hm : (b.tile t).move m.id = some m) (hg : g < m.total) (hdone : m.done.contains g = false)
    (hasked : m.asked.contains g = false) (hload : m.load = false) {bs : List Byte} {b1 : Block}
    (hts : b.tsRead t (m.gts g) 64 = (some bs, b1)) :
    (∀ addr, regionOf (m.gda g) = .host addr → b.storeGranule t m.id g =
      ((b1.emit (.hostWrite addr bs)).tallyData 3 t m.id (m.gda g) bs).countGranule t m g) ∧
    (∀ ex rank off, regionOf (m.gda g) = .peer ex rank off → b.storeGranule t m.id g =
      ((b1.setTile t ((b1.tile t).setMove { m with asked := g :: m.asked })).tallyData 3 t m.id (m.gda g) bs).askPeerWrite ex rank
        off bs (.move t m.id g)) ∧
    (∀ b2 : Block, regionOf (m.gda g) = .hbm → localPopulated (m.gda g) 64 = true → b.roHit (m.gda g) 64 = false →
      b.writeWaits (m.gda g) 64 = false → b1.daWrite (m.gda g) bs = (b2, none) →
      b.storeGranule t m.id g = (b2.tallyData 3 t m.id (m.gda g) bs).countGranule t m g) := by
  have hgo : (m.load || decide (m.total ≤ g) || m.done.contains g || m.asked.contains g) = false := by
    rw [hload, hdone, hasked, decide_eq_false (Nat.not_le.mpr hg)]
    rfl
  unfold Block.storeGranule Block.storeBytes
  obtain ⟨read, hread'⟩ : ∃ f, f = Block.tsRead := exists_eq
  rw [← hread'] at hts ⊢
  refine ⟨fun addr hr => ?_, fun ex rank off hr => ?_, fun b2 hr hpop hro hwait hwrite => ?_⟩
  · simp only [hm, hgo, hr, hts, Bool.false_eq_true, if_false]
  · simp only [hm, hgo, hr, hts, Bool.false_eq_true, if_false]
    rfl
  · obtain ⟨write, hwrite'⟩ : ∃ f, f = Block.daWrite := exists_eq
    rw [← hwrite'] at hwrite ⊢
    simp only [hm, hgo, hr, hpop, hro, hwait, hts, hwrite, Bool.not_true, Bool.false_eq_true, if_false]

/-- Settles O35: the slot, the granules by region, and the frozen cycle. -/
theorem moveOps : Obligations.MoveOps := by
  unfold Obligations.MoveOps
  intro s t x
  refine ⟨?slot, ?granule, ?starved⟩
  case slot =>
    intro mdr ac hiss hroom hlatched
    exact ⟨fun hv => run_put ((slot_of_issuing hiss).trans (moveIssue_of_valid hroom hlatched hv)),
      fun hv => run_put ((slot_of_issuing hiss).trans (moveIssue_of_valid hroom hlatched hv))⟩
  case granule =>
    intro m g hm hg hdone hasked
    refine ⟨fun hload => ?_, fun hload bs b hts => ?_⟩
    · obtain ⟨hhost, hpeer, hlocal⟩ := loadGranule_open hm hg hdone hasked hload
      exact ⟨fun addr hr => run_put (hhost addr hr), fun ex rank off hr => run_put (hpeer ex rank off hr),
        fun bs b hr hwait hread => run_put (hlocal bs b hr hwait hread)⟩
    · obtain ⟨hhost, hpeer, hlocal⟩ := storeGranule_open hm hg hdone hasked hload hts
      exact ⟨fun addr hr => run_put (hhost addr hr), fun ex rank off hr => run_put (hpeer ex rank off hr),
        fun b' hr hpop hro hwait hwrite => run_put (hlocal b' hr hpop hro hwait hwrite)⟩
  case starved =>
    intro hmoves hrun
    have hgo : ((s.blk.tile t).moves.isEmpty || (s.blk.tile t).run.isNone) = false := by
      rw [isNone_eq_false hrun, Bool.or_false, List.isEmpty_eq_false_iff]
      exact hmoves
    exact run_put (if_neg (Bool.eq_false_iff.mp hgo))

end Sys2Proof.Machine
end

section
/-!
PROOFS. Scalar cores (R180 to R184). The packet of a PKT stands in the quadrant's queue from the issue cycle on, which is log entry
40, the model's own choice.
-/

namespace Sys2Proof.Machine

variable {b : Block} {t : Nat}

/-- A tile just set reads as set, where the table of tiles is canonical. -/
theorem tile_setTile {x : Tile} (h : b.tiles.wf Tile.zero = true) : (b.setTile t x).tile t = x := Sparse.get_set_eq Tile.zero x h

/-- A scalar slot of a tile that issues, on a core that is not busy, has its effect. -/
theorem scalar_of_ready {core : Nat} {f : Tile → Block → Block} (h : b.scalarReady t core) : b.scalar t core f = f (b.tile t) b := by
  obtain ⟨hiss, hbusy⟩ := h
  exact (slot_of_issuing hiss).trans (if_neg (Nat.not_lt.mpr hbusy))

/-! ### Words -/

theorem wordSlt_eq (p q : Word) : wordSlt p q = if p.toInt < q.toInt then 1 else 0 := by
  simp only [wordSlt, BitVec.slt, decide_eq_true_eq]

theorem wordSltu_eq (p q : Word) : wordSltu p q = if p.toNat < q.toNat then 1 else 0 := by
  simp only [wordSltu, BitVec.ult, decide_eq_true_eq]

theorem mul_eq_ofNat (p q : Word) : p * q = BitVec.ofNat 32 (p.toNat * q.toNat) := by
  apply BitVec.eq_of_toNat_eq
  rw [BitVec.toNat_mul, BitVec.toNat_ofNat]

theorem wordDivu_eq (p q : Word) : wordDivu p q = if q = 0 then 0xFFFFFFFF else BitVec.ofNat 32 (p.toNat / q.toNat) := by
  have hdiv : p / q = BitVec.ofNat 32 (p.toNat / q.toNat) := by
    apply BitVec.eq_of_toNat_eq
    rw [BitVec.toNat_udiv, BitVec.toNat_ofNat, Nat.mod_eq_of_lt (Nat.lt_of_le_of_lt (Nat.div_le_self _ _) p.isLt)]
  rw [wordDivu, hdiv]

theorem wordRemu_eq (p q : Word) : wordRemu p q = if q = 0 then p else BitVec.ofNat 32 (p.toNat % q.toNat) := by
  have hmod : p % q = BitVec.ofNat 32 (p.toNat % q.toNat) := by
    apply BitVec.eq_of_toNat_eq
    rw [BitVec.toNat_umod, BitVec.toNat_ofNat, Nat.mod_eq_of_lt (Nat.lt_of_le_of_lt (Nat.mod_le _ _) p.isLt)]
  rw [wordRemu, hmod]

/-- Sign extension by the sign bit. -/
theorem sx_eq_ite (n x : Nat) : sx (n + 1) x =
    if x % 2 ^ (n + 1) < 2 ^ n then ((x % 2 ^ (n + 1) : Nat) : Int) else ((x % 2 ^ (n + 1) : Nat) : Int) - 2 ^ (n + 1) := by
  have hpow : 2 ^ (n + 1) = 2 * 2 ^ n := by rw [Nat.pow_succ, Nat.mul_comm]
  unfold sx
  dsimp only
  by_cases h : x % 2 ^ (n + 1) < 2 ^ n
  · rw [if_pos h, if_neg (by omega)]
  · rw [if_neg h, if_pos (by omega)]
    push_cast
    rfl

theorem imm14_eq (n : Nat) : imm14 n =
    BitVec.ofInt 32 (if n % 2 ^ 14 < 2 ^ 13 then ((n % 2 ^ 14 : Nat) : Int) else ((n % 2 ^ 14 : Nat) : Int) - 2 ^ 14) := by
  rw [imm14, sx_eq_ite]

/-- A shift count is bits 4:0 of IMM14. -/
theorem shCount_imm14 (n : Nat) : shCount (imm14 n) = n % 32 := by
  have hmod : n % 2 ^ 14 % 32 = n % 32 := Nat.mod_mod_of_dvd n (by decide)
  rw [shCount, imm14_eq, BitVec.toNat_ofInt]
  split <;> omega

theorem sx19_low {n : Nat} (h : n < 2 ^ 18) : BitVec.ofInt 32 (sx 19 n) = BitVec.ofNat 32 n := by
  rw [sx_eq_ite, Nat.mod_eq_of_lt (by omega), if_pos h]
  rfl

theorem sx19_high {n : Nat} (hlo : 2 ^ 18 ≤ n) (hhi : n < 2 ^ 19) :
    BitVec.ofInt 32 (sx 19 n) = BitVec.ofNat 32 (2 ^ 32 - 2 ^ 19 + n) := by
  rw [sx_eq_ite, Nat.mod_eq_of_lt hhi, if_neg (Nat.not_lt.mpr hlo)]
  apply BitVec.eq_of_toNat_eq
  rw [BitVec.toNat_ofInt, BitVec.toNat_ofNat]
  omega

/-- A half of SC as a word. -/
theorem scHalf_eq (sc : BitVec 64) (k : Nat) : BitVec.ofNat 32 (sc.toNat / 2 ^ k) = sc.extractLsb' k 32 := by
  apply BitVec.eq_of_toNat_eq
  rw [BitVec.extractLsb'_toNat, BitVec.toNat_ofNat, Nat.shiftRight_eq_div_pow]

/-! ### Arithmetic -/

/-- Form R puts its result in flight. -/
theorem scR_of_ready {a : ScR} {l : Nat} {f : Word → Word → Word} (h : b.scalarReady t a.core) :
    b.scR t a l f = b.setTile t ((b.tile t).awaits l (.sreg a.core a.rd)
      (f ((b.tile t).sw a.core a.ra) ((b.tile t).sw a.core a.rb)).toNat []) := scalar_of_ready h

theorem run_scR {s : State} {a : ScR} {l : Nat} {f : Word → Word → Word} {w : Word} (h : s.blk.scalarReady t a.core)
    (hw : f (s.scalarReg t a.core a.ra) (s.scalarReg t a.core a.rb) = w) :
    s.run (Block.scR t a l f) = .next (s.scalarSets t l a.core a.rd w) := by
  subst hw
  exact run_put (scR_of_ready h)

theorem run_scI {s : State} {a : ScI} {f : Word → Word → Word} {w : Word} (h : s.blk.scalarReady t a.core)
    (hw : f (s.scalarReg t a.core a.ra) (imm14 a.imm) = w) :
    s.run (Block.scI t a f) = .next (s.scalarSets t 2 a.core a.rd w) := by
  subst hw
  exact run_put (scalar_of_ready h)

/-- DIVU and REMU put their result in flight and keep the core busy. -/
theorem run_scDiv {s : State} {a : ScR} {f : Word → Word → Word} {w : Word} (h : s.blk.scalarReady t a.core)
    (hwf : s.blk.tiles.wf Tile.zero = true) (hw : f (s.scalarReg t a.core a.ra) (s.scalarReg t a.core a.rb) = w) {u : State}
    (hu : u = s.scalarSets t 16 a.core a.rd w) :
    s.run (Block.scDiv t a f) = .next (u.withTile t
      { u.blk.tile t with busy := (u.blk.tile t).busy.set 0 a.core ((s.blk.tile t).cyc + 16) }) := by
  subst hw
  have htile : u.blk.tile t = (s.blk.tile t).awaits 16 (.sreg a.core a.rd)
      (f (s.scalarReg t a.core a.ra) (s.scalarReg t a.core a.rb)).toNat [] := by
    rw [hu]
    exact tile_setTile hwf
  have hcyc : (s.blk.tile t).cyc = (u.blk.tile t).cyc := by
    rw [htile]
    rfl
  have hrun : s.blk.scDiv t a f = u.blk.onTile t (fun x => { x with busy := x.busy.set 0 a.core (x.cyc + 16) }) := by
    rw [hu]
    exact scalar_of_ready h
  rw [hcyc]
  refine (run_put hrun).trans ?_
  rw [hu]
  rfl

/-- Settles O36, operation by operation. -/
theorem scalarArithmetic : Obligations.ScalarArithmetic := by
  unfold Obligations.ScalarArithmetic
  refine ⟨?regs, ?imms⟩
  case regs =>
    intro s t a h x y busy
    refine ⟨run_scR h rfl, run_scR h rfl, run_scR h rfl, run_scR h rfl, run_scR h rfl, run_scR h rfl, run_scR h rfl, run_scR h rfl,
      run_scR h (wordSlt_eq x y), run_scR h (wordSltu_eq x y), run_scR h (mul_eq_ofNat x y), run_scR h rfl, ?div, ?vget⟩
    case div =>
      intro hwf
      exact ⟨run_scDiv h hwf (wordDivu_eq x y) rfl, run_scDiv h hwf (wordRemu_eq x y) rfl⟩
    case vget =>
      intro vn lane
      refine run_put ((scalar_of_ready h).trans ?_)
      dsimp only
      rw [Nat.shiftRight_eq_div_pow]
      rfl
  case imms =>
    intro s t a u
    refine ⟨?formI, ?formU⟩
    case formI =>
      intro h x imm
      have himm : imm14 a.imm = imm := imm14_eq a.imm
      refine ⟨run_scI h ?_, run_scI h ?_, run_scI h ?_, run_scI h ?_, run_scI h ?_, run_scI h ?_, run_scI h ?_⟩
      · rw [himm]
      · rw [himm]
      · rw [himm]
      · rw [himm]
      · rw [wordShl, shCount_imm14]
      · rw [wordShr, shCount_imm14]
      · rw [wordSar, shCount_imm14]
    case formU =>
      intro h
      refine ⟨fun hlo => ?_, fun hlo hhi => ?_, run_put (scalar_of_ready h), fun hz => ?_, fun h1 => ?_⟩
      · rw [← sx19_low hlo]
        exact run_put (scalar_of_ready h)
      · rw [← sx19_high hlo hhi]
        exact run_put (scalar_of_ready h)
      · rw [← scHalf_eq, Nat.pow_zero, Nat.div_one]
        exact run_put ((scalar_of_ready h).trans (by rw [if_pos hz]; rfl))
      · rw [← scHalf_eq]
        exact run_put ((scalar_of_ready h).trans (by rw [if_neg (by rw [h1]; decide)]; rfl))

/-! ### Branches -/

theorem scBranch_of_ready {a : ScB} {cond : Word → Word → Bool} (h : b.scalarReady t a.core) (hbr : (b.tile t).branch = none) :
    b.scBranch t a cond = if cond ((b.tile t).sw a.core a.ra) ((b.tile t).sw a.core a.rb) then
      b.setTile t { b.tile t with branch := some (3, a.target) } else b := by
  refine (scalar_of_ready h).trans ?_
  simp only [hbr, Option.isSome_none, Bool.false_eq_true, if_false]
  rfl

/-- A branch outside a delay bundle redirects where its condition holds. -/
theorem run_scBranch {s : State} {a : ScB} {cond : Word → Word → Bool} (h : s.blk.scalarReady t a.core)
    (hbr : (s.blk.tile t).branch = none) :
    s.run (Block.scBranch t a cond) = .next (if cond (s.scalarReg t a.core a.ra) (s.scalarReg t a.core a.rb) then
      s.withTile t { s.blk.tile t with branch := some (3, a.target) } else s) := by
  refine (run_put (scBranch_of_ready h hbr)).trans ?_
  rw [show (s.blk.tile t).sw a.core a.ra = s.scalarReg t a.core a.ra from rfl,
    show (s.blk.tile t).sw a.core a.rb = s.scalarReg t a.core a.rb from rfl]
  split <;> rfl

theorem scDbnz_of_ready {a : ScB} (h : b.scalarReady t a.core) (hbr : (b.tile t).branch = none) :
    b.scDbnz t a = if (b.tile t).sw a.core a.ra - 1 = 0 then b.scLater t 2 a.core a.ra ((b.tile t).sw a.core a.ra - 1)
      else (b.scLater t 2 a.core a.ra ((b.tile t).sw a.core a.ra - 1)).onTile t (fun x => { x with branch := some (3, a.target) }) := by
  refine (scalar_of_ready h).trans ?_
  simp only [hbr, Option.isSome_none, Bool.false_eq_true, if_false]

/-! ### Accesses -/

theorem scAddrOk_of {ea size n : Nat} (ha : ea % size = 0) (hb : ea + n ≤ 0xC00000) : (!scAddrOk ea size n) = false := by
  rw [scAddrOk, decide_eq_true ha, decide_eq_true (show ea + n ≤ tileBytes from hb)]
  rfl

theorem scAddrOk_not {ea size n : Nat} (h : ea % size ≠ 0 ∨ 0xC00000 < ea + n) : (!scAddrOk ea size n) = true := by
  rw [scAddrOk, Bool.not_eq_true', Bool.and_eq_false_iff]
  exact h.imp (fun h => decide_eq_false h) (fun h => decide_eq_false (Nat.not_le.mpr h))

theorem scDesc_of_read {core dr ea : Nat} {bs : List Byte} {b' : Block} (hread : b.portRead t (5 + core) ea 16 = (some bs, b')) :
    b.scDesc t core dr ea = b'.setTile t { (b'.tile t).awaits 4 (.dreg dr) (leNat bs) [] with
      dregAt := (b'.tile t).dregAt.set 0 dr ((b'.tile t).cyc + 4) } := by
  unfold Block.scDesc
  obtain ⟨read, hread'⟩ : ∃ f, f = Block.portRead := exists_eq
  rw [← hread'] at hread ⊢
  simp only [hread]
  rfl

theorem scPkt_of_room {a : ScI} {h ps : List Byte} {b1 b2 : Block} (hready : b.scalarReady t a.core) (hroom : b.pktRoom t = true)
    {ea n : Nat} (hea : scEa (b.tile t) a 64 = ea) (hal : ea % 64 = 0) (hin : ea + 64 ≤ 0xC00000)
    (hread : b.portRead t (5 + a.core) ea 64 = (some h, b1)) (hn : bits (leNat h) 23 16 = n) (hpos : 1 ≤ n) (hmax : n ≤ 4)
    (hall : ea + 64 * n ≤ 0xC00000) (hps : b1.tsRead t (ea + 64) (64 * n - 64) = (some ps, b2)) :
    b.scPkt t a = { (b2.onTile t (fun x => { x with busy := x.busy.set 0 a.core (x.cyc + 4 * n) })) with
      mer.tileQ := b2.mer.tileQ.upd [] (t / 36) (· ++
        [({ src := .tile t, hdr := BitVec.ofNat 512 (leNat h), params := ps },
          (((b.tile t).run.bind b2.cmd).map (fun c => c.ring)).getD 0)]) } := by
  have hslots : ¬ (n = 0 ∨ 4 < n) := by omega
  refine (scalar_of_ready hready).trans ?_
  obtain ⟨read, hread'⟩ : ∃ f, f = Block.portRead := exists_eq
  obtain ⟨store, hstore'⟩ : ∃ f, f = Block.tsRead := exists_eq
  rw [← hread'] at hread ⊢
  rw [← hstore'] at hps ⊢
  simp only [hroom, hea, hread, hn, hps, scAddrOk_of hal hin, scAddrOk_of hal hall, if_neg hslots, Bool.not_true, Bool.false_eq_true,
    if_false]

/-- Settles O37: branches by their comparison, accesses by their address. -/
theorem scalarBranchesAndAccesses : Obligations.ScalarBranchesAndAccesses := by
  unfold Obligations.ScalarBranchesAndAccesses
  refine ⟨?branches, ?accesses⟩
  case branches =>
    intro s t a h hbr x y taken
    refine ⟨run_scBranch h hbr, ?beq, ?bne, ?blt, ?bge, ?dbnz, ?last⟩
    case beq =>
      refine (run_scBranch h hbr).trans (congrArg _ ?_)
      simp only [beq_iff_eq]
      rfl
    case bne =>
      refine (run_scBranch h hbr).trans (congrArg _ ?_)
      simp only [bne_iff_ne, ne_eq, ite_not]
      rfl
    case blt =>
      refine (run_scBranch h hbr).trans (congrArg _ ?_)
      simp only [BitVec.slt, decide_eq_true_eq]
      rfl
    case bge =>
      refine (run_scBranch h hbr).trans (congrArg _ ?_)
      simp only [BitVec.slt, Bool.not_eq_true', decide_eq_false_iff_not, ite_not]
      rfl
    case dbnz =>
      intro hx
      have hne : (s.blk.tile t).sw a.core a.ra - 1 ≠ 0 := fun h0 => hx (sub_eq_zero.mp h0)
      exact run_put ((scDbnz_of_ready h hbr).trans (if_neg hne))
    case last =>
      intro hx
      have hz : (s.blk.tile t).sw a.core a.ra - 1 = 0 := sub_eq_zero.mpr hx
      refine run_put ((scDbnz_of_ready h hbr).trans ((if_pos hz).trans ?_))
      rw [hz]
      rfl
  case accesses =>
    intro s t a d ea
    refine ⟨fun h => ⟨?ld, ?st, ?wdrr, ?pkt, ?bad4, ?bad16⟩, ?wdr⟩
    case ld =>
      intro bs b hal hin hread
      refine run_put ((scalar_of_ready h).trans ?_)
      dsimp only
      rw [if_neg (Bool.eq_false_iff.mp (scAddrOk_of hal hin))]
      obtain ⟨read, hread'⟩ : ∃ f, f = Block.portRead := exists_eq
      rw [← hread'] at hread ⊢
      simp only [ea] at hread
      simp only [hread]
      rfl
    case st =>
      intro hal hin
      refine run_put ((scalar_of_ready h).trans ?_)
      exact if_neg (Bool.eq_false_iff.mp (scAddrOk_of hal hin))
    case wdrr =>
      intro bs b hal hin hread
      refine run_put ((scalar_of_ready h).trans ?_)
      dsimp only
      rw [if_neg (Bool.eq_false_iff.mp (scAddrOk_of hal hin))]
      exact scDesc_of_read hread
    case pkt =>
      intro hd ps b b' hroom hal hin hread hpos hmax hall hps hq htiles hbusy
      refine ⟨_, run_put (scPkt_of_room h hroom rfl hal hin hread rfl hpos hmax hall hps), rfl, ?queue, ?busy, rfl⟩
      case queue => exact Sparse.get_set_eq [] _ hq
      case busy =>
        have htile := tile_setTile (t := t) (x := { b'.tile t with
          busy := (b'.tile t).busy.set 0 a.core ((b'.tile t).cyc + 4 * bits (leNat hd) 23 16) }) htiles
        exact (congrArg (fun x : Tile => x.busy.get 0 a.core) htile).trans (Sparse.get_set_eq 0 _ hbusy)
    case bad4 =>
      intro hbad
      refine ⟨run_put ((scalar_of_ready h).trans ?_), run_put ((scalar_of_ready h).trans ?_)⟩
      · exact if_pos (scAddrOk_not hbad)
      · exact if_pos (scAddrOk_not hbad)
    case bad16 =>
      intro hbad
      exact run_put ((scalar_of_ready h).trans (if_pos (scAddrOk_not hbad)))
    case wdr =>
      intro h bs b hread
      exact run_put ((scalar_of_ready h).trans (scDesc_of_read hread))

end Sys2Proof.Machine
end

section
/-!
PROOFS. The sync slot (R148) and the effect of an operation on a counter (R62, R64, R65).
-/

namespace Sys2Proof.Machine

variable {b : Block} {t : Nat}

theorem sval_eq (s : State) (t : Nat) (v : SVal) :
    (s.blk.tile t).sval v = match v with | .imm k => k | .reg c r => (s.scalarReg t c r).toNat := by
  cases v <;> rfl

/-- A wait of a tile that issues lets the bundle go, or holds it. -/
theorem run_slotWait {s : State} {holds : Tile → Block → Bool} {w : Bool} (hiss : (s.blk.tile t).issuing = true)
    (hw : holds (s.blk.tile t) s.blk = w) :
    s.run (Block.slotWait t holds) = .next (s.withTile t (if w then { s.blk.tile t with waitOk := true, waitSince := none }
      else { s.blk.tile t with waitOk := false, waitSince := some ((s.blk.tile t).waitSince.getD s.blk.sid.sc.toNat) })) := by
  subst hw
  refine (run_put (slot_of_issuing hiss)).trans ?_
  dsimp only
  split <;> rfl

/-- An operation that is alone on its counter takes effect there; waiting commands are looked at after it. -/
theorem syncEffect_alone {o : SyncOp} (halone : b.mer.syncPending.filter (fun q => q.ctr = o.ctr) = [o]) (hcmd : o.cmd = none) :
    b.syncEffect o.ctr = Block.wakeWaiters o.ctr { b with
      mer.sync := b.mer.sync.set 0 o.ctr (SyncOp.apply (b.mer.sync.get 0 o.ctr) o),
      mer.syncPending := b.mer.syncPending.filter (fun q => q.ctr ≠ o.ctr) } := by
  simp only [Block.syncEffect, halone, List.foldl_cons, List.foldl_nil, insertOp, hcmd]

/-- What an operation leaves in its counter (R62). -/
theorem syncApply_toNat (v : Word) (o : SyncOp) :
    (SyncOp.apply v o).toNat = if o.set then o.val % 2 ^ 32 else (v.toNat + o.val) % 2 ^ 32 := by
  unfold SyncOp.apply
  split
  · rw [BitVec.toNat_ofNat]
  · rw [BitVec.toNat_add, BitVec.toNat_ofNat, Nat.add_mod_mod]

/-- Settles O38. -/
theorem syncSlotOps : Obligations.SyncSlotOps := by
  unfold Obligations.SyncSlotOps
  refine ⟨?slot, ?effect⟩
  case slot =>
    intro s t n cond v hiss x val wait issued
    have hval : (s.blk.tile t).sval v = val := sval_eq s t v
    refine ⟨?add, ?set, ?wait, ?waitAc, ?setAc⟩
    case add =>
      refine run_put ((slot_of_issuing hiss).trans ?_)
      dsimp only
      rw [hval]
      rfl
    case set =>
      refine run_put ((slot_of_issuing hiss).trans ?_)
      dsimp only
      rw [hval]
      rfl
    case wait => exact run_slotWait hiss (by rw [hval]; rfl)
    case waitAc => exact run_slotWait hiss (by rw [hval]; rfl)
    case setAc =>
      refine run_put ((slot_of_issuing hiss).trans ?_)
      unfold Block.onTile
      dsimp only
      rw [hval]
      rfl
  case effect =>
    intro s o halone hcmd hwf
    have hsync := syncEffect_alone halone hcmd
    generalize hb : ({ s.blk with
      mer.sync := s.blk.mer.sync.set 0 o.ctr (SyncOp.apply (s.blk.mer.sync.get 0 o.ctr) o),
      mer.syncPending := s.blk.mer.syncPending.filter (fun q => q.ctr ≠ o.ctr) } : Block) = b at hsync
    have hap := wakeWaiters_apart o.ctr b
    have hval : ∀ k, (b.wakeWaiters o.ctr).syncVal k =
        ((s.blk.mer.sync.set 0 o.ctr (SyncOp.apply (s.blk.mer.sync.get 0 o.ctr) o)).get 0 k).toNat := by
      intro k
      rw [Block.syncVal, hap.sync, ← hb]
    refine ⟨_, run_put hsync, rfl, ?value, ?others, ?exact', ?tiles, ?pow, ?trust⟩
    case value =>
      refine (hval o.ctr).trans ?_
      rw [Sparse.get_set_eq 0 _ hwf, syncApply_toNat]
      rfl
    case others =>
      intro k hk
      refine (hval k).trans ?_
      rw [Sparse.get_set_ne 0 _ hk]
      rfl
    case exact' =>
      intro hnone
      have hwake : b.wakeWaiters o.ctr = b := by
        rw [Block.wakeWaiters, ← hb]
        dsimp only
        rw [hnone]
        rfl
      have hword : BitVec.ofNat 32 ((b.wakeWaiters o.ctr).syncVal o.ctr) = SyncOp.apply (s.blk.mer.sync.get 0 o.ctr) o := by
        rw [hval, Sparse.get_set_eq 0 _ hwf]
        exact (BitVec.ofNat_toNat 32 _).trans (BitVec.setWidth_eq _)
      show b.wakeWaiters o.ctr = _
      rw [State.put, hword, hwake, hb]
    case tiles => exact hap.tiles.trans (by rw [← hb])
    case pow => exact hap.pow.trans (by rw [← hb])
    case trust => exact hap.trust.trans (by rw [← hb])

end Sys2Proof.Machine
end

section
/-!
PROOFS. Lanes of a vector register (R165, R170, R172): the list of lanes of a register, and back.
-/

namespace Sys2Proof.Machine

variable {x : Tile} {a : VecA}

/-! ### Lanes -/

theorem lanesOf_eq (v : Nat) : lanesOf v = (List.range 512).map (fun i => BitVec.ofNat 32 (v / 2 ^ (32 * i))) := by
  simp only [lanesOf, Nat.shiftRight_eq_div_pow]

@[simp] theorem length_lanesOf (v : Nat) : (lanesOf v).length = 512 := by
  rw [lanesOf, List.length_map, List.length_range]

theorem getElem_lanesOf {v i : Nat} (h : i < (lanesOf v).length) : (lanesOf v)[i] = BitVec.ofNat 32 (v / 2 ^ (32 * i)) := by
  simp only [lanesOf_eq, List.getElem_map, List.getElem_range]

/-- Lane i of the register that a list of lanes makes. -/
theorem lane_ofLanes : ∀ {l : List Word} {i : Nat} (h : i < l.length), BitVec.ofNat 32 (ofLanes l / 2 ^ (32 * i)) = l[i]
  | w :: l, 0, _ => by
    apply BitVec.eq_of_toNat_eq
    rw [Nat.mul_zero, Nat.pow_zero, Nat.div_one, BitVec.toNat_ofNat]
    show (w.toNat + 2 ^ 32 * ofLanes l) % 2 ^ 32 = w.toNat
    rw [Nat.add_mul_mod_self_left, Nat.mod_eq_of_lt w.isLt]
  | w :: l, i + 1, h => by
    have hrest : ofLanes (w :: l) / 2 ^ (32 * (i + 1)) = ofLanes l / 2 ^ (32 * i) := by
      show (w.toNat + 2 ^ 32 * ofLanes l) / 2 ^ (32 * (i + 1)) = _
      rw [Nat.mul_succ, Nat.add_comm (32 * i), Nat.pow_add, ← Nat.div_div_eq_div_mul,
        Nat.add_mul_div_left _ _ (Nat.two_pow_pos 32), Nat.div_eq_of_lt w.isLt, Nat.zero_add]
    rw [hrest, lane_ofLanes (Nat.lt_of_succ_lt_succ h), List.getElem_cons_succ]

theorem zip3_fst {α β : Type} {f : α → β} {as bs cs : List α} (hb : as.length = bs.length) (hc : as.length = cs.length) :
    zip3 (fun p _ _ => f p) as bs cs = as.map f := by
  have hmap : zip3 (fun p _ _ => f p) as bs cs = ((as.zip (bs.zip cs)).map Prod.fst).map f := by
    rw [zip3, List.map_map]
    rfl
  rw [hmap, List.map_fst_zip (by rw [List.length_zip]; omega)]

theorem zip3_pair {α β : Type} {f : α → α → β} {as bs cs : List α} (hc : bs.length = cs.length) :
    zip3 (fun p q _ => f p q) as bs cs = (as.zip bs).map (fun v => f v.1 v.2) := by
  have hbs : bs = (bs.zip cs).map Prod.fst := (List.map_fst_zip (Nat.le_of_eq hc)).symm
  conv_rhs => rw [hbs, List.zip_map_right, List.map_map]
  rfl

/-! ### Form A -/

variable {s : State} {t l : Nat}

/-- A form-A operation of a tile that issues puts its result in flight under its mask. -/
theorem run_vecA {f : Tile → VecA → Nat} {v : Nat} (h : (s.blk.tile t).issuing = true) (hv : f (s.blk.tile t) a = v) :
    s.run (Block.vecA t a l f) = .next (s.withTile t ((s.blk.tile t).awaits l
      (.vreg a.vd ((s.blk.tile t).pmask a.pm)) v [])) := by
  subst hv
  exact run_put (slot_of_issuing h)

theorem run_vecAll {f : Tile → VecA → Nat} {v : Nat} (h : (s.blk.tile t).issuing = true) (hv : f (s.blk.tile t) a = v) :
    s.run (Block.vecAll t a l f) = .next (s.withTile t ((s.blk.tile t).awaits l (.vreg a.vd allLanes) v [])) := by
  subst hv
  exact run_put (slot_of_issuing h)

theorem laneOp_eq (f : Word → Word → Word → Word) : laneOp f x a =
    ofLanes (((lanesOf (x.vregs.get 0 a.va).toNat).zip ((lanesOf (x.vregs.get 0 a.vb).toNat).zip
      (lanesOf (x.vregs.get 0 a.vc).toNat))).map (fun w => f w.1 w.2.1 w.2.2)) := rfl

theorem sfOp_one (f : FV → FV) : sfOp (fun p _ => f p) x a =
    ofLanes (((lanesOf (x.vregs.get 0 a.va).toNat).map dec32).map (fun v => enc32 (f v))) := by
  rw [sfOp, laneOp, zip3_fst (f := fun p => enc32 (f (dec32 p))) (by rw [length_lanesOf, length_lanesOf])
    (by rw [length_lanesOf, length_lanesOf]), List.map_map]
  rfl

theorem sfOp_two (f : FV → FV → FV) : sfOp f x a =
    ofLanes ((((lanesOf (x.vregs.get 0 a.va).toNat).map dec32).zip ((lanesOf (x.vregs.get 0 a.vb).toNat).map dec32)).map
      (fun v => enc32 (f v.1 v.2))) := by
  rw [sfOp, laneOp, zip3_pair (f := fun p q => enc32 (f (dec32 p) (dec32 q))) (by rw [length_lanesOf, length_lanesOf]),
    List.zip_map, List.map_map]
  rfl

/-- Settles O39, operation by operation. -/
theorem vectorOps : Obligations.VectorOps := by
  unfold Obligations.VectorOps
  refine ⟨?elements, ?special⟩
  case elements =>
    intro s t a h x lanes each sets
    have hlanes : ∀ r, lanes r = lanesOf (x.vregs.get 0 r).toNat := fun r => (lanesOf_eq _).symm
    have heach : ∀ f, laneOp f x a = each f := by
      intro f
      simp only [each, hlanes]
      exact laneOp_eq f
    refine ⟨run_vecA h rfl, run_vecA h rfl, run_vecA h rfl, run_vecA h rfl, run_vecA h rfl, run_vecA h rfl, run_vecA h (heach _),
      run_vecA h (heach _), run_vecA h (heach _), run_vecA h (heach _), run_vecA h (heach _), run_vecA h (heach _),
      run_vecA h (heach _), run_vecA h ?bcast, run_vecA h rfl, run_vecA h (heach _), run_vecA h (heach _), run_vecAll h rfl, ?cmp⟩
    case bcast =>
      exact congrArg (fun w => ofLanes (List.replicate 512 w)) ((BitVec.ofNat_toNat 32 _).trans (BitVec.setWidth_eq _))
    case cmp =>
      rw [hlanes, hlanes]
      exact run_put (slot_of_issuing h)
  case special =>
    intro s t a h x lanes one all
    refine ⟨run_vecA h (sfOp_one _), run_vecA h (sfOp_one _), run_vecA h (sfOp_one _), run_vecA h (sfOp_one _), run_vecA h (sfOp_one _),
      run_vecA h (sfOp_one _), run_vecA h (sfOp_one _), run_vecA h (sfOp_one _), run_vecA h (sfOp_one _), run_vecA h (sfOp_one _),
      run_vecA h (sfOp_two fExpd), run_vecAll h rfl, run_vecAll h rfl, run_vecAll h rfl, run_put (slot_of_issuing h)⟩

end Sys2Proof.Machine
end

section
/-!
PROOFS. Vector loads, stores and the census (R168, R169, R175 to R179).
-/

namespace Sys2Proof.Machine

variable {b : Block} {t : Nat} {a : VecM}

theorem vecAddrOk_of {ea n : Nat} (ha : ea % 64 = 0) (hb : ea + n ≤ 0xC00000) : (!vecAddrOk ea n) = false := by
  rw [vecAddrOk, decide_eq_true ha, decide_eq_true (show ea + n ≤ tileBytes from hb)]
  rfl

theorem vecAddrOk_not {ea n : Nat} (h : ea % 64 ≠ 0) : (!vecAddrOk ea n) = true := by
  rw [vecAddrOk, decide_eq_false h]
  rfl

/-- A load at a right address whose bytes can be read goes on with them. -/
theorem vecLoad_of_read {n : Nat} {f : List Byte → Block → Block} {bs : List Byte} {b' : Block} (hiss : (b.tile t).issuing = true)
    (ha : a.ea (b.tile t) % 64 = 0) (hin : a.ea (b.tile t) + n ≤ 0xC00000)
    (hread : b.portRead t (3 + a.pipe) (a.ea (b.tile t)) n = (some bs, b')) : b.vecLoad t a n f = f bs b' := by
  refine (slot_of_issuing hiss).trans ?_
  obtain ⟨read, hread'⟩ : ∃ f, f = Block.portRead := exists_eq
  rw [← hread'] at hread ⊢
  simp only [vecAddrOk_of ha hin, hread, Bool.false_eq_true, if_false]

theorem vecLoad_faults {n : Nat} {f : List Byte → Block → Block} (hiss : (b.tile t).issuing = true)
    (ha : a.ea (b.tile t) % 64 ≠ 0) : b.vecLoad t a n f = b.progFault t 0x20 0 none :=
  (slot_of_issuing hiss).trans (if_pos (vecAddrOk_not ha))

theorem vecStore_of_addr {l n : Nat} {f : Tile → List Byte} (hiss : (b.tile t).issuing = true) (ha : a.ea (b.tile t) % 64 = 0)
    (hin : a.ea (b.tile t) + n ≤ 0xC00000) : b.vecStore t a l n f =
      b.setTile t ((b.tile t).awaits l (.store (a.ea (b.tile t)) (3 + a.pipe)) 0 (f (b.tile t))) :=
  (slot_of_issuing hiss).trans (if_neg (Bool.eq_false_iff.mp (vecAddrOk_of ha hin)))

theorem vecStore_faults {l n : Nat} {f : Tile → List Byte} (hiss : (b.tile t).issuing = true) (ha : a.ea (b.tile t) % 64 ≠ 0) :
    b.vecStore t a l n f = b.progFault t 0x20 0 none :=
  (slot_of_issuing hiss).trans (if_pos (vecAddrOk_not ha))

theorem vecLdc_plain (h : b.isBlockSlot a.slot = false) : b.vecLdc t a = b.vecLoad t a 1024 (fun bs b' =>
    b'.setTile t ((b'.tile t).awaits 8 (.vreg a.vr allLanes) (ofLanes ((List.range 512).map (fun i =>
      enc32 ((b.fmt a.slot).decode (bits (leNat bs) (16 * i + 15) (16 * i)))))) [])) :=
  if_neg (Bool.eq_false_iff.mp h)

theorem scaleOk_of {sa : Nat} (ha : sa % 16 = 0) (hin : sa + 16 ≤ 0xC00000) :
    (decide (sa % 16 ≠ 0) || decide (tileBytes < sa + 16)) = false := by
  rw [decide_eq_false (not_not_intro ha), decide_eq_false (Nat.not_lt.mpr (show sa + 16 ≤ tileBytes from hin))]
  rfl

theorem vecLdc_block {n : Nat} {bs sc : List Byte} {b1 b2 : Block} (hiss : (b.tile t).issuing = true)
    (hblk : b.isBlockSlot a.slot = true) (hn : n = 64 * (b.fmt a.slot).width) (ha : a.ea (b.tile t) % 64 = 0)
    (hin : a.ea (b.tile t) + n ≤ 0xC00000) (hread : b.portRead t (3 + a.pipe) (a.ea (b.tile t)) n = (some bs, b1))
    (hsa : a.scaleAddr (b.tile t) % 16 = 0) (hsin : a.scaleAddr (b.tile t) + 16 ≤ 0xC00000)
    (hsc : b1.portRead t (3 + a.pipe) (a.scaleAddr (b.tile t)) 16 = (some sc, b2)) :
    b.vecLdc t a = b2.setTile t ((b2.tile t).awaits 8 (.vreg a.vr allLanes) (ofLanes ((List.range 512).map (fun i =>
      enc32 (decBlockElem (b.fmt a.slot) (sc.getD (i / 32) 0).toNat (unpackBit (b.fmt a.slot).width i (leNat bs)))))) []) := by
  subst hn
  refine (if_pos hblk).trans ((slot_of_issuing hiss).trans ?_)
  dsimp only
  rw [if_neg (Bool.eq_false_iff.mp (scaleOk_of hsa hsin)), vecLoad_of_read hiss ha hin hread]
  obtain ⟨read, hread'⟩ : ∃ f, f = Block.portRead := exists_eq
  rw [← hread'] at hsc ⊢
  simp only [hsc]
  rfl

theorem vecStc_plain (hiss : (b.tile t).issuing = true) (hblk : b.isBlockSlot a.slot = false) (ha : a.ea (b.tile t) % 64 = 0)
    (hin : a.ea (b.tile t) + 1024 ≤ 0xC00000) {vs : List FV} (hvs : (lanesOf ((b.tile t).vreg a.vr)).map dec32 = vs)
    {es : List (Nat × EncClass)} (hes : vs.map (b.fmt a.slot).enc = es) {c : Census} (hc : censusOf (es.map (·.2)) vs = c) :
    b.vecStc t a = Block.censusStatus t c (b.setTile t
      (((b.tile t).awaits 6 (.store (a.ea (b.tile t)) (3 + a.pipe)) 0 ((es.map (fun e => leBytes 2 e.1)).flatten)).awaits 6
        (.census a.cid c) 0 [])) := by
  subst hc
  subst hes
  subst hvs
  exact (slot_of_issuing hiss).trans ((if_neg (Bool.eq_false_iff.mp hblk)).trans
    (if_neg (Bool.eq_false_iff.mp (vecAddrOk_of ha hin))))

theorem vecStc_block (hiss : (b.tile t).issuing = true) (hblk : b.isBlockSlot a.slot = true)
    (hsr : ¬ (a.sr = 2 ∧ a.tensorCode (b.tile t) = 0xFF)) (ha : a.ea (b.tile t) % 64 = 0)
    (hin : a.ea (b.tile t) + 64 * (b.fmt a.slot).width ≤ 0xC00000) (hsa : a.scaleAddr (b.tile t) % 16 = 0)
    (hsin : a.scaleAddr (b.tile t) + 16 ≤ 0xC00000) {vs : List FV} (hvs : (lanesOf ((b.tile t).vreg a.vr)).map dec32 = vs)
    {es : List BlockEnc}
    (hes : (List.range 16).map (fun k => encBlock (b.fmt a.slot) a.sr (a.tensorCode (b.tile t)) ((vs.drop (32 * k)).take 32)) = es)
    {c : Census} (hc : censusOf (es.map (·.classes)).flatten vs = c) :
    b.vecStc t a = Block.censusStatus t c (b.setTile t
      ((((b.tile t).awaits 6 (.store (a.ea (b.tile t)) (3 + a.pipe)) 0
        (leBytes (64 * (b.fmt a.slot).width) (packBits (b.fmt a.slot).width (es.map (·.codes)).flatten))).awaits 6
          (.store (a.scaleAddr (b.tile t)) (3 + a.pipe)) 0 (es.map (fun e => BitVec.ofNat 8 e.scale))).awaits 6
            (.census a.cid c) 0 [])) := by
  have haddr : (!vecAddrOk (a.ea (b.tile t)) (64 * (b.fmt a.slot).width) || decide (a.scaleAddr (b.tile t) % 16 ≠ 0) ||
      decide (tileBytes < a.scaleAddr (b.tile t) + 16)) = false := by
    rw [Bool.or_assoc, scaleOk_of hsa hsin, vecAddrOk_of ha hin]
    rfl
  subst hc
  subst hes
  subst hvs
  exact (slot_of_issuing hiss).trans ((if_pos hblk).trans ((if_neg hsr).trans (if_neg (Bool.eq_false_iff.mp haddr))))

/-- Settles O40: loads by their bytes, stores by their register; a wrong address faults. -/
theorem vectorLoadsAndStores : Obligations.VectorLoadsAndStores := by
  unfold Obligations.VectorLoadsAndStores
  refine ⟨?loads, ?stores⟩
  case loads =>
    intro s t a hiss x ea f
    refine ⟨?read, ?fault⟩
    case read =>
      intro n bs b ha hin hread lands
      refine ⟨?full, ?mask, ?block⟩
      case full =>
        rintro rfl
        refine ⟨run_put (vecLoad_of_read hiss ha hin hread), run_put ?high, fun hblk => run_put ?plain⟩
        case high =>
          refine (vecLoad_of_read hiss ha hin hread).trans ?_
          dsimp only
          rw [if_pos rfl, Nat.shiftLeft_eq]
          rfl
        case plain =>
          exact (slot_of_issuing hiss).trans ((vecLdc_plain hblk).trans (vecLoad_of_read hiss ha hin hread))
      case mask =>
        rintro rfl
        exact run_put (vecLoad_of_read hiss ha hin hread)
      case block =>
        intro hblk hn hsa hsin sc b' hsc
        exact run_put ((slot_of_issuing hiss).trans (vecLdc_block hiss hblk hn ha hin hread hsa hsin hsc))
    case fault =>
      intro ha
      exact ⟨run_put (vecLoad_faults hiss ha), run_put (vecLoad_faults hiss ha), run_put (vecLoad_faults hiss ha)⟩
  case stores =>
    intro s t a hiss x ea f vs writes
    refine ⟨?full, ?block, ?scale, ?small, ?clear, ?fault⟩
    case full =>
      intro ha hin
      refine ⟨run_put (vecStore_of_addr hiss ha hin), run_put ?high, ?plain⟩
      case high =>
        refine (vecStore_of_addr hiss ha hin).trans ?_
        rw [Nat.shiftRight_eq_div_pow]
        rfl
      case plain =>
        intro hblk es c
        exact run_put (vecStc_plain hiss hblk ha hin rfl rfl rfl)
    case block =>
      intro hblk hsr ha hin hsa hsin es c
      exact run_put (vecStc_block hiss hblk hsr ha hin hsa hsin rfl rfl rfl)
    case scale =>
      intro hblk hsr hcode
      exact run_put ((slot_of_issuing hiss).trans ((if_pos hblk).trans (if_pos ⟨hsr, hcode⟩)))
    case small =>
      intro ha hin
      exact ⟨run_put (vecStore_of_addr hiss ha hin), run_put (vecStore_of_addr hiss ha hin)⟩
    case clear => exact run_put (slot_of_issuing hiss)
    case fault =>
      intro ha
      exact ⟨run_put (vecStore_faults hiss ha), run_put (vecStore_faults hiss ha), run_put (vecStore_faults hiss ha),
        run_put (vecStore_faults hiss ha)⟩

end Sys2Proof.Machine
end

section
/-!
PROOFS. Results land in their ready cycle (R166), and what a lane of a result takes (R165, R170, R172).
-/

namespace Sys2Proof.Machine

/-! ### One result lands -/

variable {b : Block} {t : Nat} {x : Tile} {r : Pending}

theorem land_cyc (x : Tile) (r : Pending) : (x.land r).cyc = x.cyc := by
  unfold Tile.land
  split <;> rfl

theorem land_pend (x : Tile) (r : Pending) : (x.land r).pend = x.pend := by
  unfold Tile.land
  split <;> rfl

theorem land_groups (x : Tile) (r : Pending) : (x.land r).groups = x.groups := by
  unfold Tile.land
  split <;> rfl

/-- The writes in flight after a result has landed: those before it, and its own where it is a store's. -/
theorem mem_land_flight {f : InFlight} (h : f ∈ (x.land r).flight) : f ∈ x.flight ∨ f.visible = r.ready + 2 := by
  unfold Tile.land at h
  split at h
  case h_4 =>
    rcases List.mem_append.mp h with h | h
    · exact .inl h
    · exact .inr (by rw [List.mem_singleton.mp h])
  all_goals exact .inl h

theorem settleFlight_of_late (hx : b.tile t = x) (h : ∀ f ∈ x.flight, x.cyc < f.visible) :
    b.settleFlight t = b.setTile t x := by
  have hdue : x.flight.filter (fun f => decide (f.visible ≤ x.cyc)) = [] := by
    rw [List.filter_eq_nil_iff]
    intro f hf
    rw [decide_eq_true_eq]
    exact Nat.not_le.mpr (h f hf)
  have hleft : x.flight.filter (fun f => decide (x.cyc < f.visible)) = x.flight := by
    rw [List.filter_eq_self]
    exact fun f hf => decide_eq_true (h f hf)
  simp only [Block.settleFlight, hx, hdue, hleft, List.foldl_nil]

/-- A result that is due and alone lands; no write has become visible. -/
theorem landResults_alone (hp : (b.tile t).pend = [r]) (hr : r.ready = (b.tile t).cyc) (hf : (b.tile t).flight = [])
    (hwf : b.tiles.wf Tile.zero = true) {y : Tile} (hy : y = Tile.land { b.tile t with pend := [] } r) :
    b.landResults t = (b.setTile t y).setTile t y := by
  have hdue : (b.tile t).pend.filter (fun p => decide (p.ready ≤ (b.tile t).cyc)) = [r] := by
    rw [hp, hr.symm, List.filter_cons_of_pos (by rw [decide_eq_true_eq]), List.filter_nil]
  have hleft : (b.tile t).pend.filter (fun p => decide ((b.tile t).cyc < p.ready)) = [] := by
    rw [hp, hr.symm, List.filter_cons_of_neg (by rw [decide_eq_true_eq]; exact Nat.lt_irrefl _), List.filter_nil]
  have hlate : ∀ f ∈ y.flight, y.cyc < f.visible := by
    intro f hmem
    rw [hy] at hmem
    rcases mem_land_flight hmem with h | h
    · rw [show ({ b.tile t with pend := [] } : Tile).flight = [] from hf] at h
      cases h
    · rw [hy, land_cyc, h, hr]
      show (b.tile t).cyc < (b.tile t).cyc + 2
      omega
  have hland : b.landResults t = (b.setTile t y).settleFlight t := by
    simp only [Block.landResults, hdue, hleft, clash, List.any_nil, Bool.false_eq_true, if_false, sortPend, List.foldl_cons,
      List.foldl_nil, insertPend, hy]
  rw [hland]
  exact settleFlight_of_late (tile_setTile hwf) hlate

/-! ### Lanes of a result -/

/-- The numbers below 2^32 that a register's lanes are made of, one after the other. -/
def packLanes (f : Nat → Nat) (n : Nat) : Nat := (List.range n).foldl (fun a i => a ||| (f i <<< (32 * i))) 0

theorem packLanes_succ (f : Nat → Nat) (n : Nat) : packLanes f (n + 1) = packLanes f n ||| (f n <<< (32 * n)) := by
  rw [packLanes, List.range_succ, List.foldl_append]
  rfl

/-- Bit j of packed lanes is bit j mod 32 of lane j div 32. -/
theorem testBit_packLanes {f : Nat → Nat} (hf : ∀ i, f i < 2 ^ 32) :
    ∀ n j, (packLanes f n).testBit j = (decide (j < 32 * n) && (f (j / 32)).testBit (j % 32))
  | 0, j => by simp [packLanes]
  | n + 1, j => by
    rw [packLanes_succ, Nat.testBit_or, testBit_packLanes hf n j, Nat.testBit_shiftLeft]
    have hhigh : ∀ k, 32 ≤ k → (f n).testBit k = false := fun k hk =>
      Nat.testBit_lt_two_pow (Nat.lt_of_lt_of_le (hf n) (Nat.pow_le_pow_right (by decide) hk))
    by_cases hlt : j < 32 * n
    · have h1 : j < 32 * (n + 1) := by omega
      have h2 : ¬ 32 * n ≤ j := by omega
      simp [hlt, h1, h2]
    · by_cases hin : j < 32 * (n + 1)
      · have hdiv : j / 32 = n := by omega
        have hmod : j % 32 = j - 32 * n := by omega
        have hge : 32 * n ≤ j := by omega
        simp [hlt, hin, hge, hdiv, hmod]
      · simp [hlt, hin, hhigh (j - 32 * n) (by omega)]

theorem lane_packLanes {f : Nat → Nat} (hf : ∀ i, f i < 2 ^ 32) {n i : Nat} (hi : i < n) :
    packLanes f n / 2 ^ (32 * i) % 2 ^ 32 = f i := by
  apply Nat.eq_of_testBit_eq
  intro k
  rw [Nat.testBit_mod_two_pow, Nat.testBit_div_two_pow, testBit_packLanes hf]
  by_cases hk : k < 32
  · have hdiv : (k + 32 * i) / 32 = i := by omega
    have hmod : (k + 32 * i) % 32 = k := by omega
    have hlt : k + 32 * i < 32 * n := by omega
    simp [hk, hdiv, hmod, hlt]
  · have hhigh : (f i).testBit k = false :=
      Nat.testBit_lt_two_pow (Nat.lt_of_lt_of_le (hf i) (Nat.pow_le_pow_right (by decide) (Nat.not_lt.mp hk)))
    simp [hk, hhigh]

theorem lane_bits (v i : Nat) : bits v (32 * i + 31) (32 * i) = v / 2 ^ (32 * i) % 2 ^ 32 := by
  rw [bits, Nat.shiftRight_eq_div_pow, show 32 * i + 31 + 1 - 32 * i = 32 by omega]

/-- A masked result has the new lane where the mask's bit is 1, and else the old one. -/
theorem lane_mergeLanes {mask new old i : Nat} (hi : i < 512) :
    mergeLanes mask new old / 2 ^ (32 * i) % 2 ^ 32 = (if mask.testBit i then new else old) / 2 ^ (32 * i) % 2 ^ 32 := by
  unfold mergeLanes
  by_cases hall : mask = 2 ^ 512 - 1
  · have hbit : mask.testBit i = true := by
      rw [hall, Nat.testBit_two_pow_sub_one, decide_eq_true hi]
    rw [if_pos hall, if_pos hbit]
  · rw [if_neg hall]
    have hpack := lane_packLanes (n := 512) (i := i) (f := fun j =>
      if bit mask j then bits new (32 * j + 31) (32 * j) else bits old (32 * j + 31) (32 * j)) (fun j => by
        rw [lane_bits, lane_bits]
        split <;> exact Nat.mod_lt _ (by decide)) hi
    rw [packLanes] at hpack
    rw [hpack, lane_bits, lane_bits, show bit mask i = mask.testBit i from rfl]
    split <;> rfl

theorem getElem_zip3 {α β : Type} {f : α → α → α → β} {as bs cs : List α} {i : Nat} (ha : i < as.length) (hb : i < bs.length)
    (hc : i < cs.length) (h : i < (zip3 f as bs cs).length) : (zip3 f as bs cs)[i] = f as[i] bs[i] cs[i] := by
  simp only [zip3, List.getElem_map, List.getElem_zip]

/-- A lane function acts lane by lane. -/
theorem lane_laneOp (f : Word → Word → Word → Word) (x : Tile) (a : VecA) {i : Nat} (hi : i < 512) :
    BitVec.ofNat 32 (laneOp f x a / 2 ^ (32 * i)) =
      f (BitVec.ofNat 32 (x.vreg a.va / 2 ^ (32 * i))) (BitVec.ofNat 32 (x.vreg a.vb / 2 ^ (32 * i)))
        (BitVec.ofNat 32 (x.vreg a.vc / 2 ^ (32 * i))) := by
  have hlen : ∀ v, i < (lanesOf v).length := fun v => (length_lanesOf v).symm ▸ hi
  have hzip : i < (zip3 f (lanesOf (x.vreg a.va)) (lanesOf (x.vreg a.vb)) (lanesOf (x.vreg a.vc))).length := by
    simpa [zip3] using hi
  rw [laneOp, lane_ofLanes hzip, getElem_zip3 (hlen _) (hlen _) (hlen _), getElem_lanesOf, getElem_lanesOf, getElem_lanesOf]

/-- One level of the tree combines neighbours. -/
theorem getD_treeLevel (f : FV → FV → FV) (d : FV) :
    ∀ (l : List FV) (i : Nat), 2 * i + 1 < l.length → (treeLevel f l).getD i d = f (l.getD (2 * i) d) (l.getD (2 * i + 1) d)
  | [], i, h => absurd h (Nat.not_lt_zero _)
  | [_], i, h => absurd h (by rw [List.length_singleton]; omega)
  | _ :: _ :: _, 0, _ => rfl
  | p :: q :: l, i + 1, h => by
    have hl : 2 * i + 1 < l.length := by
      rw [List.length_cons, List.length_cons] at h
      omega
    exact getD_treeLevel f d l i hl

/-- Lane j of a segmented reduction over every lane of VA. -/
theorem lane_reduceOp {f : FV → FV → FV} {lane : Bool → FV → FV} (hon : ∀ v, lane true v = v) (x : Tile) (a : VecA) {i j : Nat}
    (hi : i < 256) (hj : j / 2 = i) (hseg : a.mod % 16 = 1) (hpm : a.pm = 0) :
    BitVec.ofNat 32 (reduceOp f lane x a / 2 ^ (32 * j)) =
      enc32 (f (dec32 (BitVec.ofNat 32 (x.vreg a.va / 2 ^ (32 * (2 * i)))))
        (dec32 (BitVec.ofNat 32 (x.vreg a.va / 2 ^ (32 * (2 * i + 1)))))) := by
  have hj512 : j < 512 := by omega
  have hvs : ∀ k, k < 512 → ((lanesOf (x.vreg a.va)).zipIdx.map (fun w => lane (bit (x.pmask a.pm) w.2) (dec32 w.1))).getD k .nan =
      dec32 (BitVec.ofNat 32 (x.vreg a.va / 2 ^ (32 * k))) := by
    intro k hk
    have hbit : bit (x.pmask a.pm) k = true := by
      rw [Tile.pmask, if_pos hpm, allLanes, show bit (2 ^ 512 - 1) k = (2 ^ 512 - 1).testBit k from rfl,
        Nat.testBit_two_pow_sub_one, decide_eq_true hk]
    have hlen : k < (lanesOf (x.vreg a.va)).length := (length_lanesOf _).symm ▸ hk
    rw [List.getD_eq_getElem _ _ (by simpa using hk), List.getElem_map, List.getElem_zipIdx, Nat.zero_add]
    dsimp only
    rw [hbit, hon, getElem_lanesOf]
  have hlevel := getD_treeLevel f .nan ((lanesOf (x.vreg a.va)).zipIdx.map (fun w => lane (bit (x.pmask a.pm) w.2) (dec32 w.1))) i
    (by rw [List.length_map, List.length_zipIdx, length_lanesOf]; omega)
  unfold reduceOp
  dsimp only
  rw [lane_ofLanes (by rw [List.length_map, List.length_range]; exact hj512), List.getElem_map, List.getElem_range, hseg, Nat.pow_one, hj]
  exact congrArg enc32 (hlevel.trans (by rw [hvs _ (by omega), hvs _ (by omega)]))

/-- Settles O41: the result's own register takes it, and each lane by itself. -/
theorem resultsAndLanes : Obligations.ResultsAndLanes := by
  unfold Obligations.ResultsAndLanes
  refine ⟨?landed, fun f x a i hi => lane_laneOp f x a hi, fun mask new old i hi _ => lane_mergeLanes hi, ?sum⟩
  case landed =>
    intro s t r hp hr hf hwf
    generalize hy : Tile.land { s.blk.tile t with pend := [] } r = y
    have htile : ((s.blk.setTile t y).setTile t y).tile t = y := tile_setTile (Sparse.set_wf hwf)
    refine ⟨_, run_put (landResults_alone hp hr hf hwf hy.symm), rfl, rfl, ?others, ?pend, ?groups, ?vreg, ?sreg, ?mask, ?dreg, ?store⟩
    case others =>
      intro k hk
      exact (Sparse.get_set_ne Tile.zero y hk _).trans (Sparse.get_set_ne Tile.zero y hk _)
    case pend => exact (congrArg Tile.pend htile).trans (by rw [← hy, land_pend])
    case groups => exact (congrArg Tile.groups htile).trans (by rw [← hy, land_groups])
    case vreg =>
      intro q m hd
      rw [show (s.put ((s.blk.setTile t y).setTile t y)).blk.tile t = y from htile, ← hy]
      simp only [Tile.land, hd]
      exact ⟨fun h => Sparse.get_set_eq 0 _ h, fun k hk => Sparse.get_set_ne 0 _ hk _, trivial, trivial⟩
    case sreg =>
      intro c q hd
      rw [show (s.put ((s.blk.setTile t y).setTile t y)).blk.tile t = y from htile, ← hy]
      simp only [Tile.land, hd]
      exact ⟨fun h => Sparse.get_set_eq 0 _ h, fun k hk => Sparse.get_set_ne 0 _ hk _, rfl, rfl⟩
    case mask =>
      intro q hd
      rw [show (s.put ((s.blk.setTile t y).setTile t y)).blk.tile t = y from htile, ← hy]
      simp only [Tile.land, hd]
      exact ⟨fun h => Sparse.get_set_eq 0 _ h, trivial, trivial⟩
    case dreg =>
      intro q hd h
      rw [show (s.put ((s.blk.setTile t y).setTile t y)).blk.tile t = y from htile, ← hy]
      simp only [Tile.land, hd]
      exact Sparse.get_set_eq 0 _ h
    case store =>
      intro at_ port hd
      rw [show (s.put ((s.blk.setTile t y).setTile t y)).blk.tile t = y from htile, ← hy]
      simp only [Tile.land, hd, Tile.touch, hf, hr, List.nil_append]
      exact ⟨trivial, trivial, trivial⟩
  case sum =>
    intro x a i hi hseg hpm v sum
    refine ⟨?even, ?odd⟩
    case even =>
      rw [show 64 * i = 32 * (2 * i) by omega]
      exact lane_reduceOp (fun _ => rfl) x a hi (by omega) hseg hpm
    case odd =>
      rw [show 64 * i + 32 = 32 * (2 * i + 1) by omega]
      exact lane_reduceOp (fun _ => rfl) x a hi (by omega) hseg hpm

end Sys2Proof.Machine
end

section
/-!
PROOFS. The snapshot engine's commands (R376 to R381, R388, R390, R392, R393). That CONFIG and PARITY_SET clear WP of the pages they
take out of protection, that a CONFIG keeps the parity areas with zeroed content, and that COMMIT flips a half by position are log
entry 98, the model's own choice.
-/

namespace Sys2Proof.Machine

variable {b : Block} {c : Cmd}

/-! ### SNAP_CFG -/

theorem startSnapCfg_config (ha : c.pkt.f 511 508 = 0) : b.startSnapCfg c = b.snapConfig c := by
  simp only [Block.startSnapCfg, ha, ne_eq, not_true_eq_false, false_and, if_false]

theorem startSnapCfg_commit (ha : c.pkt.f 511 508 = 1) (hn : c.pkt.f 264 258 = 0) : b.startSnapCfg c = b.snapCommit c := by
  simp only [Block.startSnapCfg, ha, hn, ne_eq, not_true_eq_false, and_false, if_false]

theorem startSnapCfg_ledgerSet (ha : c.pkt.f 511 508 = 2) (hn : c.pkt.f 264 258 = 0) : b.startSnapCfg c = b.ledgerSet c := by
  simp only [Block.startSnapCfg, ha, hn, ne_eq, not_true_eq_false, and_false, if_false]

theorem startSnapCfg_advise (ha : c.pkt.f 511 508 = 3) (hn : c.pkt.f 264 258 = 0) : b.startSnapCfg c = b.advise c := by
  simp only [Block.startSnapCfg, ha, hn, ne_eq, not_true_eq_false, and_false, if_false]

/-- A CONFIG that the engine's state and the job's secret do not refuse goes by APPEND. -/
theorem snapConfig_open (hn : c.pkt.f 264 258 ≤ 124) (hcfg : b.snapConfigurable = true)
    (hkey : b.trust.job = 0 ∨ b.trust.sealedReq = false ∨ b.trust.secretSet = true) :
    (decide (124 < c.pkt.f 264 258) || !b.snapConfigurable) = false ∧
      (decide (b.trust.job ≠ 0) && b.trust.sealedReq && !b.trust.secretSet) = false := by
  refine ⟨by rw [hcfg, decide_eq_false (Nat.not_lt.mpr hn)]; rfl, ?_⟩
  rcases hkey with h | h | h
  · rw [decide_eq_false (not_not_intro h), Bool.false_and, Bool.false_and]
  · rw [h, Bool.and_false, Bool.false_and]
  · rw [h, Bool.not_true, Bool.and_false]

theorem snapConfig_new {rs : List SnapRegion} {g : SnapCfg} {b2 b3 b4 : Block} (hn : c.pkt.f 264 258 ≤ 124)
    (hcfg : b.snapConfigurable = true) (hkey : b.trust.job = 0 ∨ b.trust.sealedReq = false ∨ b.trust.secretSet = true)
    (hrs : rs = (List.range (c.pkt.f 264 258)).map (snapDesc c.pkt)) (happ : c.pkt.f 257 257 = 0)
    (hhead : b.headFault c.pkt rs = none)
    (hg : g = {
      resDa := c.pkt.f 507 456, resPages := c.pkt.f 455 432, destDa := c.pkt.f 431 380, destBytes := c.pkt.f 379 340,
      destSlots := c.pkt.f 339 332, fullEvery := c.pkt.f 331 316, mask := c.pkt.f 315 300,
      tables := (maskList 16 (c.pkt.f 315 300)).map (fun t => (t, b.codec.tables.get [] t)) })
    (hdescs : b.descsFault (pageOf g.resDa, g.resPages) false 1 [] rs = none)
    (hb2 : b2 = (b.snap.regions.map b.snapPageList).flatten.foldl (fun (b : Block) h => b.clearWp h) b)
    (hb3 : b3 = b2.snap.areas.foldl (fun (b : Block) a => b.zeroArea a) b2)
    (hb4 : b4 = b3.onLedgers (fun l => { l with lastComplete := 0 })) :
    b.snapConfig c = Block.done c 0 { b4 with
      snap.st := .idle, snap.cfg := some g, snap.regions := rs, snap.bases := (rs.map b4.zeroBases).flatten,
      snap.kept := [], snap.rolled := none } := by
  obtain ⟨hgo, hsec⟩ := snapConfig_open hn hcfg hkey
  subst hb4
  subst hb3
  subst hb2
  subst hg
  subst hrs
  unfold Block.snapConfig
  dsimp only
  rw [if_neg (Bool.eq_false_iff.mp hgo), if_neg (Bool.eq_false_iff.mp hsec), if_neg (by rw [happ]; decide)]
  simp only [hhead, hdescs]

theorem snapConfig_append {rs : List SnapRegion} {g : SnapCfg} (hn : c.pkt.f 264 258 ≤ 124) (hcfg : b.snapConfigurable = true)
    (hkey : b.trust.job = 0 ∨ b.trust.sealedReq = false ∨ b.trust.secretSet = true)
    (hrs : rs = (List.range (c.pkt.f 264 258)).map (snapDesc c.pkt)) (happ : c.pkt.f 257 257 = 1) (hg : b.snap.cfg = some g)
    (hst : b.snap.st = .idle) (hroom : 2 * parityPages (b.snap.regions ++ rs) + 16 ≤ g.resPages)
    (hdescs : b.descsFault (pageOf g.resDa, g.resPages) true 1 b.snap.regions rs = none) :
    b.snapConfig c = Block.done c 0 { b with
      snap.regions := b.snap.regions ++ rs, snap.bases := b.snap.bases ++ (rs.map b.zeroBases).flatten } := by
  obtain ⟨hgo, hsec⟩ := snapConfig_open hn hcfg hkey
  have hfit : (decide (b.snap.st ≠ .idle) || decide (g.resPages < 2 * parityPages (b.snap.regions ++ rs) + 16)) = false := by
    rw [decide_eq_false (not_not_intro hst), decide_eq_false (Nat.not_lt.mpr hroom)]
    rfl
  subst hrs
  unfold Block.snapConfig
  dsimp only
  rw [if_neg (Bool.eq_false_iff.mp hgo), if_neg (Bool.eq_false_iff.mp hsec), if_pos happ]
  simp only [hg, hfit, hdescs, Bool.false_eq_true, if_false]

theorem snapCommit_done {b2 : Block} (hst : b.snap.st = .done) (hcut : b.snap.cut = c.pkt.f 299 268)
    (hb2 : b2 = b.onLedgers (fun l => { l with lastComplete := c.pkt.f 299 268 })) :
    b.snapCommit c = Block.done c 0 { b2 with snap := { b2.snap with
      st := .idle, kept := b2.snap.images, images := [], bases := b2.snap.bases.filter (fun x => x.cut = c.pkt.f 299 268),
      streams := [], dones := b2.snap.dones.filter (fun d => d.1 ≠ c.pkt.f 299 268),
      areas := b2.snap.areas.map (fun a => if a.cut = c.pkt.f 299 268 then { a with
        halves := a.touched.foldl (fun (m : Sparse Nat) i => m.upd 0 i (fun h => 1 - h)) a.halves, touched := [], cut := 0 }
        else a) } } := by
  have hgo : (decide (b.snap.st ≠ .done) || decide (b.snap.cut ≠ c.pkt.f 299 268)) = false := by
    rw [decide_eq_false (not_not_intro hst), decide_eq_false (not_not_intro hcut)]
    rfl
  subst hb2
  unfold Block.snapCommit
  dsimp only
  rw [if_neg (Bool.eq_false_iff.mp hgo)]

theorem ledgerSet_right {old l : Ledger} {bs : List Byte} {b2 : Block} (hold : b.ledger (c.pkt.f 267 265) = some old)
    (hst : b.snap.st = .unconfigured ∨ b.snap.st = .idle) (hopen : b.stepIsOpen = false) (hstep : old.openStep = 0)
    (hmap : localStatus (c.pkt.f 507 456) 2048 = none) (hread : b.daRead (c.pkt.f 507 456) 2048 = (.ok bs false, b2))
    (hl : l = Ledger.ofBytes bs) (himg : ledgerImageOk bs = true) (hrank : l.rank = old.rank) (hlo : l.openStep = 0)
    (hcur : l.ncur ≤ 16) (hstr : l.nstr ≤ 16) :
    b.ledgerSet c = (b2.setLedger (c.pkt.f 267 265) (some { l with
      lastComplete := old.lastComplete, lastCut := old.lastCut, cutSc := old.cutSc, gated := old.gated })).done c 0 := by
  have hgo : (decide (b.snap.st ≠ .unconfigured) && decide (b.snap.st ≠ .idle) || b.stepIsOpen || decide (old.openStep ≠ 0)) = false := by
    rw [hopen, decide_eq_false (not_not_intro hstep)]
    rcases hst with h | h <;> rw [h] <;> rfl
  subst hl
  have hright : (!ledgerImageOk bs || decide ((Ledger.ofBytes bs).rank ≠ old.rank) || decide ((Ledger.ofBytes bs).openStep ≠ 0) ||
      decide (16 < (Ledger.ofBytes bs).ncur) || decide (16 < (Ledger.ofBytes bs).nstr)) = false := by
    rw [himg, decide_eq_false (not_not_intro hrank), decide_eq_false (not_not_intro hlo), decide_eq_false (Nat.not_lt.mpr hcur),
      decide_eq_false (Nat.not_lt.mpr hstr)]
    rfl
  unfold Block.ledgerSet
  simp only [hold, hgo, hmap, cmdRead_clean hread, hright, Bool.false_eq_true, if_false]

theorem advise_right {bs : List Byte} {b2 : Block}
    (hbs : bs = (b.snap.regions.zipIdx.map (fun x => leBytes 16 (fields [(96, x.1.dcut), (64, x.1.dstep), (40, x.1.pages),
      (0, b2n (b.advised.contains x.2))]))).flatten)
    (hal : c.pkt.f 507 456 % 16 = 0) (hne : bs ≠ []) (hmap : localStatus (c.pkt.f 507 456) bs.length = none)
    (hwait : b.writeWaits (c.pkt.f 507 456) bs.length = false) (hwrite : b.daWrite (c.pkt.f 507 456) bs = (b2, none)) :
    b.advise c = b2.done c 0 := by
  unfold Block.advise
  dsimp only
  rw [← hbs, if_neg (not_not_intro hal), if_neg (by rwa [List.isEmpty_iff])]
  simp only [hmap, hwait, cmdWrite_clean hwrite, Bool.false_eq_true, if_false]

/-! ### SNAP_DRAIN -/

/-- A drain of the cut that is held goes by its state. -/
theorem startSnapDrain_held (hcut : b.snap.cut = c.pkt.f 255 224) (hheld : b.cutHeld = true) : b.startSnapDrain c =
    if b.snap.st = .done then b.done c b.snap.bytes
    else if b.snap.st = .opened then b.setWork c.id (.await 4 b.snap.cut 0 0)
    else if !(isHost (c.pkt.f 223 172) || isPeer (c.pkt.f 223 172)) || c.pkt.f 223 172 % 64 ≠ 0 || c.pkt.f 171 132 % 64 ≠ 0 then
      b.refuse c Status.badParam 0
    else ({ b with snap.st := .opened, snap.bytes := 0 }.startStreams (c.pkt.f 223 172) (c.pkt.f 171 132)).setWork c.id
      (.await 4 b.snap.cut 0 0) := by
  have hgo : (decide (b.snap.cut ≠ c.pkt.f 255 224) || !b.cutHeld) = false := by
    rw [hheld, decide_eq_false (not_not_intro hcut)]
    rfl
  unfold Block.startSnapDrain
  dsimp only
  rw [if_neg (Bool.eq_false_iff.mp hgo), hcut]

theorem cutHeld_of {st : SnapState} (h : b.snap.st = st) (hst : st = .opened ∨ st = .stalled ∨ st = .done) : b.cutHeld = true := by
  rw [Block.cutHeld, h]
  rcases hst with h | h | h <;> rw [h] <;> rfl

/-! ### LEDGER_READ -/

/-- What a LEDGER_READ answers: the update section, a live ledger, or a kept image. -/
theorem startLedgerRead_right {bs : List Byte}
    (hbs : (c.pkt.f 75 73 = 7 ∧ c.pkt.f 72 72 = 0 ∧ bs = b.updSection) ∨
      (∃ l, c.pkt.f 72 72 = 0 ∧ c.pkt.f 75 73 ≠ 7 ∧ b.ledger (c.pkt.f 75 73) = some l ∧ bs = l.bytes) ∨
      (∃ l im, c.pkt.f 72 72 = 1 ∧ c.pkt.f 75 73 ≠ 7 ∧ b.ledger (c.pkt.f 75 73) = some l ∧
        (if b.snap.st = .done then b.snap.images else b.snap.kept).find? (fun x => x.hidx = c.pkt.f 75 73) = some im ∧ bs = im.led))
    (hrsp : rspStatus (c.pkt.f 127 76) bs.length = none) :
    b.startLedgerRead c = b.respond c (c.pkt.f 127 76) bs 0 bs.length := by
  have hzero : c.pkt.f 72 72 = 0 → (c.pkt.f 72 72 = 1) = False := fun h => by rw [h]; simp
  unfold Block.startLedgerRead
  rcases hbs with ⟨hk, hi, rfl⟩ | ⟨l, hi, hk, hl, rfl⟩ | ⟨l, im, hi, hk, hl, him, rfl⟩
  · simp only [hk, hzero hi, decide_false, Bool.false_and, Bool.false_eq_true, if_false, if_true, hrsp]
  · simp only [hk, hl, hzero hi, decide_false, Bool.false_and, Bool.false_eq_true, if_false, Option.map_some, hrsp]
  · simp only [hk, hl, hi, him, decide_true, ne_eq, not_false_eq_true, Bool.and_self, if_true, Option.map_some, hrsp]

/-! ### PARITY_SET -/

theorem startParitySet_right {rank : Nat} {t : TreeDef} {da n k : Nat} (hda : c.pkt.f 255 204 = da) (hn : c.pkt.f 203 180 = n)
    (hk : c.pkt.f 175 173 = k) {res : Nat × Nat}
    (hres : (match b.snap.cfg with | some g => (pageOf g.resDa, g.resPages) | none => (0, 0)) = res) (hrank : b.hosted[k]? = some rank)
    (ht : b.tree (c.pkt.f 179 176) = some t) (hcfg : b.snapConfigurable = true) (hal : da % 0x10000 = 0) (hpos : 0 < n)
    (hlen : t.members.length = 8) (hmem : rank ∈ t.members) (hroom : 2 * b.unitCount k ≤ n) (hin : inHbm da (0x10000 * n) = true)
    (hpages : b.pagesAll da (0x10000 * n) (fun a => attrClass a = 3) = true) (hover : overlap (pageOf da, n) res = false)
    (hregs : ∀ r ∈ b.snap.regions, overlap (b.snapPages r) (pageOf da, n) = false)
    (hareas : ∀ a ∈ b.snap.areas, a.hidx ≠ k → overlap (pageOf a.da, a.pages) (pageOf da, n) = false) {a : ParArea}
    {mine : List SnapRegion} {pages : List Nat} {b2 b3 : Block}
    (ha : a = { hidx := k, da := da, pages := n, tree := t.num, halves := [], touched := [], cut := 0 })
    (hmine : mine = b.snap.regions.filter (fun r => r.isParity && r.hidx = k)) (hpgs : pages = (mine.map b.snapPageList).flatten)
    (hb2 : b2 = pages.foldl (fun (b : Block) g => b.clearWp g) b)
    (hb3 : b3 = { b2 with
      snap.areas := b2.snap.areas.filter (fun (x : ParArea) => x.hidx ≠ k) ++ [a]
      snap.bases := b2.snap.bases.filter (fun (x : ParBase) => !pages.contains x.page) ++ (mine.map b2.zeroBases).flatten }) :
    b.startParitySet c = (b3.zeroArea a).done c 0 := by
  have hgo : (!b.snapConfigurable || decide (da % 0x10000 ≠ 0) || decide (n = 0) || decide (t.members.length ≠ 8) ||
      !t.members.contains rank || decide (n < 2 * b.unitCount k)) = false := by
    rw [hcfg, decide_eq_false (not_not_intro hal), decide_eq_false (Nat.ne_of_gt hpos), decide_eq_false (not_not_intro hlen),
      List.contains_iff_mem.mpr hmem, decide_eq_false (Nat.not_lt.mpr hroom)]
    rfl
  have hregs' : b.snap.regions.any (fun r => overlap (b.snapPages r) (pageOf da, n)) = false := by
    rw [List.any_eq_false]
    exact fun r hr => Bool.eq_false_iff.mp (hregs r hr)
  have hareas' : b.snap.areas.any (fun a => decide (a.hidx ≠ k) && overlap (pageOf a.da, a.pages) (pageOf da, n)) = false := by
    rw [List.any_eq_false]
    intro x hx
    by_cases h : x.hidx = k
    · simp [h]
    · simp [hareas x hx h]
  have hplace : (!b.pagesAll da (0x10000 * n) (fun a => attrClass a = 3) || overlap (pageOf da, n) res ||
      b.snap.regions.any (fun r => overlap (b.snapPages r) (pageOf da, n)) ||
      b.snap.areas.any (fun a => decide (a.hidx ≠ k) && overlap (pageOf a.da, a.pages) (pageOf da, n))) = false := by
    rw [hpages, hover, hregs', hareas']
    rfl
  subst hb3
  subst hb2
  subst hpgs
  subst hmine
  subst ha
  unfold Block.startParitySet
  simp only [hda, hn, hk, hrank, ht]
  rw [if_neg (Bool.eq_false_iff.mp hgo), if_neg (by rw [hin]; decide)]
  rw [← hres] at hplace
  exact (if_neg (Bool.eq_false_iff.mp hplace)).trans rfl

/-- Settles O42, by command and ACTION. -/
theorem snapCommandsComplete : Obligations.SnapCommandsComplete := by
  unfold Obligations.SnapCommandsComplete
  intro s p c b1 hentry
  have hop : ∀ {n}, p.opcode = n → c.pkt.opcode = n := fun h => (packetEntry_opcode hentry).trans h
  refine ⟨?config, ?commit, ?ledgerSet, ?advise, ?drain, ?read, ?parity⟩
  case config =>
    intro rs ho ha hn hcfg hkey hrs
    have hstart := (engineStart_snapCfg b1 (hop ho)).trans (startSnapCfg_config ha)
    refine ⟨?new, ?append⟩
    case new =>
      intro g b2 b3 b4 happ hhead hg hdescs hb2 hb3 hb4
      exact packet_next hentry ho (decide_eq_true ha) (by decide)
        (hstart.trans (snapConfig_new hn hcfg hkey hrs happ hhead hg hdescs hb2 hb3 hb4))
    case append =>
      intro g happ hg hst hroom hdescs
      exact packet_next hentry ho (decide_eq_true ha) (by decide)
        (hstart.trans (snapConfig_append hn hcfg hkey hrs happ hg hst hroom hdescs))
  case commit =>
    intro ho ha hn hst hcut b2 hb2
    exact packet_next hentry ho (decide_eq_true ha) (by decide)
      ((engineStart_snapCfg b1 (hop ho)).trans ((startSnapCfg_commit ha hn).trans (snapCommit_done hst hcut hb2)))
  case ledgerSet =>
    intro old l bs b2 ho ha hn hold hst hopen hstep hmap hread hl himg hrank hlo hcur hstr
    exact packet_next hentry ho (decide_eq_true ha) (by decide) ((engineStart_snapCfg b1 (hop ho)).trans
      ((startSnapCfg_ledgerSet ha hn).trans (ledgerSet_right hold hst hopen hstep hmap hread hl himg hrank hlo hcur hstr)))
  case advise =>
    intro bs b2 ho ha hn hbs hal hne hmap hwait hwrite
    exact packet_next hentry ho (decide_eq_true ha) (by decide) ((engineStart_snapCfg b1 (hop ho)).trans
      ((startSnapCfg_advise ha hn).trans (advise_right hbs hal hne hmap hwait hwrite)))
  case drain =>
    intro ho hcut
    have hstart := engineStart_snapDrain b1 (hop ho)
    refine ⟨fun hst => ?done, fun hst => ?opened, fun hst hplace hal hlen b2 hb2 => ?stalled⟩
    case done =>
      have hheld := startSnapDrain_held hcut (cutHeld_of hst (.inr (.inr rfl)))
      exact packet_next hentry ho rfl (by decide) (hstart.trans (hheld.trans (if_pos hst)))
    case opened =>
      have hheld := startSnapDrain_held hcut (cutHeld_of hst (.inl rfl))
      rw [if_neg (by rw [hst]; decide), if_pos hst] at hheld
      exact packet_next hentry ho rfl (by decide) (hstart.trans hheld)
    case stalled =>
      have hheld := startSnapDrain_held hcut (cutHeld_of hst (.inr (.inl rfl)))
      have hgo : (!(isHost (c.pkt.f 223 172) || isPeer (c.pkt.f 223 172)) || decide (c.pkt.f 223 172 % 64 ≠ 0) ||
          decide (c.pkt.f 171 132 % 64 ≠ 0)) = false := by
        rw [(Bool.or_eq_true _ _).mpr hplace, decide_eq_false (not_not_intro hal), decide_eq_false (not_not_intro hlen)]
        rfl
      rw [if_neg (by rw [hst]; decide), if_neg (by rw [hst]; decide), if_neg (Bool.eq_false_iff.mp hgo)] at hheld
      subst hb2
      exact packet_next hentry ho rfl (by decide) (hstart.trans hheld)
  case read =>
    intro bs ho k kept hbs hrsp
    exact packet_next hentry ho rfl (by decide) ((engineStart_ledgerRead b1 (hop ho)).trans (startLedgerRead_right hbs hrsp))
  case parity =>
    intro rank t ho da n k res hrank ht hcfg hal hpos hlen hmem hroom hin hpages hover hregs hareas a mine pages b2 b3 ha hmine hpgs hb2 hb3
    exact packet_next hentry ho rfl (by decide) ((engineStart_paritySet b1 (hop ho)).trans
      (startParitySet_right rfl rfl rfl rfl hrank ht hcfg hal hpos hlen hmem hroom hin hpages hover hregs hareas ha hmine hpgs hb2 hb3))

end Sys2Proof.Machine
end

section
/-!
PROOFS. Recovery (R395, R398 to R400). That a ROLLBACK sets LAST_COMPLETE to CUT and needs the images of that cut is log entry 109,
the model's own choice.
-/

namespace Sys2Proof.Machine

variable {b : Block} {c d : Cmd}

/-! ### A command that begins -/

/-- A running command's work is set, and it still runs. -/
theorem cmd_setWork {w : Work} (h : d ∈ b.mer.running) : ∃ x, (b.setWork d.id w).cmd d.id = some x ∧ x.work = w := by
  have hin : { d with work := w } ∈ (b.setWork d.id w).mer.running :=
    List.mem_map.mpr ⟨d, h, if_pos rfl⟩
  have hsome : ((b.setWork d.id w).cmd d.id).isSome = true :=
    List.find?_isSome.mpr ⟨_, hin, decide_eq_true rfl⟩
  obtain ⟨x, hx⟩ := Option.isSome_iff_exists.mp hsome
  have hid : x.id = d.id := of_decide_eq_true (List.find?_some (p := fun c : Cmd => decide (c.id = d.id)) hx)
  obtain ⟨y, -, hy⟩ := List.mem_map.mp (List.mem_of_find?_eq_some hx)
  refine ⟨x, hx, ?_⟩
  by_cases h : y.id = d.id
  · rw [if_pos h] at hy
    rw [← hy]
  · rw [if_neg h] at hy
    exact absurd (hy ▸ hid) h

/-- The first recovery command that waits begins, where none runs. -/
theorem recoverKick_first {fuel : Nat}
    (hruns : (b.mer.running.any (fun x => match x.work with | .restore _ => true | .rebuild _ => true | _ => false)) = false)
    (hfirst : b.mer.running.find? (fun x => x.work = .await 6 0 0 0) = some d) :
    b.recoverKick (fuel + 1) = (b.recoverBegin d).recoverKick fuel := by
  rw [Block.recoverKick]
  refine (if_neg (Bool.eq_false_iff.mp hruns)).trans ?_
  simp only [hfirst]

/-! ### RESTORE -/

theorem isHost_of {da addr : Nat} (h : regionOf da = .host addr) : isHost da = true := by
  rw [isHost, h]

theorem restBegin_right {addr : Nat} (hmem : d ∈ b.mer.running) (hst : b.snap.st = .unconfigured ∨ b.snap.st = .idle)
    (hopen : b.stepIsOpen = false) (hbusy : b.recoveryBusy = false) (hrank : b.hosted[d.pkt.f 371 369]? = some (d.pkt.f 387 372))
    (hsrc : regionOf (d.pkt.f 511 460) = .host addr) (hlen : 0 < d.pkt.f 459 420) {w : RestWork}
    (hw : w = { buf := [], got := 0, key := none, pre := [], frame := 0, segs := 0, fixes := 0, firstFix := 0 }) :
    b.restBegin d = (b.setWork d.id (.restore w)).askHost addr (Nat.min 2048 (d.pkt.f 459 420))
      (.restore d.id 0 (Nat.min 2048 (d.pkt.f 459 420))) := by
  have hgo : (decide (b.snap.st ≠ .unconfigured) && decide (b.snap.st ≠ .idle) || b.stepIsOpen || b.recoveryBusy ||
      decide (b.hosted[d.rsHidx]? ≠ some (d.pkt.f 387 372)) || !(isHost (d.pkt.f 511 460) || isPeer (d.pkt.f 511 460))) = false := by
    have hrank' : b.hosted[d.rsHidx]? = some (d.pkt.f 387 372) := hrank
    rw [hopen, hbusy, isHost_of hsrc, decide_eq_false (not_not_intro hrank')]
    rcases hst with h | h <;> rw [h] <;> rfl
  have hask : ∀ b' : Block, (∃ x, b'.cmd d.id = some x ∧ x.work = .restore w) →
      b'.restAsk d = b'.askHost addr (Nat.min 2048 (d.pkt.f 459 420)) (.restore d.id 0 (Nat.min 2048 (d.pkt.f 459 420))) := by
    rintro b' ⟨x, hx, hwork⟩
    have hn : Nat.min 2048 (d.pkt.f 459 420) ≠ 0 := Nat.ne_of_gt (Nat.lt_min.mpr ⟨by decide, hlen⟩)
    simp only [Block.restAsk, hx, hwork, hw, Nat.sub_zero, Nat.add_zero, if_neg hn, hsrc]
  refine (if_neg (Bool.eq_false_iff.mp hgo)).trans ?_
  rw [← hw]
  exact hask _ (cmd_setWork hmem)

/-! ### ROLLBACK -/

theorem headD_foLost (h : 1 ≤ c.pkt.f 411 409) : c.foLost.headD 0 = c.pkt.f 427 412 := by
  obtain ⟨n, hn⟩ := Nat.exists_eq_add_of_le' h
  rw [Cmd.foLost, hn, List.range_succ_eq_map]
  rfl

/-- A ROLLBACK once the images' ledgers are live: the step record, the regions outside parity, and the command's end. -/
def rollEnd (c : Cmd) (cut : Nat) (images : List SnapImage) (r : Block × List Nat) : Block :=
  let b := match images.head? with | some im => r.1.setStepRec im.stepImg | none => r.1
  let ks := ((b.snap.regions.filter (fun x => !x.isParity)).map (fun x => x.hidx)).eraseDups
  let b := ks.foldl (fun b k => b.invalidate k 1) b
  let step := match b.ledger 0 with | some l => l.stepNext | none => 0
  let b := { b with snap.rolled := some (cut, step) }
  let b := if r.2.isEmpty then b else b.acquireLogged c.id Status.ledgerCorrected
  b.completeId c.id Status.ok (r.2.headD 0) r.2.length

theorem rollback_right {cut : Nat} {here : Bool} (hcut : cut = c.foCut) (hhere : here = (decide (b.snap.st = .done) && decide (b.snap.cut = cut)))
    (hbusy : b.recoveryBusy = false) {images : List SnapImage} {b3 b4 b5 b6 b7 b8 b9 : Block}
    (himages : images = if here then b.snap.images else b.snap.kept.filter (fun x => x.cut = cut)) (hne : images ≠ []) (hpos : cut ≠ 0)
    (hheld : here = true ∨ (b.ledgerList.any (fun l => l.2.lastComplete = cut)) = true)
    (hb3 : b3 = b.rollFabric (c.foLost.headD 0))
    (hb4 : b4 = if here then { b3 with snap := b3.snap.keepDone } else b3.abandonCut)
    (hb5 : b5 = (b3.rollPages cut).foldl (fun (b : Block) x => b.memWrite (0x10000 * x.1) (b.peek (0x10000 * x.2) 0x10000)) b4)
    (hb6 : b6 = { b5 with snap.bases := [] })
    (hb7 : images.foldl (fun (acc : Block × List Nat) im =>
      match acc.1.ledger im.hidx with
      | none => acc
      | some old =>
        let x := acc.1.restoreLedger im.hidx { Ledger.ofBytes im.led with lastCut := old.lastCut, lastComplete := cut }
        (x.1, acc.2 ++ x.2)) (b6, ([] : List Nat)) = (b7, []))
    (hb8 : b8 = match images.head? with | some im => b7.setStepRec im.stepImg | none => b7)
    (hb9 : b9 = ((b8.snap.regions.filter (fun x => !x.isParity)).map (fun x => x.hidx)).eraseDups.foldl
      (fun (b : Block) k => b.invalidate k 1) b8) :
    b.rollback c = Block.completeId c.id Status.ok 0 0 { b9 with
      snap.rolled := some (cut, match b9.ledger 0 with | some l => l.stepNext | none => 0) } := by
  have hgo : (b.recoveryBusy || decide (cut = 0) || !(here || b.ledgerList.any (fun l => l.2.lastComplete = cut)) ||
      images.isEmpty) = false := by
    rw [hbusy, decide_eq_false hpos, (Bool.or_eq_true _ _).mpr hheld, List.isEmpty_eq_false_iff.mpr hne]
    rfl
  subst hb9
  subst hb8
  subst hb6
  subst hb5
  subst hb4
  subst hb3
  subst himages
  subst hhere
  subst hcut
  have hend : b.rollback c = rollEnd c c.foCut _ (List.foldl _ _ _) := if_neg (Bool.eq_false_iff.mp hgo)
  rw [hend.trans (congrArg (rollEnd c c.foCut _) hb7)]
  rfl

/-! ### REBUILD -/

theorem rebuildBegin_right {rank : Nat} {a : ParArea} (hrank : b.hosted[c.foHidx]? = some rank)
    (ha : b.snap.areas.find? (fun a => a.hidx = c.foHidx) = some a) (hbusy : b.recoveryBusy = false)
    (hlost : c.foLost.contains rank = true) (hidx : b.groupIndex a < 8) (hyield : c.pkt.f 405 405 = 0) {todo : List (Nat × Nat × Nat)}
    (htodo : todo = ((b.snap.regions.filter (fun r => r.isParity && r.hidx = c.foHidx)).map
      (fun r => (List.range (ceilDiv r.pages 7)).map (fun y => ((List.range 8).filter (fun ch =>
        ch = 7 || decide (7 * y + ch < r.pages))).map (fun ch => (r.region, y, ch))))).flatten.flatten) :
    b.rebuildBegin c = b.rebuildNext c a (todo.length + 1) todo := by
  have hgo : (b.recoveryBusy || !c.foLost.contains rank || decide (8 ≤ b.groupIndex a)) = false := by
    rw [hbusy, hlost, decide_eq_false (Nat.not_le.mpr hidx)]
    rfl
  have hno : ¬ (c.pkt.f 405 405 = 1) := by rw [hyield]; decide
  subst htodo
  simp only [Block.rebuildBegin, hrank, ha, hgo, if_neg hno, Bool.false_eq_true, if_false]

/-- Settles O43: the command that has just been dispatched is the first that waits, and it begins by its opcode and ACTION. -/
theorem recoveryCommandsBegin : Obligations.RecoveryCommandsBegin := by
  unfold Obligations.RecoveryCommandsBegin
  intro s p c d b1 b2 hentry hb2 hd hruns hfirst then_
  have hop : ∀ {n}, p.opcode = n → c.pkt.opcode = n := fun h => (packetEntry_opcode hentry).trans h
  have hpkt : d.pkt = c.pkt := by rw [hd]
  have hid : d.id = c.id := by rw [hd]
  have hkick : b1.startRecovery c = (b2.recoverBegin d).recoverKick b1.mer.running.length := by
    rw [hb2] at hruns hfirst ⊢
    exact recoverKick_first hruns hfirst
  refine ⟨?restore, ?failover⟩
  case restore =>
    intro addr ho hst hopen hbusy hrank hsrc hlen
    have hbegin := restBegin_right (List.mem_of_find?_eq_some hfirst) hst hopen hbusy (hpkt.symm ▸ hrank) (hpkt.symm ▸ hsrc)
      (hpkt.symm ▸ hlen) rfl
    have hrec : b2.recoverBegin d = b2.restBegin d := if_pos (by rw [hpkt]; exact hop ho)
    rw [hid, hpkt] at hbegin
    exact packet_next hentry ho rfl (by decide) ((engineStart_recovery b1 (.inl (hop ho))).trans
      (hkick.trans (congrArg (Block.recoverKick _) (hrec.trans hbegin))))
  case failover =>
    intro ho hlo hhi hbusy
    have hne : d.pkt.opcode ≠ 0x0B02 := by
      rw [hpkt, hop ho]
      decide
    have hcount : ¬ (d.pkt.f 411 409 = 0 ∨ 4 < d.pkt.f 411 409) := by
      rw [hpkt]
      omega
    have hrec : b2.recoverBegin d = match d.pkt.f 511 508 with
        | 0 => b2.rollback d
        | 1 => b2.rebuildBegin d
        | _ => b2.refuse d Status.badParam 0 := (if_neg hne).trans (if_neg hcount)
    refine ⟨?rollback, ?rebuild⟩
    case rollback =>
      intro ha cut here images b3 b4 b5 b6 b7 b8 b9 himages himg hcut hheld hb3 hb4 hb5 hb6 hb7 hb8 hb9
      rw [hpkt, ha] at hrec
      have hfo : d.foLost.headD 0 = c.pkt.f 427 412 := by
        rw [headD_foLost (by rw [hpkt]; exact hlo), hpkt]
      have hroll := rollback_right (c := d) (cut := cut) (by rw [Cmd.foCut, hpkt]) rfl hbusy himages himg hcut hheld
        (hb3.trans (by rw [hfo])) hb4 hb5 hb6 hb7 hb8 hb9
      rw [hid] at hroll
      exact packet_next hentry ho (decide_eq_true ha) (by decide) ((engineStart_recovery b1 (.inr (hop ho))).trans
        (hkick.trans (congrArg (Block.recoverKick _) (hrec.trans hroll))))
    case rebuild =>
      intro rank a ha hrank harea hlost hidx hyield todo htodo
      rw [hpkt, ha] at hrec
      have hreb := rebuildBegin_right (c := d) (by rw [Cmd.foHidx, hpkt]; exact hrank) (by rw [Cmd.foHidx, hpkt]; exact harea) hbusy
        (by rw [Cmd.foLost, hpkt]; exact hlost) hidx (by rw [hpkt]; exact hyield)
        (htodo.trans (by rw [Cmd.foHidx, hpkt]))
      exact packet_next hentry ho (decide_eq_true ha) (by decide) ((engineStart_recovery b1 (.inr (hop ho))).trans
        (hkick.trans (congrArg (Block.recoverKick _) (hrec.trans hreb))))

end Sys2Proof.Machine
end

section
/-!
PROOFS. Grants, copies, streams and parity messages (R306, R382, R384, R388, R389, R391, R400). That a failed stream write records
HOST_ACCESS_FAIL is log entry 102, and which stream of the drain a grant goes to is log entry 103, both the model's own choice.
-/

namespace Sys2Proof.Machine

variable {b : Block}

/-! ### Grants -/

theorem pathGrant_drain {path : Nat} (hready : b.drainReady path = true)
    (hshare : ((b.tier.grants.get [] path).filter id).length < b.tier.share) :
    b.pathGrant path = { b.drainGrant path with
      tier.grants := (b.drainGrant path).tier.grants.set [] path ((true :: b.tier.grants.get [] path).take 16) } := by
  simp only [Block.pathGrant, hready, hshare, decide_true, Bool.and_self, if_true]

theorem pathGrant_tier {path : Nat}
    (hdrain : b.drainReady path = false ∨ b.tier.share ≤ ((b.tier.grants.get [] path).filter id).length)
    (htier : (b.tierNext path).isSome = true) :
    b.pathGrant path = { b.tierGrant path with
      tier.grants := (b.tierGrant path).tier.grants.set [] path ((false :: b.tier.grants.get [] path).take 16) } := by
  have hgo : (b.drainReady path && decide (((b.tier.grants.get [] path).filter id).length < b.tier.share)) = false := by
    rcases hdrain with h | h
    · rw [h, Bool.false_and]
    · rw [decide_eq_false (Nat.not_lt.mpr h), Bool.and_false]
  simp only [Block.pathGrant, hgo, htier, Bool.false_eq_true, if_false, if_true]

/-! ### Copies of protected pages -/

theorem wpCopy_parity {g dst : Nat} {r : SnapRegion} (hr : b.snapRegionOf g = some r) (hwp : attrWp (b.attr g) = true)
    (hpar : r.isParity = true) (hfree : b.parityFree = some dst) :
    b.wpCopy g = { (b.copyPage g dst).clearWp g with
      snap.bases := (b.copyPage g dst).snap.bases ++ [{ page := g, cut := (b.copyPage g dst).snap.last, res := some dst }] } := by
  simp only [Block.wpCopy, hr, hwp, hpar, hfree, Bool.not_true, Bool.false_eq_true, if_false, if_true]

theorem wpCopy_plain {g dst : Nat} {r : SnapRegion} (hr : b.snapRegionOf g = some r) (hwp : attrWp (b.attr g) = true)
    (hpar : r.isParity = false) (hview : b.viewOf g = none) (hfree : b.snapFree.head? = some dst) :
    b.wpCopy g = { (b.copyPage g dst).clearWp g with
      snap.copies := (b.copyPage g dst).snap.copies ++ [(g, dst)] } := by
  simp only [Block.wpCopy, hr, hwp, hpar, hview, hfree, Bool.not_true, Bool.false_eq_true, if_false]

/-! ### Streams -/

theorem streamComplete_last {k : Nat} {st : SnapStream} (hst : b.snap.streams.find? (fun x => x.hidx = k) = some st)
    (hopen : b.snap.st = .opened) (hc : st.complete = false) (ht : st.trailer = true) (hbuf : st.buf = []) (hacks : st.acks = 0) :
    b.streamComplete k = (Block.setStream { st with complete := true }
      { b with host.reqs := b.host.reqs.filter (fun r => r.2 ≠ HostReq.stream k) }).cutTest := by
  have hgo : (decide (b.snap.st = .opened) && st.trailer && st.buf.isEmpty && decide (st.acks = 0) && !st.complete) = true := by
    rw [hopen, ht, hbuf, hacks, hc]
    rfl
  simp only [Block.streamComplete, hst]
  exact if_pos hgo

theorem streamWriteFail_running {k : Nat} {st : SnapStream} (hst : b.snap.streams.find? (fun x => x.hidx = k) = some st)
    (hc : st.complete = false) :
    b.streamWriteFail k = b.streamFail k Status.hostAccessFail := by
  have hany : b.snap.streams.any (fun s => decide (s.hidx = k) && !s.complete) = true := by
    refine List.any_eq_true.mpr ⟨st, List.mem_of_find?_eq_some hst, ?_⟩
    have hk : decide (st.hidx = k) = true := List.find?_some (p := fun x : SnapStream => decide (x.hidx = k)) hst
    rw [hk, hc]
    rfl
  exact if_pos hany

/-- Settles O44, event by event. -/
theorem drainEvents : Obligations.DrainEvents := by
  unfold Obligations.DrainEvents
  intro s
  refine ⟨?grant, ?copy, ?stream⟩
  case grant =>
    intro path last note
    exact ⟨fun hready hshare => run_put (pathGrant_drain hready hshare), fun hdrain htier => run_put (pathGrant_tier hdrain htier)⟩
  case copy =>
    intro g dst r hr hwp
    exact ⟨fun hpar hfree => run_put (wpCopy_parity hr hwp hpar hfree),
      fun hpar hview hfree => run_put (wpCopy_plain hr hwp hpar hview hfree)⟩
  case stream =>
    intro k st hst hopen hc
    refine ⟨fun ht hbuf hacks b hb => ?_, ?_⟩
    · subst hb
      exact run_put (streamComplete_last hst hopen hc ht hbuf hacks)
    · exact run_put ((streamWriteFail_running hst hc).trans (if_pos hopen))

/-! ### Parity messages -/

variable {m : Msg} {src no : Nat}

theorem parityDelta_unit {a : ParArea} {pos : Nat} {bs : List Byte} {b1 b2 : Block} {e : Bool}
    (hm : b.inMsg Kind.parityDelta src no = some m) (hu : b.unitAt m.dest m.shard (m.offset / 0x10000) = some (a, pos))
    (hcut : a.touched = [] ∨ a.cut = m.seq)
    (hread : b.memRead (b.halfDa a pos (if !a.touched.contains pos then a.halves.get 0 pos else 1 - a.halves.get 0 pos)) 0x10000 =
      (.data bs e, b1))
    (hb2 : b2 = (b1.dropMsg m).memWrite (b1.halfDa a pos (1 - a.halves.get 0 pos)) (xorBytes bs m.data)) :
    b.parityDelta src no = Block.ackMsg m true { b2 with
      snap.areas := b2.snap.areas.map (fun (x : ParArea) => if x.hidx = a.hidx then
        { x with cut := m.seq, touched := if !a.touched.contains pos then pos :: x.touched else x.touched } else x) } := by
  have hgo : (!a.touched.isEmpty && decide (a.cut ≠ m.seq)) = false := by
    rcases hcut with h | h
    · rw [h]
      rfl
    · rw [decide_eq_false (not_not_intro h), Bool.and_false]
  subst hb2
  unfold Block.parityDelta
  obtain ⟨read, hread'⟩ : ∃ f, f = Block.memRead := exists_eq
  rw [← hread'] at hread ⊢
  simp only [hm, hu, hgo, hread, Bool.false_eq_true, if_false]

theorem parityDone_first {b1 : Block} (hm : b.inMsg Kind.parityDone src no = some m) (hb1 : b1 = b.dropMsg m)
    (hnew : (m.seq, m.tree, m.node) ∉ b1.snap.dones) :
    b.parityDone src no = Block.cutTest { b1 with snap.dones := b1.snap.dones ++ [(m.seq, m.tree, m.node)] } := by
  subst hb1
  have hno : ¬ (b.dropMsg m).snap.dones.contains (m.seq, m.tree, m.node) = true := fun h => hnew (List.contains_iff_mem.mp h)
  simp only [Block.parityDone, hm, if_neg hno]

theorem fetchMsg_answered {r : Option (List Byte)} {b1 : Block} (hm : b.inMsg Kind.fetch src no = some m)
    (hr : (b.dropMsg m).fetchLocal m.dest m.seq m.level m.shard (m.offset / 0x10000) = (r, b1)) :
    b.fetchMsg src no = match (generalizing := false) r with
      | some bs => b1.post { Msg.zero with
          kind := Kind.fetchData, src := m.dest, dest := m.src, vl := 6, tree := m.tree, seq := m.seq, shard := m.shard,
          level := m.level, offset := m.offset, length := bs.length, data := bs } none
      | none => b1.unreach m := by
  unfold Block.fetchMsg
  obtain ⟨fetch, hfetch⟩ : ∃ f, f = Block.fetchLocal := exists_eq
  rw [← hfetch] at hr ⊢
  simp only [hm, hr]
  cases r <;> rfl

/-- FETCH_DATA that a REBUILD awaits for its present chunk. -/
theorem fetchData_awaited {c : Cmd} {w : RebWork} {a : ParArea} {y ch : Nat} {rest : List (Nat × Nat × Nat)} {b1 : Block}
    (hm : b.inMsg Kind.fetchData src no = some m)
    (hc : b.mer.running.find? (fun c => match c.work with | .rebuild _ => c.foCut = m.seq | _ => false) = some c)
    (hw : c.work = .rebuild w) (ha : b.snap.areas.find? (fun a => a.hidx = c.foHidx) = some a) (htree : m.tree = a.tree)
    (htodo : w.todo = (m.shard, y, ch) :: rest) {key : Nat × Nat × Nat}
    (hkey : ((b.groupOf a).findIdx (· = m.src), m.level, m.offset / 0x10000) = key) (hin : key ∈ w.waits)
    (hb1 : b1 = { b.dropMsg m with fab.reqs := b.fab.reqs.filter (fun r => !(r.2.2 = .fetch c.id && r.2.1 = m.src)) }) :
    b.fetchData src no = if (w.waits.erase key).isEmpty then
        (b1.rebuildWrite c a m.shard y ch (xorBytes w.acc m.data)).rebuildNext c a (rest.length + 1) rest
      else b1.setWork c.id (.rebuild { w with acc := xorBytes w.acc m.data, waits := w.waits.erase key }) := by
  subst hb1
  subst hkey
  have hc' : (b.dropMsg m).mer.running.find? (fun c => match c.work with | .rebuild _ => c.foCut = m.seq | _ => false) = some c := hc
  have ha' : (b.dropMsg m).snap.areas.find? (fun a => a.hidx = c.foHidx) = some a := ha
  have hgo : (!w.waits.contains (((b.dropMsg m).groupOf a).findIdx (· = m.src), m.level,
      m.offset / 0x10000) || decide (m.tree ≠ a.tree)) = false := by
    have hin' : w.waits.contains (((b.dropMsg m).groupOf a).findIdx (· = m.src), m.level, m.offset / 0x10000) = true :=
      List.contains_iff_mem.mpr hin
    rw [decide_eq_false (not_not_intro htree), hin']
    rfl
  unfold Block.fetchData
  simp only [hm]
  split
  case h_1 heq => cases heq.symm.trans hc'
  case h_2 c' heq =>
    obtain rfl : c = c' := Option.some.inj (hc'.symm.trans heq)
    simp only [hw, ha', htodo, decide_true, Bool.not_true, Bool.false_or]
    exact if_neg (Bool.eq_false_iff.mp hgo)

theorem rebuildTimeout_late {c : Cmd} {w : RebWork} {a : ParArea} {x : Nat × Nat × Nat} {xs : List (Nat × Nat × Nat)}
    (hc : b.mer.running.find? (fun c => match c.work with
      | .rebuild w => !w.waits.isEmpty && decide (w.since + 25000000 ≤ b.now)
      | _ => false) = some c)
    (hw : c.work = .rebuild w) (ha : b.snap.areas.find? (fun a => a.hidx = c.foHidx) = some a) (hx : w.waits = x :: xs) :
    b.rebuildTimeout = b.rebuildLost c ((b.groupOf a).getD x.1 0) := by
  unfold Block.rebuildTimeout
  split
  case h_1 heq => cases heq.symm.trans hc
  case h_2 c' heq =>
    obtain rfl : c = c' := Option.some.inj (hc.symm.trans heq)
    simp only [hw, ha, hx, List.head?_cons, Option.getD_some]

/-- Settles O45, message by message. -/
theorem parityMessages : Obligations.ParityMessages := by
  unfold Obligations.ParityMessages
  intro s src no m
  refine ⟨?delta, ?done, ?fetch, ?data, ?timeout⟩
  case delta =>
    intro a pos bs b1 b2 e hm hu hcut h first hread hb2
    exact run_put (parityDelta_unit hm hu hcut hread hb2)
  case done =>
    intro b1 hm hb1 hnew
    exact run_put (parityDone_first hm hb1 hnew)
  case fetch =>
    intro r b1 hm hr
    exact run_put (fetchMsg_answered hm hr)
  case data =>
    intro c w a y ch rest b1 hm hc hw ha htree htodo key hin hb1
    have hdata := fetchData_awaited hm hc hw ha htree htodo rfl hin hb1
    refine ⟨fun hlast => ?_, fun hmore => ?_⟩
    · exact run_put (hdata.trans (if_pos (List.isEmpty_iff.mpr hlast)))
    · exact run_put (hdata.trans (if_neg (fun h => hmore (List.isEmpty_iff.mp h))))
  case timeout =>
    intro c w a x xs hc hw ha hx
    exact run_put (rebuildTimeout_late hc hw ha hx)

end Sys2Proof.Machine
end

section
/-!
PROOFS. Ephemeris entries (R77 to R84, R369, R382, R460). That EPH_CANCEL spares an entry that is due and ready but has not yet fired
is log entry 96, the model's own choice.
-/

namespace Sys2Proof.Machine

variable {b : Block} {c : Cmd} {e : EphEntry}

/-! ### EPH_WRITE and EPH_CANCEL -/

theorem startEphWrite_right {b2 : Block}
    (hright : ∀ i, i < c.pkt.f 15 0 → ephEntryBad (ephWord c.pkt i) = none ∧ b.now < ephFire c.pkt i)
    (hst : b.sid.state = .locked) (hroom : b.eph.entries.length + c.pkt.f 15 0 ≤ 4096)
    (hb2 : b2 = { b with eph := {
      nextSerial := b.eph.nextSerial + c.pkt.f 15 0
      entries := b.eph.entries ++ (List.range (c.pkt.f 15 0)).map (fun i =>
        let w := ephWord c.pkt i
        { serial := b.eph.nextSerial + i, fire := BitVec.ofNat 64 (ephFire c.pkt i), arg0 := bits w 159 128,
          arg1 := bits w 191 160, guardEn := bit w 47, guardCtr := bits w 63 51, guardCond := bits w 50 48,
          guardVal := bits w 127 96, tag := bits w 95 64, kind := bits w 35 32, lateBy := 0 }) } }) :
    b.startEphWrite c = b2.done c (4096 - b2.eph.entries.length) := by
  have hbad : (List.range (c.pkt.f 15 0)).filterMap (fun i => ephEntryBad (ephWord c.pkt i)) = [] := by
    rw [List.filterMap_eq_nil_iff]
    exact fun i hi => (hright i (List.mem_range.mp hi)).1
  have hpast : (List.range (c.pkt.f 15 0)).find? (fun i => decide (ephFire c.pkt i ≤ b.now)) = none := by
    rw [List.find?_eq_none]
    intro i hi
    rw [decide_eq_true_eq]
    exact Nat.not_le.mpr (hright i (List.mem_range.mp hi)).2
  have hfree : ¬ b.ephFree < c.pkt.f 15 0 := by
    rw [Block.ephFree]
    omega
  subst hb2
  simp only [Block.startEphWrite, hbad, hpast, hst, ne_eq, not_true_eq_false, if_false, if_neg hfree]
  rfl

/-- EPH_CANCEL_APPLY of the command that has waited for a tick. -/
theorem ephCancelApply_waited
    (hc : b.mer.running.find? (fun c => match c.work with | .await 2 sc _ _ => decide (sc < b.now) | _ => false) = some c) :
    b.ephCancelApply = Block.done c (b.eph.entries.filter (fun e =>
        decide ((e.tag ^^^ c.pkt.f 127 96) &&& c.pkt.f 95 64 = 0) && !b.ephReady e)).length
      { b with eph.entries := b.eph.entries.filter (fun e =>
        !(decide ((e.tag ^^^ c.pkt.f 127 96) &&& c.pkt.f 95 64 = 0) && !b.ephReady e)) } := by
  unfold Block.ephCancelApply
  split
  case h_1 heq => cases heq.symm.trans hc
  case h_2 c' heq =>
    obtain rfl : c = c' := Option.some.inj (hc.symm.trans heq)
    rfl

/-! ### Entries that fire -/

/-- A held collective that an event names is released. -/
theorem collRelease_held {kind arg tag due : Nat} {x : Coll}
    (hx : b.fab.colls.find? (fun y => y.isHeld && y.hold = kind && y.tag = arg) = some x) {b' : Block}
    (hb' : b' = { b.setColl { x with startable := true, order := b.fab.nextOrder } with fab.nextOrder := b.fab.nextOrder + 1 }) :
    b.collRelease kind arg tag due = some (b'.collKick 17) := by
  subst hb'
  simp only [Block.collRelease, hx]

/-- With no collective held for it a release is recorded. -/
theorem collRelease_recorded {kind arg tag due : Nat}
    (hx : b.fab.colls.find? (fun y => y.isHeld && y.hold = kind && y.tag = arg) = none) (hroom : b.fab.releases.length < 256)
    {b' : Block} (hb' : b' = { b with
      fab.releases := b.fab.releases ++ [{ kind := kind, arg := arg, due := due, tag := tag }] }) :
    b.collRelease kind arg tag due = some b' := by
  subst hb'
  simp only [Block.collRelease, hx, if_neg (Nat.not_le.mpr hroom)]

theorem foldl_max_lt {α : Type} (f : α → Nat) {n : Nat} : ∀ (l : List α) (a : Nat), a < n → (∀ x ∈ l, f x < n) →
    l.foldl (fun a x => Nat.max a (f x)) a < n
  | [], _, ha, _ => ha
  | x :: l, _, ha, h => foldl_max_lt f l _ (Nat.max_lt.mpr ⟨ha, h x List.mem_cons_self⟩)
      (fun y hy => h y (List.mem_cons_of_mem x hy))

/-- A cut that nothing refuses opens. -/
theorem snapCut_opens {g : SnapCfg} {cut : Nat} (hst : b.snap.st = .idle) (hg : b.snap.cfg = some g) (hrec : b.recovering = false)
    (hupd : ∀ c ∈ b.mer.running, c.pkt.opcode ≠ 0x0800)
    (hled : ∀ l ∈ b.ledgerList, l.2.lastCut < cut ∧ l.2.gated = false) (hcut : 0 < cut) (hinv : b.train.invalid = [])
    (hfin : b.train.updStarted ≤ b.train.updFinal) : b.snapCut cut = some (b.openCut g cut) := by
  have hbusy : (b.mer.running.any (fun c => decide (c.pkt.opcode = 0x0800)) || b.recovering) = false := by
    rw [hrec, Bool.or_false, List.any_eq_false]
    intro c hc
    rw [decide_eq_true_eq]
    exact hupd c hc
  have hgreatest : ¬ cut ≤ b.ledgerList.foldl (fun a l => Nat.max a l.2.lastCut) 0 :=
    Nat.not_le.mpr (foldl_max_lt (fun l : Nat × Ledger => l.2.lastCut) _ 0 hcut (fun l hl => (hled l hl).1))
  have hgated : b.ledgerList.any (fun l => l.2.gated) = false := by
    rw [List.any_eq_false]
    exact fun l hl => Bool.eq_false_iff.mp (hled l hl).2
  simp only [Block.snapCut, hst, hg, hbusy, if_neg hgreatest, hinv, List.isEmpty_nil, hgated, if_neg (Nat.not_lt.mpr hfin),
    Bool.not_true, Bool.false_eq_true, if_false]

theorem ephReady_of_due (hfire : e.fire.toNat = b.now) (hguard : b.guardHolds e = true) : b.ephReady e = true := by
  rw [Block.ephReady, hguard, decide_eq_true (Nat.le_of_eq hfire)]
  rfl

/-- Outside Shutter the action of an entry goes by its kind. -/
theorem ephAct_outside (hshut : b.shut.shut = false) : b.ephAct e =
    match e.kind with
    | 1 => b.collRelease 1 e.arg0 e.tag e.fire.toNat
    | 2 => b.collRelease 2 e.arg0 e.tag e.fire.toNat
    | 3 => b.snapCut e.arg0
    | 4 => some (b.onPower (fun p => { p with requested := e.arg0 % 8 }))
    | 5 => some (b.issueSync { ctr := e.arg0 % 8192, req := 218, set := false, val := e.arg1, cmd := none })
    | 6 => some (b.issueSync { ctr := e.arg0 % 8192, req := 218, set := true, val := e.arg1, cmd := none })
    | _ => none := by
  have hgo : (b.shut.shut && decide (e.kind ≤ 3)) = false := by rw [hshut, Bool.false_and]
  exact if_neg (Bool.eq_false_iff.mp hgo)

/-- An entry that is due on this tick and first of it fires on time, and is removed. -/
theorem ephFire_onTime {k : Nat} {b' : Block} (hkind : e.kind = k)
    (hmem : b.eph.entries.find? (fun x => x.serial = e.serial && x.kind = e.kind) = some e) (hfire : e.fire.toNat = b.now)
    (hguard : b.guardHolds e = true) (hawake : b.isAwake = true) (hfirst : b.ephBefore e = false) (hact : b.ephAct e = some b') :
    b.ephFire k e.serial = { b' with eph.entries := b'.eph.entries.filter (fun x => x.serial ≠ e.serial) } := by
  have hlate : ¬ (decide (e.fire.toNat < b.now) && decide (b'.fab.releases.length ≤ b.fab.releases.length) &&
      !(b.shut.shut && decide (e.kind ≤ 3))) = true := by
    rw [decide_eq_false (by rw [hfire]; exact Nat.lt_irrefl _), Bool.false_and, Bool.false_and]
    exact Bool.false_ne_true
  subst hkind
  simp only [Block.ephFire, hmem, hawake, ephReady_of_due hfire hguard, hfirst, hact, Bool.not_true, Bool.and_false, Bool.false_eq_true,
    if_false]
  exact if_neg hlate

/-- Settles O47: the two commands, the cancel at its tick, and the six kinds of event. -/
theorem ephemerisEntries : Obligations.EphemerisEntries := by
  unfold Obligations.EphemerisEntries
  refine ⟨⟨?commands, ?cancel⟩, ?events⟩
  case commands =>
    intro s p c b1 b2 hentry
    have hop : ∀ {n}, p.opcode = n → c.pkt.opcode = n := fun h => (packetEntry_opcode hentry).trans h
    refine ⟨fun ho hright hst hroom hb2 => ?_, fun ho => ?_⟩
    · exact packet_next hentry ho rfl (by decide) ((engineStart_ephWrite b1 (hop ho)).trans (startEphWrite_right hright hst hroom hb2))
    · exact packet_next hentry ho rfl (by decide) (engineStart_ephCancel b1 (hop ho))
  case cancel =>
    intro s c b1 hc hit hb1
    subst hb1
    exact run_put (ephCancelApply_waited hc)
  case events =>
    intro s e hmem hfire hguard hshut fired op
    refine ⟨fun hawake hfirst => ⟨?held, ?recorded, ?cut, ?level, ?add, ?set⟩, ?asleep⟩
    case held =>
      intro x hx b hb
      refine ⟨fun hk => ?_, fun hk => ?_⟩
      · rw [hk] at hx
        have hact : s.blk.ephAct e = some (b.collKick 17) := by
          rw [ephAct_outside hshut, hk]
          exact collRelease_held hx hb
        exact run_put (ephFire_onTime hk hmem hfire hguard hawake hfirst hact)
      · rw [hk] at hx
        have hact : s.blk.ephAct e = some (b.collKick 17) := by
          rw [ephAct_outside hshut, hk]
          exact collRelease_held hx hb
        exact run_put (ephFire_onTime hk hmem hfire hguard hawake hfirst hact)
    case recorded =>
      intro hx hroom b hb
      refine ⟨fun hk => ?_, fun hk => ?_⟩
      · rw [hk] at hx hb
        have hact : s.blk.ephAct e = some b := by
          rw [ephAct_outside hshut, hk]
          exact collRelease_recorded hx hroom hb
        exact run_put (ephFire_onTime hk hmem hfire hguard hawake hfirst hact)
      · rw [hk] at hx hb
        have hact : s.blk.ephAct e = some b := by
          rw [ephAct_outside hshut, hk]
          exact collRelease_recorded hx hroom hb
        exact run_put (ephFire_onTime hk hmem hfire hguard hawake hfirst hact)
    case cut =>
      intro g hk hst hg hrec hupd hled hcut hinv hfin
      have hact : s.blk.ephAct e = some (s.blk.openCut g e.arg0) := by
        rw [ephAct_outside hshut, hk]
        exact snapCut_opens hst hg hrec hupd hled hcut hinv hfin
      exact run_put (ephFire_onTime hk hmem hfire hguard hawake hfirst hact)
    case level =>
      intro hk
      have hact : s.blk.ephAct e = some (s.blk.onPower (fun p => { p with requested := e.arg0 % 8 })) := by
        rw [ephAct_outside hshut, hk]
        <;> rfl
      exact run_put (ephFire_onTime hk hmem hfire hguard hawake hfirst hact)
    case add =>
      intro hk
      have hact : s.blk.ephAct e = some (s.blk.issueSync (op false)) := by
        rw [ephAct_outside hshut, hk]
        <;> rfl
      exact run_put (ephFire_onTime hk hmem hfire hguard hawake hfirst hact)
    case set =>
      intro hk
      have hact : s.blk.ephAct e = some (s.blk.issueSync (op true)) := by
        rw [ephAct_outside hshut, hk]
        <;> rfl
      exact run_put (ephFire_onTime hk hmem hfire hguard hawake hfirst hact)
    case asleep =>
      intro hasleep hk
      rw [hk] at hmem
      refine run_put ?_
      simp only [Block.ephFire, hmem, hasleep, Nat.le_of_eq hfire, decide_true, Bool.not_false, Bool.and_self, if_true]

end Sys2Proof.Machine
end

section
/-!
PROOFS. Performance levels, limiters and clocks (R458 to R467), sleep states and waking (R468 to R473). 'One slower' as one more
than TARGET, and RESULT of PL_SET with the level decided, are log entry 112, the model's own choice.
-/

namespace Sys2Proof.Machine

variable {b : Block} {c : Cmd}

/-! ### Die sensors -/

/-- A reading of one of the five sensors is stored. -/
theorem sense_of_lt {sensor temp : Nat} (h : sensor < 5) :
    b.sense sensor temp = { b with pow.dieTemps := b.pow.dieTemps.set 0 sensor temp } :=
  if_neg (Nat.not_le.mpr h)

/-- Five readings are those of the five sensors in turn. -/
theorem sense_all (t0 t1 t2 t3 t4 : Nat) :
    [t0, t1, t2, t3, t4].zipIdx.foldl (fun b x => Block.sense x.2 x.1 b) b = { b with
      pow.dieTemps := ((((b.pow.dieTemps.set 0 0 t0).set 0 1 t1).set 0 2 t2).set 0 3 t3).set 0 4 t4 } := by
  simp only [List.zipIdx_cons, List.zipIdx_nil, List.foldl_cons, List.foldl_nil, Nat.reduceAdd, sense_of_lt (Nat.ofNat_pos : 0 < 5),
    sense_of_lt (by decide : 1 < 5), sense_of_lt (by decide : 2 < 5), sense_of_lt (by decide : 3 < 5), sense_of_lt (by decide : 4 < 5)]

theorem startPlSet_requested {b2 : Block} (hb2 : b2 = b.onPower (fun x => { x with requested := c.pkt.f 127 125 })) :
    b.startPlSet c = b2.done c (8 * b2.pow.requested + b2.pow.target) := by
  rw [hb2, Block.startPlSet]

/-- Readings of the five sensors, every one low enough, release both limiters. -/
theorem dieTempRelease_next {s : State} (t0 t1 t2 t3 t4 : Nat) {b : Block} (hb : b = { s.blk with
    pow.dieTemps := ((((s.blk.pow.dieTemps.set 0 0 t0).set 0 1 t1).set 0 2 t2).set 0 3 t3).set 0 4 t4 }) :
    exec (.dieTempRelease [t0, t1, t2, t3, t4]) s = .next (s.put (if b.pow.dieTemps.all (fun e => decide (e.2 < 97))
      then b.onPower (fun p => (p.release 5).release 6) else b)) := by
  refine run_put ?_
  simp only [sense_all, ← hb]

/-- Settles O48: PL_SET, THROTTLE#, the limiters, the persistence of a limit, the level's changes and the clock switch. -/
theorem powerCommandsAndEvents : Obligations.PowerCommandsAndEvents := by
  unfold Obligations.PowerCommandsAndEvents
  refine ⟨?plSet, ?events⟩
  case plSet =>
    intro s p c b1 b2 hentry ho hb2
    exact packet_next hentry ho rfl (by decide)
      ((engineStart_plSet b1 ((packetEntry_opcode hentry).trans ho)).trans (startPlSet_requested hb2))
  case events =>
    intro s x go
    refine ⟨fun h => ?throttle, fun h => ⟨?release, ?period⟩, run_put rfl, run_put rfl, ?input, ?die, ?dieRelease, ?stack,
      run_put rfl,
      ?persist, fun h => ?clear, ?voltage, ?slew, fun h => ?clock⟩
    case throttle => exact run_put (if_neg (Bool.eq_false_iff.mp h))
    case release => exact run_put (if_pos h)
    case period => exact run_put (if_pos h)
    case input =>
      intro watts b hb
      subst hb
      exact ⟨run_put rfl, run_put rfl⟩
    case die =>
      intro sensor temp b hsensor hb
      have hsense : s.blk.sense sensor temp = b := (sense_of_lt hsensor).trans hb.symm
      subst hsense
      exact ⟨run_put rfl, run_put rfl⟩
    case dieRelease => exact fun t0 t1 t2 t3 t4 b hb => dieTempRelease_next t0 t1 t2 t3 t4 hb
    case stack =>
      by_cases h : s.blk.stackLimit = true
      · rw [if_pos h]
        exact run_put (if_pos h)
      · rw [if_neg h]
        exact run_self (if_neg h)
    case persist =>
      intro heff hover hcause
      have hgo : (decide (s.blk.pow.eff = 7) && s.blk.overLimit && !bit s.blk.shut.active 4) = true := by
        rw [decide_eq_true heff, hover, hcause]
        rfl
      exact run_put (if_pos hgo)
    case clear => exact run_put (if_neg (Bool.eq_false_iff.mp h))
    case voltage =>
      intro hswitch hfaster
      have hgo : (s.blk.pow.switching && decide (s.blk.pow.target < s.blk.pow.eff)) = true := by
        rw [hswitch, decide_eq_true hfaster]
        rfl
      exact run_put (if_pos hgo)
    case slew =>
      intro hswitch hreached
      have hgo : (s.blk.pow.switching && decide (s.blk.pow.target = s.blk.pow.eff)) = true := by
        rw [hswitch, decide_eq_true hreached]
        rfl
      exact run_put (if_pos hgo)
    case clock => exact run_put (if_pos h)

/-! ### SLEEP -/

/-- A SLEEP that no condition refuses. -/
theorem startSleep_free {t : Nat} (ht : c.pkt.f 127 126 = t) (hres : c.pkt.f 125 0 = 0) (hpos : t ≠ 0)
    (hbar : b.sleepBar t (some c.id) = none) : b.startSleep c =
      if t = 3 then (b.done c 0).beginSleep 3 none else (b.setWork c.id (.await 7 t 0 0)).beginSleep t (some c.id) := by
  have hgo : ¬ (t = 0 ∨ c.pkt.f 125 0 ≠ 0) := not_or.mpr ⟨hpos, not_not.mpr hres⟩
  subst ht
  simp only [Block.startSleep, if_neg hgo, hbar]

/-- Idle-gate and Stow: the SLEEP waits while its entry begins. -/
theorem startSleep_waits {t : Nat} (ht : c.pkt.f 127 126 = t) (hres : c.pkt.f 125 0 = 0) (hpos : t ≠ 0) (hdark : t ≠ 3)
    (hbar : b.sleepBar t (some c.id) = none) : b.startSleep c = (b.setWork c.id (.await 7 t 0 0)).beginSleep t (some c.id) :=
  (startSleep_free ht hres hpos hbar).trans (if_neg hdark)

/-- Dark: the SLEEP completes before its entry. -/
theorem startSleep_dark (ht : c.pkt.f 127 126 = 3) (hres : c.pkt.f 125 0 = 0) (hbar : b.sleepBar 3 (some c.id) = none) :
    b.startSleep c = (b.done c 0).beginSleep 3 none :=
  (startSleep_free ht hres (by decide) hbar).trans (if_pos rfl)

theorem beginSleep_of_ne_stow {t : Nat} {me : Option Nat} (ht : t ≠ 2) :
    b.beginSleep t me = { b with pow.sleep := .entering t, pow.sleepCmd := me } := if_neg ht

theorem beginSleep_stow {me : Option Nat} {b2 : Block} (hb2 : b2 = { b with pow.sleep := .entering 2, pow.sleepCmd := me }) :
    b.beginSleep 2 me = (List.range 8).foldl (fun b m => if (b.port m).st.isUp then b.queueLocal m 5 0 0 else b) b2 := by
  rw [hb2, Block.beginSleep, if_pos rfl]

/-! ### Entry and wake -/

/-- Entry into Idle-gate, or into Stow with every SLEEP sent, is complete. -/
theorem sleepEntryDone_entered {t : Nat} (hs : b.pow.sleep = .entering t) (hdark : t ≠ 3) (hsent : t = 2 → b.sleepUnsent = false) :
    b.sleepEntryDone = b.enterSleep t := by
  have hgo : ¬ (decide (t = 2) && b.sleepUnsent) = true := by
    rw [Bool.and_eq_true, decide_eq_true_eq]
    exact fun h => Bool.false_ne_true ((hsent h.1).symm.trans h.2)
  simp only [Block.sleepEntryDone, hs, if_neg hdark, if_neg hgo]

/-- Entry into Dark that no wake has met resets the module. -/
theorem sleepEntryDone_dark (hs : b.pow.sleep = .entering 3) (hwake : b.pow.darkWake = false) :
    b.sleepEntryDone = { b.moduleReset with boot.dark := true } := by
  simp only [Block.sleepEntryDone, hs, hwake, if_true, Bool.false_eq_true, if_false]

/-- Settles O49: SLEEP by its STATE, the end of an entry and of a wake, WAKE#, the wake pattern and the D-states. -/
theorem sleepCommandsAndEvents : Obligations.SleepCommandsAndEvents := by
  unfold Obligations.SleepCommandsAndEvents
  refine ⟨?sleep, ?events⟩
  case sleep =>
    intro s p c b1 hentry ho hres
    have hop : c.pkt.opcode = 0x0D01 := (packetEntry_opcode hentry).trans ho
    refine ⟨fun hstate hbar b2 hb2 => ?idle, fun hstate hbar b2 b3 hb2 hb3 => ?stow, fun hstate hbar b2 hb2 => ?dark⟩
    case idle =>
      rw [hb2]
      exact packet_next hentry ho (decide_eq_true hstate) (by decide)
        ((engineStart_sleep b1 hop).trans ((startSleep_waits hstate hres (by decide) (by decide) hbar).trans
          (beginSleep_of_ne_stow (by decide))))
    case stow =>
      rw [hb2] at hb3
      exact packet_next hentry ho (decide_eq_true hstate) (by decide)
        ((engineStart_sleep b1 hop).trans ((startSleep_waits hstate hres (by decide) (by decide) hbar).trans (beginSleep_stow hb3)))
    case dark =>
      rw [hb2]
      exact packet_next hentry ho (decide_eq_true hstate) (by decide)
        ((engineStart_sleep b1 hop).trans ((startSleep_dark hstate hres hbar).trans (beginSleep_of_ne_stow (by decide))))
  case events =>
    intro s
    refine ⟨fun hs => ?idle, fun hs hsent => ?stow, fun hs hwake => ?dark, ?wake, ?pin, run_put rfl, ?pattern, ?d3, run_put rfl,
      run_self rfl⟩
    case idle => exact run_put (sleepEntryDone_entered hs (by decide) (fun h => absurd h (by decide)))
    case stow => exact run_put (sleepEntryDone_entered hs (by decide) (fun _ => hsent))
    case dark => exact run_put (sleepEntryDone_dark hs hwake)
    case wake =>
      intro t src id b hs hb
      subst hb
      refine ⟨fun hcmd => run_put ?_, fun hcmd => run_put ?_⟩
      all_goals simp only [hs, hcmd]
    case pin =>
      intro rested b hdriven hignored hb
      subst hb
      have hgo : (s.blk.pins.wakeDriven || (s.blk.pow.wakeIgnored && !rested)) = false := by
        rcases hignored with h | h
        all_goals simp only [hdriven, h, Bool.false_and, Bool.not_true, Bool.and_false, Bool.or_false]
      have hasleep : (!s.blk.isAwake) = decide (s.blk.pow.sleep ≠ .awake) := decide_not.symm
      refine run_put ((if_neg (Bool.eq_false_iff.mp hgo)).trans ?_)
      rw [hasleep]
    case pattern =>
      intro m hasleep
      exact run_put (congrArg (Block.wakeBy 3 7 m) (if_pos hasleep))
    case d3 =>
      intro b hb hawake hready hbar
      subst hb
      have hgo : (!s.blk.isAwake || !s.blk.isReady) = false := by
        rw [hawake, hready]
        rfl
      refine run_put ((if_neg (Bool.eq_false_iff.mp hgo)).trans ?_)
      have hbar' : Block.sleepBar { s.blk with host.d3hot := true } 2 none = none := hbar
      simp only [hbar']

end Sys2Proof.Machine
end

section
/-!
PROOFS. Tally units (R456, R457); sessions, attestation, key rotation and debug unlock (R413 to R422). The refusal of a debug
level with DEBUG_LOCKED is log entry 121.
-/

namespace Sys2Proof.Machine

variable {b : Block} {c : Cmd}

/-! ### Tally units -/

/-- A unit's configuration that no condition refuses. -/
theorem startCsuCfg_right {i : Nat} {on : Bool} {u u1 u2 : Csu} (hi : i = c.pkt.f 511 507) (hu : u = b.csu.get Csu.zero i)
    (hon : on = bit c.pkt.pnum 506) (hoff : on = false ∨ u.enable = false) (hkind : c.pkt.f 505 502 < 8) (hpoly : c.pkt.f 493 492 ≠ 3)
    (hpend : on = true ∨ u.pend = [])
    (hu1 : u1 = { u with
      enable := on, kind := c.pkt.f 505 502, index := c.pkt.f 501 494, poly := c.pkt.f 493 492, lo := c.pkt.f 491 440,
      hi := c.pkt.f 439 388, limit := c.pkt.f 387 348, expect := c.pkt.f 347 284, matchCtr := c.pkt.f 283 271,
      missCtr := c.pkt.f 270 258, sigEn := bit c.pkt.pnum 257 })
    (hu2 : u2 = if bit c.pkt.pnum 256 then
        { u1 with state := polyInit u1.poly, bytes := 0, done := false, latched := 0, discarded := 0 } else u1) :
    b.startCsuCfg c = ({ b with csu := b.csu.set Csu.zero i u2 } : Block).done c 0 := by
  have hfree : ¬ (on && u.enable) = true := by
    rcases hoff with h | h
    all_goals simp only [h, Bool.false_and, Bool.and_false, Bool.false_eq_true, not_false_eq_true]
  have hfields : ¬ (8 ≤ c.pkt.f 505 502 ∨ c.pkt.f 493 492 = 3) := not_or.mpr ⟨Nat.not_le.mpr hkind, hpoly⟩
  have hwhole : (on || u.pend.isEmpty) = true := by
    rcases hpend with h | h
    all_goals simp only [h, Bool.true_or, List.isEmpty_nil, Bool.or_true]
  subst hi hu hon hu1 hu2
  exact (if_neg hfree).trans ((if_neg hfields).trans
    (congrArg (fun u => Block.done c 0 { b with csu := b.csu.set Csu.zero (c.pkt.f 511 507) u }) (if_pos hwhole)))

theorem startCsuRead_right {bs : List Byte}
    (hbs : bs = ((maskList 32 (c.pkt.f 75 44)).map (fun i => (b.csu.get Csu.zero i).image i)).flatten)
    (hrsp : rspStatus (c.pkt.f 127 76) bs.length = none) : b.startCsuRead c = b.respond c (c.pkt.f 127 76) bs 0 0 := by
  simp only [Block.startCsuRead, ← hbs, hrsp]

theorem startCsuWrite_right {i : Nat} {u u1 : Csu} (hi : i = c.pkt.f 127 123) (hu : u = b.csu.get Csu.zero i)
    (hoff : u.enable = false) (hpend : u.pend = [])
    (hu1 : u1 = { u with state := c.pkt.f 255 192, bytes := c.pkt.f 191 128, done := false, latched := 0 }) :
    b.startCsuWrite c = ({ b with csu := b.csu.set Csu.zero i u1 } : Block).done c 0 := by
  have hempty : ¬ (!u.pend.isEmpty) = true := by
    rw [hpend]
    exact Bool.false_ne_true
  subst hi hu hu1
  exact (if_neg (Bool.eq_false_iff.mp hoff)).trans (if_neg hempty)

/-- Settles O50: the three commands on a unit that their conditions allow. -/
theorem tallyCommandsComplete : Obligations.TallyCommandsComplete := by
  unfold Obligations.TallyCommandsComplete
  intro s p c b1 hentry
  have hop : ∀ {n}, p.opcode = n → c.pkt.opcode = n := fun h => (packetEntry_opcode hentry).trans h
  refine ⟨?cfg, ?read, ?write⟩
  case cfg =>
    intro ho f i u on hoff hkind hpoly hpend u1 hu1 u2
    exact packet_next hentry ho rfl (by decide)
      ((engineStart_csuCfg b1 (hop ho)).trans (startCsuCfg_right rfl rfl rfl hoff hkind hpoly hpend hu1 rfl))
  case read =>
    intro bs ho hbs hrsp
    exact packet_next hentry ho rfl (by decide) ((engineStart_csuRead b1 (hop ho)).trans (startCsuRead_right hbs hrsp))
  case write =>
    intro ho i u u1 hoff hpend hu1
    exact packet_next hentry ho rfl (by decide)
      ((engineStart_csuWrite b1 (hop ho)).trans (startCsuWrite_right rfl rfl hoff hpend hu1))

/-! ### Sessions and attestation -/

/-- A SESSION_OPEN that its owner signed: fresh ephemeral key and nonce, the session under their keys, the signed answer. -/
theorem startSessionOpen_signed {e n prk da : Nat} {b2 b3 b4 b5 : Block} {lms msg num head ownerEph ownerNonce : List Byte}
    (hbar : b.sessionBar c.pkt = none) (hda : da = c.pkt.f 127 76 * 0x1000) (hrsp : rspStatus da 5852 = none)
    (he : b.draw 384 = (e, b2)) (hn : b2.draw 256 = (n, b3)) (heph : ownerEph = (c.pkt.params.drop 0x40).take 96)
    (hnonce : ownerNonce = (c.pkt.params.drop 0x20).take 32) (hnum : num = leBytes 2 (c.pkt.f 47 32))
    (hhead : head = fit 96 (Config.ecdsaPub e) ++ leBytes 32 n ++ num ++ zeros 6) (hmsg : msg = head ++ ownerEph ++ ownerNonce)
    (hlms : b3.pbSign msg = (lms, b4)) (hprk : prk = Config.hkdfExtract (ownerNonce ++ leBytes 32 n) (Config.ecdhX e ownerEph))
    (hb5 : b5 = { b4 with trust.sessions := b4.trust.sessions ++ [{
        num := c.pkt.f 47 32, key := Config.hkdfExpand prk (ascii "A9 seal" ++ num) 32,
        salt := Config.hkdfExpand prk (ascii "A9 salt" ++ num) 4, last := 0, fails := 0 }] }) :
    b.startSessionOpen c = b5.respond c da
      (head ++ deviceSign msg ++ lms ++ fit 2784 b5.trust.pbCert ++ leBytes 48 (Config.sha384 c.pkt.params) ++ zeros 280) 0 5852 := by
  subst hb5 hprk hmsg hhead hnum heph hnonce hda
  simp only [Block.startSessionOpen, hbar, hrsp, he, hn, hlms]

theorem startSessionClose_own (hseal : c.sealedOk.isSome = true) (hnum : c.pkt.session = c.pkt.f 15 0) :
    c.closesOwn = true ∧ b.startSessionClose c = b.done c 0 := by
  have hown : c.closesOwn = true := by
    rw [Cmd.closesOwn, hseal, decide_eq_true hnum]
    rfl
  exact ⟨hown, if_pos hown⟩

theorem session_closeSession (n : Nat) (b : Block) : (b.closeSession n).session n = none := by
  rw [Block.session, List.find?_eq_none]
  intro x hx
  rw [decide_eq_true_eq]
  exact of_decide_eq_true (List.mem_filter.mp hx).2

/-- A SESSION_CLOSE sealed in its own session has closed it at its validation. -/
theorem session_of_closed {p : Packet} {b1 : Block} (h : b.packetEntry p = some (c, b1)) (ho : p.opcode = 0x0C01)
    (hown : c.closesOwn = true) (hnum : c.pkt.session = c.pkt.f 15 0) : b1.session (c.pkt.f 15 0) = none := by
  obtain ⟨b0, m, rfl, -⟩ := packetEntry_atValidation h
  have hop : c.pkt.opcode = 0x0C01 := (packetEntry_opcode h).trans ho
  have hv : b0.atValidation c = b0.closeSession (c.pkt.f 15 0) := by
    rw [Block.atValidation, hop, if_neg (by decide), hown, ← hnum]
    rfl
  rw [hv]
  exact session_closeSession _ b0

/-- A report with a leaf left for it. -/
theorem startAttest_signed {da : Nat} {head lms : List Byte} {b2 : Block} (hda : da = c.pkt.f 307 256) (halign : da % 64 = 0)
    (hrsp : rspStatus da 5796 = none) (hleaf : 0 < b.trust.bootLeft) (hhead : head = b.reportHead (c.pkt.params.take 32))
    (hlms : b.pbSign head = (lms, b2)) :
    b.startAttest c = b2.respond c da (head ++ deviceSign head ++ lms ++ fit 2784 b.trust.pbCert) 0 5796 := by
  subst hda
  simp only [Block.startAttest, if_neg (not_not.mpr halign), hrsp, if_neg (Nat.pos_iff_ne_zero.mp hleaf), ← hhead, hlms]

/-! ### KEY_ROTATE and DEBUG_UNLOCK -/

theorem rotateDomain_below {d k : Nat} {b2 : Block} {w : Walk} (hd : d = c.pkt.f 123 120) (hlt : d < 15) (hk : b.draw 512 = (k, b2))
    (hw : w = { domain := d, cmd := c.id, touches := [d], pos := 0, last := pageOf hbmTop, gran := 0, move := none,
                old := some ((b2.trust.domainKeys.get none d).getD 0) }) :
    b.rotateDomain c = { b2 with
      trust.domainKeys := b2.trust.domainKeys.set none d (some k), mem.walks := b2.mem.walks ++ [w] } := by
  subst hd
  simp only [Block.rotateDomain, if_neg (Nat.ne_of_lt hlt), hk, ← hw]

/-- The ports that a KEY_ROTATE names and that can change their key. -/
def Block.rotating (b : Block) (c : Cmd) : List Nat :=
  (maskList 8 (c.pkt.f 119 112)).filter (fun m => (b.port m).st.isUp && (b.port m).txKey.isSome && !(b.port m).failed)

/-- With no job secret, or no port that can, the command completes at once. -/
theorem rotatePorts_none (h : b.trust.prk = none ∨ b.rotating c = []) : b.rotatePorts c = b.done c 0 := by
  unfold Block.rotatePorts
  split
  case h_1 => rfl
  case h_2 prk hprk =>
    have hms : b.rotating c = [] := h.resolve_left (fun h => by cases h.symm.trans hprk)
    have hgo : (b.rotating c).isEmpty = true := by rw [hms]; rfl
    exact if_pos hgo

/-- The ports that can, and none of which changes its key already, each send KEYCHG. -/
theorem rotatePorts_sent {prk : Nat} (hprk : b.trust.prk = some prk) (hms : b.rotating c ≠ [])
    (hidle : ∀ m ∈ b.rotating c, (b.port m).keyCmd = none) : b.rotatePorts c =
      (b.rotating c).foldl (fun (b : Block) m =>
        let r := b.draw 256
        let k := portKey prk Config.deviceId (b.port m).peerId (leBytes 32 r.1)
        (r.2.onPort m (fun x => { x with txNext := some k, keyCmd := some c.id })).queueLocal m 4 r.1 2)
        (b.setWork c.id (.await 8 0 0 0)) := by
  have hsome : ¬ (b.rotating c).isEmpty = true := fun h => hms (List.isEmpty_iff.mp h)
  have hfree : ¬ (b.rotating c).any (fun m => (b.port m).keyCmd.isSome) = true := by
    rw [List.any_eq_true]
    rintro ⟨m, hm, h⟩
    rw [hidle m hm] at h
    cases h
  unfold Block.rotatePorts
  split
  case h_1 h => cases h.symm.trans hprk
  case h_2 k hk =>
    obtain rfl : prk = k := Option.some.inj (hprk.symm.trans hk)
    exact (if_neg hsome).trans (if_neg hfree)

theorem startKeyRotate_domain (h : c.pkt.f 127 124 = 0) : b.startKeyRotate c = b.rotateDomain c := by
  rw [Block.startKeyRotate, h]
  rfl
theorem startKeyRotate_ports (h : c.pkt.f 127 124 = 1) : b.startKeyRotate c = b.rotatePorts c := by
  rw [Block.startKeyRotate, h]
  rfl
theorem startKeyRotate_secret (h : c.pkt.f 127 124 = 2) : b.startKeyRotate c = b.rotateSecret c := by
  rw [Block.startKeyRotate, h]
  rfl

theorem rotateSecret_next {g : Nat} {b2 : Block} (hg : g = if b.trust.secretSet then b.trust.generation + 1 else 1)
    (hb2 : b2 = { b with trust := { b.trust with
      prkPrev := b.trust.prk, prk := some (jobPrk b.trust.job g (leBytes 48 (c.pkt.f 511 128))), generation := g, secretSet := true } }) :
    b.rotateSecret c = b2.retrainPorts.done c (g % 2 ^ 32 * 2 ^ 32) := by
  simp only [Block.rotateSecret, ← hg, ← hb2]

/-- Every DEBUG_UNLOCK draws the nonce anew; one whose grant verifies, for a level that is allowed, raises the level. -/
theorem startDebugUnlock_eq {n l : Nat} {b2 b3 : Block} (hn : b.draw 256 = (n, b2)) (hb3 : b3 = { b2 with trust.debugNonce := n })
    (hl : l = oField (oBody c.pkt.params) 0 1) : b.startDebugUnlock c =
      if b.grantOk c.pkt.params && b.levelOk l then
        ({ b3 with trust.debugLevel := Nat.max b3.trust.debugLevel l } : Block).done c 0
      else b3.refuse c Status.debugLocked 0 := by
  subst hb3 hl
  simp only [Block.startDebugUnlock, hn]

/-- Settles O51: one case per command, KEY_ROTATE by its TARGET. -/
theorem trustCommandsComplete : Obligations.TrustCommandsComplete := by
  unfold Obligations.TrustCommandsComplete
  intro s p c b1 hentry
  have hop : ∀ {n}, p.opcode = n → c.pkt.opcode = n := fun h => (packetEntry_opcode hentry).trans h
  refine ⟨?sessionOpen, ?sessionClose, ?attest, ?domain, ?ports, ?secret, ?debug⟩
  case sessionOpen =>
    intro e n b2 b3 b4 lms msg num ho hbar hrsp he hn ownerEph ownerNonce head hnum hmsg hlms prk hprk b5 hb5
    exact packet_next hentry ho rfl (by decide) ((engineStart_sessionOpen b1 (hop ho)).trans
      (startSessionOpen_signed hbar rfl hrsp he hn rfl rfl hnum rfl hmsg hlms hprk hb5))
  case sessionClose =>
    intro ho hseal hnum
    obtain ⟨hown, hstart⟩ := startSessionClose_own (b := b1) hseal hnum
    exact ⟨packet_next hentry ho rfl (by decide) ((engineStart_sessionClose b1 (hop ho)).trans hstart),
      session_of_closed hentry ho hown hnum⟩
  case attest =>
    intro head lms b2 ho halign hrsp hleaf hhead hlms
    exact packet_next hentry ho rfl (by decide) ((engineStart_attest b1 (hop ho)).trans
      (startAttest_signed rfl halign hrsp hleaf hhead hlms))
  case domain =>
    intro k b2 w ho htarget hlt hk hw
    exact packet_next hentry ho (decide_eq_true htarget) (by decide) ((engineStart_keyRotate b1 (hop ho)).trans
      ((startKeyRotate_domain htarget).trans (rotateDomain_below rfl hlt hk hw)))
  case ports =>
    intro ms ho htarget hms
    have hms' : ms = b1.rotating c := hms
    subst hms'
    refine ⟨fun h => ?_, fun prk hprk hne hidle => ?_⟩
    · exact packet_next hentry ho (decide_eq_true htarget) (by decide) ((engineStart_keyRotate b1 (hop ho)).trans
        ((startKeyRotate_ports htarget).trans (rotatePorts_none h)))
    · exact packet_next hentry ho (decide_eq_true htarget) (by decide) ((engineStart_keyRotate b1 (hop ho)).trans
        ((startKeyRotate_ports htarget).trans (rotatePorts_sent hprk hne hidle)))
  case secret =>
    intro g b2 ho htarget hg hb2
    exact packet_next hentry ho (decide_eq_true htarget) (by decide) ((engineStart_keyRotate b1 (hop ho)).trans
      ((startKeyRotate_secret htarget).trans (rotateSecret_next hg hb2)))
  case debug =>
    intro n l b2 b3 ho hn hb3 hl
    have hstart := (engineStart_debugUnlock b1 (hop ho)).trans (startDebugUnlock_eq hn hb3 hl)
    refine ⟨fun hgrant hlevel => ?_, fun h => ?_⟩
    · exact packet_next hentry ho rfl (by decide) (hstart.trans (if_pos (by rw [hgrant, hlevel]; rfl)))
    · refine packet_next hentry ho rfl (by decide) (hstart.trans (if_neg ?_))
      rw [Bool.and_eq_true, not_and_or, Bool.not_eq_true, Bool.not_eq_true]
      exact h

end Sys2Proof.Machine
end

section
/-!
PROOFS. A trust failure (R423): what ending commands and entering Shutter leave of the start-up phase, and the keys and sessions
that are gone. PHASE TRUST_FAILED at run time is log entry 118, from R480 (spec/21).
-/

namespace Sys2Proof.Machine

/-! ### The start-up phase -/

/-- The start-up phase is the same: the end of a command and the entry into Shutter never change it. -/
structure Block.SamePhase (b b' : Block) : Prop where
  phase : b'.boot.phase = b.boot.phase

theorem Block.SamePhase.refl (b : Block) : b.SamePhase b := ⟨rfl⟩
theorem Block.SamePhase.trans {a b c : Block} (h : a.SamePhase b) (k : b.SamePhase c) : a.SamePhase c := ⟨k.phase.trans h.phase⟩
theorem Block.SamePhase.of_eq {a b : Block} (h : b.boot = a.boot) : a.SamePhase b := ⟨congrArg Boot.phase h⟩
theorem Block.SamePhase.onPins {a b : Block} (h : a.SamePhase b) (x : Pins) : a.SamePhase { b with pins := x } := ⟨h.phase⟩
theorem Block.SamePhase.onMer {a b : Block} (h : a.SamePhase b) (x : Merlen) : a.SamePhase { b with mer := x } := ⟨h.phase⟩
theorem Block.SamePhase.onSnap {a b : Block} (h : a.SamePhase b) (x : SnapS) : a.SamePhase { b with snap := x } := ⟨h.phase⟩
theorem Block.Apart.samePhase {a b : Block} (h : a.Apart b) : a.SamePhase b := .of_eq h.boot
theorem samePhase_foldl {α : Type} {f : Block → α → Block} (hf : ∀ (b : Block) x, b.SamePhase (f b x)) :
    ∀ (l : List α) (b : Block), b.SamePhase (l.foldl f b)
  | [], b => .refl b
  | x :: l, b => (hf b x).trans (samePhase_foldl hf l (f b x))

/-- A step taken only under a condition. -/
theorem samePhase_ite {p : Prop} [Decidable p] {b b1 b2 : Block} (h1 : b.SamePhase b1) (h2 : b.SamePhase b2) :
    b.SamePhase (if p then b1 else b2) := by
  split
  · exact h1
  · exact h2

theorem complete_samePhase (c : Cmd) (st d r : Nat) (b : Block) : b.SamePhase (b.complete c st d r) := (complete_apart c st d r b).samePhase
theorem completeId_samePhase (id st d r : Nat) (b : Block) : b.SamePhase (b.completeId id st d r) :=
  (completeId_apart id st d r b).samePhase

/-! ### Memory and the pool -/

theorem unzero_samePhase (da n : Nat) (b : Block) : b.SamePhase (b.unzero da n) := by
  unfold Block.unzero
  refine samePhase_ite (.refl b) (samePhase_foldl (fun b p => ?_) _ b)
  exact samePhase_ite (b2 := b) (.of_eq (setAttr_boot _ _ b)) (.refl b)

theorem markMigrated_samePhase (da n : Nat) (b : Block) : b.SamePhase (b.markMigrated da n) := by
  unfold Block.markMigrated
  split
  · refine samePhase_ite (samePhase_foldl (f := fun b i => _) (fun b i => ?_) _ b) (.refl b)
    dsimp only
    split
    · exact ⟨rfl⟩
    · exact .refl b
  · exact .refl b

theorem memWrite_samePhase (da : Nat) (bs : List Byte) (b : Block) : b.SamePhase (b.memWrite da bs) := by
  have h := (unzero_samePhase da bs.length b).trans (markMigrated_samePhase da bs.length _)
  unfold Block.memWrite
  refine h.trans ?_
  dsimp only
  split <;> split <;> exact ⟨rfl⟩

theorem wr_samePhase (da n v : Nat) (b : Block) : b.SamePhase (b.wr da n v) := memWrite_samePhase _ _ b
theorem onPageE_samePhase (pl : Pool) (p : Nat) (f : PageE → PageE) (b : Block) : b.SamePhase (b.onPageE pl p f) := wr_samePhase _ _ _ b

theorem freePage_samePhase (p : Nat) (b : Block) : b.SamePhase (b.freePage p) := by
  unfold Block.freePage
  split
  case h_1 => exact .refl b
  case h_2 pl _ => exact ((Block.SamePhase.of_eq (free_boot 24 b)).trans (onPageE_samePhase _ _ _ _)).trans (.of_eq (setPool_boot _ _))

theorem unpin_samePhase (p : Nat) (b : Block) : b.SamePhase (b.unpin p) := by
  unfold Block.unpin
  split
  case h_1 => exact .refl b
  case h_2 pl _ => exact samePhase_ite ((wr_samePhase _ _ _ b).trans (freePage_samePhase _ _)) (wr_samePhase _ _ _ b)

theorem dropKvPage_samePhase (p : Nat) (b : Block) : b.SamePhase (b.dropKvPage p) := by
  unfold Block.dropKvPage
  split
  case h_1 => exact .refl b
  case h_2 pl _ => exact (onPageE_samePhase _ _ _ b).trans (freePage_samePhase _ _)

theorem kvRelease_samePhase (c : Cmd) (w : AttnWork) (b : Block) : b.SamePhase (b.kvRelease c w) := by
  unfold Block.kvRelease
  split
  case h_2 => exact .refl b
  case h_1 pl _ _ =>
    dsimp only
    have hfresh := samePhase_foldl (fun b p => onPageE_samePhase pl p (fun e => { e with filling := false }) b) w.fresh b
    have hdone : ∀ b1 : Block, b.SamePhase b1 →
        b.SamePhase (if c.kvAppend then b1.setSeqE pl c.kvSeq { (b1.seqE pl c.kvSeq) with busy := false } else b1) :=
      fun b1 h => samePhase_ite (h.trans (wr_samePhase _ _ _ _)) h
    refine hdone _ (Block.SamePhase.trans ?_ (samePhase_foldl (fun b x => ?_) w.toRegen _))
    · refine Block.SamePhase.trans ?_ (samePhase_foldl (fun b p => unpin_samePhase p b) w.pins _)
      split
      · exact hfresh.trans (unpin_samePhase _ _)
      · exact hfresh
    · exact samePhase_ite (.refl b) (dropKvPage_samePhase x.2 b)

/-! ### Tiles and commands -/

theorem finishOps_samePhase (t : Nat) (b : Block) : b.SamePhase (b.finishOps t) :=
  (Block.SamePhase.of_eq (setTile_boot t _ b)).trans ((Block.SamePhase.of_eq (setTile_boot t _ _)).trans
    (samePhase_foldl (fun b _ => memWrite_samePhase _ _ b) _ _))

theorem haltTiles_samePhase (ts : List Nat) (b : Block) : b.SamePhase (b.haltTiles ts) :=
  samePhase_foldl (fun b t => (finishOps_samePhase t b).trans (.of_eq (onTile_boot t _ _))) ts b

theorem preemptDrop_samePhase (id : Nat) (v : Bool) (b : Block) : b.SamePhase (b.preemptDrop id v) := by
  unfold Block.preemptDrop
  refine samePhase_foldl (fun b c => ?_) _ b
  split
  · exact samePhase_ite (samePhase_ite ((Block.SamePhase.of_eq (setWork_boot _ _ b)).trans (completeId_samePhase _ _ _ _ _))
      (.of_eq (setWork_boot _ _ b))) (.refl b)
  · exact .refl b

theorem regenEnd_samePhase (c : Cmd) (w : RunWork) (n st d r : Nat) (b : Block) : b.SamePhase (b.regenEnd c w n st d r) := by
  have hgone : b.SamePhase { b with mer.running := b.mer.running.filter (fun x => x.id ≠ c.id) } := ⟨rfl⟩
  unfold Block.regenEnd
  dsimp only
  split
  · exact hgone
  · split
    · have hheld := hgone.trans (samePhase_foldl
        (f := fun (b : Block) t => b.onTile t (fun x => { x with held := some n, halted := false }))
        (fun b t => .of_eq (onTile_boot t _ b)) w.tiles _)
      split
      · refine Block.SamePhase.trans ?_ (.of_eq (setCmd_boot _ _))
        split
        · exact hheld.trans (onPageE_samePhase _ _ _ _)
        · exact hheld
      · exact hheld.trans (.of_eq (setCmd_boot _ _))
    · exact hgone

theorem endRun_samePhase (id st d r : Nat) (b : Block) : b.SamePhase (b.endRun id st d r) := by
  unfold Block.endRun
  split
  · split
    · dsimp only
      split
      · exact (haltTiles_samePhase _ b).trans (regenEnd_samePhase _ _ _ _ _ _ _)
      · exact ((haltTiles_samePhase _ b).trans (complete_samePhase _ _ _ _ _)).trans (preemptDrop_samePhase _ _ _)
    · exact complete_samePhase _ _ _ _ b
  · exact .refl b

theorem haltCmd_samePhase (id st : Nat) (b : Block) : b.SamePhase (b.haltCmd id st) := by
  unfold Block.haltCmd
  split
  · exact .refl b
  · split
    · exact endRun_samePhase _ _ _ _ b
    · exact (haltTiles_samePhase _ b).trans (completeId_samePhase _ _ _ _ _)
    · refine (Block.SamePhase.trans ?_ (kvRelease_samePhase _ _ _)).trans (completeId_samePhase _ _ _ _ _)
      exact ⟨(haltTiles_samePhase _ b).phase⟩
    · refine Block.SamePhase.trans ?_ (completeId_samePhase _ _ _ _ _)
      exact ⟨rfl⟩
    · exact completeId_samePhase _ _ _ _ b

theorem haltWhere_samePhase (p : Cmd → Bool) (st : Nat) (b : Block) : b.SamePhase (b.haltWhere p st) :=
  samePhase_foldl (fun b (c : Cmd) => haltCmd_samePhase c.id st b) _ b

/-! ### Shutter -/

theorem setCsu_samePhase (i : Nat) (u : Csu) (b : Block) : b.SamePhase (b.setCsu i u) := by
  unfold Block.setCsu
  exact samePhase_ite ⟨rfl⟩ ⟨rfl⟩

theorem reap_samePhase (b : Block) : b.SamePhase b.reap := by
  unfold Block.reap Block.onCsu
  dsimp only
  refine Block.SamePhase.trans ?_ (samePhase_foldl (fun b e => samePhase_ite (setCsu_samePhase _ _ b) (.refl b)) _ _)
  exact ⟨rfl⟩

theorem abortHeld_samePhase (n st : Nat) (b : Block) : b.SamePhase (b.abortHeld n st) := by
  unfold Block.abortHeld
  exact Block.SamePhase.trans (.of_eq (setRing_boot n _ b)) (samePhase_foldl (fun b (c : Cmd) => complete_samePhase c st 0 0 b) _ _)

theorem abortAllHeld_samePhase (st : Nat) (b : Block) : b.SamePhase (b.abortAllHeld st) := by
  unfold Block.abortAllHeld
  have hrings := samePhase_foldl (f := fun (b : Block) (e : Nat × Ring) => b.abortHeld e.1 st) (fun b e => abortHeld_samePhase e.1 st b)
    b.mer.rings b
  dsimp only
  exact (hrings.onMer _).trans (samePhase_foldl (fun b (c : Cmd) => complete_samePhase c st 0 0 b) _ _)

theorem shutterActions_samePhase (b : Block) : b.SamePhase b.shutterActions := by
  unfold Block.shutterActions
  exact (((haltWhere_samePhase _ _ b).trans (haltWhere_samePhase _ _ _)).trans (haltWhere_samePhase _ _ _)).trans
    ((abortAllHeld_samePhase _ _).trans (reap_samePhase _))

theorem wakeBy_samePhase (src unit index : Nat) (b : Block) : b.SamePhase (b.wakeBy src unit index) := by
  unfold Block.wakeBy
  split
  · exact samePhase_ite ⟨rfl⟩ (.refl b)
  · split
    · exact .refl b
    · exact .refl b
    · refine samePhase_ite (samePhase_ite ⟨rfl⟩ (.refl b)) ?_
      unfold Block.abortSleep
      dsimp only
      split
      · refine Block.SamePhase.trans ?_ (completeId_samePhase _ _ _ _ _)
        exact ⟨rfl⟩
      · exact ⟨rfl⟩
    · exact ⟨rfl⟩

theorem latchCause_samePhase (k st : Nat) (b : Block) : b.SamePhase (b.latchCause k st) := by
  unfold Block.latchCause
  dsimp only
  have hlog : ∀ b1 : Block, b.SamePhase b1 → b.SamePhase (b1.logState st 0) := fun b1 h => h.trans (logState_apart st 0 b1).samePhase
  have hclear : ∀ b1 : Block, b.SamePhase b1 →
      b.SamePhase (if k = 0 ∨ k = 1 ∨ k = 3 then { b1 with shut.active := setBit b1.shut.active k false } else b1) :=
    fun b1 h => samePhase_ite ⟨h.phase⟩ h
  have hwake := (hclear _ (hlog { b with
    shut := { shut := true, active := setBit b.shut.active k true, seen := setBit b.shut.seen k true } } ⟨rfl⟩)).trans
    (wakeBy_samePhase 6 10 1 _)
  split
  · exact (hwake.trans (shutterActions_samePhase _)).onPins _
  · exact hwake

/-! ### Giving up a cut -/

/-- Giving up a cut changes the page attributes, the snapshot engine and the records of the SNAP_DRAINs that wait. -/
theorem abandonCut_keeps (b : Block) : b.abandonCut.trust = b.trust ∧ b.SamePhase b.abandonCut := by
  have hwp : ∀ (l : List Nat) (b : Block), (l.foldl (fun b g => b.clearWp g) b).trust = b.trust ∧
      b.SamePhase (l.foldl (fun b g => b.clearWp g) b) := by
    intro l
    induction l with
    | nil => exact fun b => ⟨rfl, .refl b⟩
    | cons g l ih =>
      intro b
      have hg : (b.clearWp g).trust = b.trust ∧ b.SamePhase (b.clearWp g) := by
        unfold Block.clearWp
        dsimp only
        split
        · exact ⟨setAttr_trust _ _ b, .of_eq (setAttr_boot _ _ b)⟩
        · exact ⟨rfl, .refl b⟩
      exact ⟨(ih _).1.trans hg.1, hg.2.trans (ih _).2⟩
  have hends : ∀ (l : List Cmd) (b : Block), b.Apart (l.foldl (fun b c => b.completeId c.id Status.badParam 0 0) b) :=
    apart_foldl _ (fun b c => completeId_apart c.id Status.badParam 0 0 b)
  unfold Block.abandonCut
  split
  · exact ⟨rfl, .refl b⟩
  · dsimp only
    obtain ⟨htrust, hphase⟩ := hwp (b.snap.regions.map b.snapPageList).flatten b
    exact ⟨(hends _ _).trust.trans htrust, (hphase.onSnap _).trans (hends _ _).samePhase⟩

/-! ### The failure -/

/-- The trust engine after a failure: no secret, key or session but domain 15's. -/
structure Trust.Destroyed (t : Trust) : Prop where
  prk : t.prk = none
  prkPrev : t.prkPrev = none
  tierKey : t.tierKey = none
  secret : t.secretSet = false
  sessions : t.sessions = []
  bootSeed : t.bootSeed = none
  bootState : t.bootState = 4
  domains : ∀ e ∈ t.domainKeys, e.1 = 15

theorem tdispError_trust (b : Block) : b.tdispError.trust = b.trust := by
  unfold Block.tdispError
  split <;> rfl

/-- A trust failure destroys the keys and the sessions, and takes the start-up phase to TRUST_FAILED. -/
theorem trustFailure_destroys (b : Block) : b.trustFailure.trust.Destroyed ∧ b.trustFailure.boot.phase = .trustFailed := by
  have hend : ∀ b1 : Block, b1.trust.Destroyed ∧ b1.boot.phase = .trustFailed →
      let cut := b1.snap.st = SnapState.opened || b1.snap.st = SnapState.stalled
      let b2 := if cut then b1.abandonCut.snapError Status.trustFail 0 0 b1.snap.cut else b1
      let b3 := (b2.haltWhere (fun c => c.pkt.opcode = 0x0B01) Status.inShutter).latchCause 2 Status.trustFail
      b3.trust.Destroyed ∧ b3.boot.phase = .trustFailed := by
    rintro b1 ⟨hdestroyed, hphase⟩ cut b2 b3
    have hcut : b2.trust = b1.trust ∧ b1.SamePhase b2 := by
      obtain ⟨htrust, hsame⟩ := abandonCut_keeps b1
      have hlog := logError_apart Status.trustFail 9 0 0 b1.snap.cut b1.abandonCut
      dsimp only [b2]
      split
      · exact ⟨hlog.trust.trans htrust, hsame.trans hlog.samePhase⟩
      · exact ⟨rfl, .refl b1⟩
    have hsteady := (haltWhere_steady (fun c => c.pkt.opcode = 0x0B01) Status.inShutter b2).trans
      (latchCause_steady 2 Status.trustFail _)
    have hsame := (hcut.2.trans (haltWhere_samePhase (fun c => c.pkt.opcode = 0x0B01) Status.inShutter b2)).trans
      (latchCause_samePhase 2 Status.trustFail _)
    rw [show b3.trust = b1.trust from hsteady.trust.trans hcut.1]
    exact ⟨hdestroyed, hsame.phase.trans hphase⟩
  have htimed : (if b.dropKeys.tdispError.boot.phase = .trustFailed then b.dropKeys.tdispError
      else { (b.dropKeys.tdispError.free 32).2 with boot.timeUs := (b.dropKeys.tdispError.free 32).1 }).trust = b.dropKeys.trust := by
    refine Eq.trans ?_ (tdispError_trust b.dropKeys)
    split
    · rfl
    · exact free_trust 32 _
  refine hend _ ⟨⟨congrArg Trust.prk htimed, congrArg Trust.prkPrev htimed, congrArg Trust.tierKey htimed,
    congrArg Trust.secretSet htimed, congrArg Trust.sessions htimed, rfl, rfl, fun e he => ?_⟩, rfl⟩
  have hkept : e ∈ b.dropKeys.trust.domainKeys := congrArg Trust.domainKeys htimed ▸ he
  exact of_decide_eq_true (List.mem_filter.mp hkept).2

/-- Settles O52: a failure leaves what `trustFailure_destroys` says; a failed test with the hub up is one, a passed one nothing. -/
theorem trustFailureDestroysKeys : Obligations.TrustFailureDestroysKeys := by
  unfold Obligations.TrustFailureDestroysKeys
  intro s
  obtain ⟨hdestroyed, hphase⟩ := trustFailure_destroys s.blk
  refine ⟨⟨_, run_put rfl, rfl, hdestroyed.prk, hdestroyed.prkPrev, hdestroyed.tierKey, hdestroyed.secret, hdestroyed.sessions,
    hdestroyed.bootSeed, hdestroyed.bootState, hphase, hdestroyed.domains⟩, fun hup => ?_, run_self rfl⟩
  have hgo : ¬ (false || !s.blk.hubUp) = true := by
    rw [hup]
    exact Bool.false_ne_true
  exact run_put (if_neg hgo)

end Sys2Proof.Machine
end

section
/-!
PROOFS. What the host writes and reads over PCIe (R9, R38 to R43, R61, R307, R426 to R433, R448, R449, R465): ring registers, log and
MSI-X registers, register writes, the ring window and the aperture. That an ENABLE of a wrong configuration sets ERR is log entry 23.
-/

namespace Sys2Proof.Machine

variable {b : Block}

/-! ### Rings -/

/-- ENABLE of a disabled, idle ring with sizes in range. -/
theorem ringEnable_right {n v : Nat} {cfg : RingCfg} (hoff : (b.ring n).enable = false) (hcfg : cfg = (b.ring n).cfg.put v)
    (hs : cfg.ssize < 7) (hc : cfg.csize < 7) (hidle : b.ringIdle n = true) :
    b.ringEnable n v = b.setRing n { b.ring n with
      cfg := cfg, enable := true, latched := cfg, stopped := false, subTail := 0, subHead := 0, cplTail := 0, cplHead := 0,
      phase := true, fetched := 0, asked := 0, buf := [] } := by
  have hgo : ¬ (7 ≤ cfg.ssize ∨ 7 ≤ cfg.csize ∨ (!b.ringIdle n) = true) := by
    rw [hidle]
    exact not_or.mpr ⟨Nat.not_le.mpr hs, not_or.mpr ⟨Nat.not_le.mpr hc, Bool.false_ne_true⟩⟩
  subst hcfg
  exact (if_neg (Bool.eq_false_iff.mp hoff)).trans (if_neg hgo)

theorem ringDisable_enabled {n : Nat} {b1 : Block} (hon : (b.ring n).enable = true)
    (hb1 : b1 = { b with host.reqs := b.host.reqs.filter (fun r => match r.2 with | .slots m _ _ => m ≠ n | _ => true) }) :
    b.ringDisable n = ((b1.setRing n { b.ring n with enable := false, asked := 0 }).haltWhere
      (fun c => c.pkt.src = .ring n && (match c.work with | .syncWait _ _ _ => true | _ => false))
      Status.ringDisabled).abortHeld n Status.ringDisabled := by
  have hgo : ¬ (!(b.ring n).enable) = true := by
    rw [hon]
    exact Bool.false_ne_true
  subst hb1
  exact if_neg hgo

theorem subTail_enabled {n v : Nat} (hon : (b.ring n).enable = true) :
    b.subTail n v = if (b.ring n).subSize ≤ v % 4096 then b.ringError n Status.badParam
      else (b.setRing n { b.ring n with subTail := v % 4096 }).fetchSlots n := by
  have hgo : ¬ (!(b.ring n).enable) = true := by
    rw [hon]
    exact Bool.false_ne_true
  exact if_neg hgo

theorem cplHeadWrite_enabled {n v : Nat} (hon : (b.ring n).enable = true) :
    b.cplHeadWrite n v = if (b.ring n).cplSize ≤ v % 4096 then b.ringError n Status.badParam
      else (b.setRing n { b.ring n with cplHead := v % 4096 }).flushTileFailed := by
  have hgo : ¬ (!(b.ring n).enable) = true := by
    rw [hon]
    exact Bool.false_ne_true
  exact if_neg hgo

/-- Settles O53: ENABLE and its withdrawal, and both doorbells on either side of the ring's size. -/
theorem ringRegisterWrites : Obligations.RingRegisterWrites := by
  unfold Obligations.RingRegisterWrites
  intro s n v hlink hawake hready r
  refine ⟨?enable, ?disable, fun hon => ⟨fun h => ?tailIn, fun h => ?tailOut, fun h => ?headIn, fun h => ?headOut⟩⟩
  case enable =>
    intro cfg hv hoff hcfg hs hc hidle
    have hgo : (s.blk.boot.ready && bit v 31) = true := by
      rw [hready, hv]
      rfl
    exact run_onTlp hlink hawake ((if_pos hgo).trans (ringEnable_right hoff hcfg hs hc hidle))
  case disable =>
    intro b1 hon hb1
    exact run_onTlp hlink hawake ((if_pos hready).trans (ringDisable_enabled hon hb1))
  case tailIn => exact run_onTlp hlink hawake ((if_pos hready).trans ((subTail_enabled hon).trans (if_neg (Nat.not_le.mpr h))))
  case tailOut => exact run_onTlp hlink hawake ((if_pos hready).trans ((subTail_enabled hon).trans (if_pos h)))
  case headIn => exact run_onTlp hlink hawake ((if_pos hready).trans ((cplHeadWrite_enabled hon).trans (if_neg (Nat.not_le.mpr h))))
  case headOut => exact run_onTlp hlink hawake ((if_pos hready).trans ((cplHeadWrite_enabled hon).trans (if_pos h)))

/-! ### Log, MSI-X and configuration -/

/-- LOG_ACK within what the log holds. -/
theorem logAck_held {v : Nat} {e : LogEntry} {es : List LogEntry} (hlog : b.log.oldestFirst = e :: es)
    (hold : 0 ≤ sx 32 (v + 2 ^ 32 - (e.seq + 2 ^ 32 - 1) % 2 ^ 32)) (hnew : 0 ≤ sx 32 (b.log.newest + 2 ^ 32 - v)) :
    b.logAck v = Block.refreshAlert { b with log.ack := v } := by
  have holdest : ((b.log.oldestFirst.head?).map (fun e => e.seq)).getD 0 = e.seq := by rw [hlog]; rfl
  unfold Block.logAck
  simp only [holdest, decide_eq_true hold, decide_eq_true hnew, Bool.and_self, if_true]

theorem tdispError_unlocked (h : b.host.tdisp = .unlocked) : b.tdispError = b := by
  rw [Block.tdispError, h]
  exact if_neg (by decide)

theorem cfgChange_unlocked {changed : Bool} {f : HostIf → HostIf} (h : b.host.tdisp = .unlocked) :
    b.cfgChange changed f = { b with host := f b.host } := by
  have hkept : (if changed then b.tdispError else b) = b := by rw [tdispError_unlocked h, ite_self]
  simp only [Block.cfgChange, hkept]

/-- The lower half of BAR2's base, by the bits of its size. -/
theorem configWrite_bar2 (h : b.host.tdisp = .unlocked) (v : Nat) :
    b.configWrite (.bar 2) v = { b with host.bar2 := putHalf b.host.bar2 0 v / 2 ^ 25 * 2 ^ 25 } := by
  rw [Block.configWrite]
  simp only [Nat.lt_irrefl, if_false, Nat.reduceLT, if_true]
  exact cfgChange_unlocked h

theorem configWrite_command (h : b.host.tdisp = .unlocked) (v : Nat) :
    b.configWrite .command v = { b with host.memEnable := bit v 1, host.busMaster := bit v 2 } := by
  rw [Block.configWrite, cfgChange_unlocked h]

/-! ### BAR0 -/

theorem bar0Write_word {off v : Nat} (h : off % 4 = 0) : b.bar0Write off 4 v = b.regWrite off (v % 2 ^ 32) := if_pos ⟨rfl, h⟩

theorem bar0Write_halves {off v : Nat} (h : off % 8 = 0) (hload : off ≠ 0x3018) :
    b.bar0Write off 8 v = (b.regWrite off (v % 2 ^ 32)).regWrite (off + 4) (v / 2 ^ 32 % 2 ^ 32) := by
  have hword : ¬ (8 = 4 ∧ off % 4 = 0) := fun h => absurd h.1 (by decide)
  exact (if_neg hword).trans ((if_neg fun h => hload h.2).trans (if_pos ⟨rfl, h⟩))

theorem bar0Serves_ready (h : b.boot.ready = true) (off : Nat) : b.bar0Serves off = true := by
  rw [Block.bar0Serves, h]
  rfl

/-- The writes of the tier share, the power cap and the aperture's base from READY on. -/
theorem regWrite_share (h : b.boot.ready = true) (v : Nat) : b.regWrite 0x6000 v = { b with tier.share := v % 16 } := by
  unfold Block.regWrite
  rw [bar0Serves_ready h]
  simp
theorem regWrite_cap (h : b.boot.ready = true) (v : Nat) : b.regWrite 0x104 v =
    if 1700 ≤ v % 2 ^ 13 ∧ v % 2 ^ 13 ≤ 4200 then { b with pow.cap := v % 2 ^ 13 } else b := by
  unfold Block.regWrite
  rw [bar0Serves_ready h]
  simp
theorem regWrite_aperture (h : b.boot.ready = true) (v : Nat) : b.regWrite 0x0C v = { b with host.apertureBase := bits v 19 4 } := by
  unfold Block.regWrite
  rw [bar0Serves_ready h]
  simp

/-- Settles O54: the vectors, the log's registers, the configuration, and the registers of BAR0. -/
theorem registerWrites : Obligations.RegisterWrites := by
  unfold Obligations.RegisterWrites
  intro s
  refine ⟨?spacing, fun hlink hawake => ⟨?logAck, ?firstFault, fun htdisp => ⟨?vector, ?function, ?bar, ?command⟩,
    ?sizes, ?registers⟩⟩
  case spacing =>
    intro v hspacing x b hb
    have hgo : ¬ (!(s.blk.host.msix.get Vector128.zero v).spacing) = true := by
      rw [hspacing]
      exact Bool.false_ne_true
    subst hb
    exact run_put (if_neg hgo)
  case logAck => exact fun v e es hlog hold hnew => run_onTlp hlink hawake (logAck_held hlog hold hnew)
  case firstFault => exact fun v hv => run_onTlp hlink hawake (if_pos hv)
  case vector =>
    intro v b hb
    rw [hb]
    exact run_onTlp hlink hawake (congrArg (Block.unmask (some v)) (tdispError_unlocked htdisp))
  case function =>
    intro b hb
    rw [hb]
    exact run_onTlp hlink hawake (congrArg (Block.unmask none) (tdispError_unlocked htdisp))
  case bar => exact fun v => run_onTlp hlink hawake (configWrite_bar2 htdisp v)
  case command => exact fun v => run_onTlp hlink hawake (configWrite_command htdisp v)
  case sizes =>
    exact fun off v => ⟨fun h => run_onTlp hlink hawake (bar0Write_word h),
      fun h hload => run_onTlp hlink hawake (bar0Write_halves h hload)⟩
  case registers =>
    intro v hready
    have hlow : v < 8192 → v % 2 ^ 32 % 2 ^ 13 = v := by omega
    refine ⟨run_onTlp hlink hawake ((bar0Write_word (by decide)).trans (regWrite_share hready _)), fun hlo hhi => ?_, fun hhi hlt => ?_,
      run_onTlp hlink hawake ((bar0Write_word (by decide)).trans (regWrite_aperture hready _))⟩
    · refine run_onTlp hlink hawake ((bar0Write_word (by decide)).trans ((regWrite_cap hready _).trans ?_))
      rw [hlow (by omega), if_pos ⟨hlo, hhi⟩]
    · refine run_onTlp hlink hawake ((bar0Write_word (by decide)).trans ((regWrite_cap hready _).trans ?_))
      rw [hlow hlt, if_neg fun h => absurd h.2 (Nat.not_le.mpr hhi)]

/-! ### The ring window and the aperture -/

theorem unsupported_eq_false {ide : Nat} (hready : b.boot.ready = true) (hide : b.ideTakes ide = true) : b.unsupported ide = false := by
  rw [Block.unsupported, hready, hide]
  rfl

theorem bar2Read_inside {x n ide : Nat} {out : List Byte} {e : Bool} {b1 : Block} (hsup : b.unsupported ide = false)
    (htdisp : b.host.tdisp ≠ .error) (hin : x + n ≤ 0x2000000) (hread : b.daRead (b.alm.ringAreaDa + x) n = (.ok out e, b1)) :
    b.bar2Read x n ide = b1.emit (.readData
      (out.zipIdx.map (fun (e : Byte × Nat) => if windowReserved (x + e.2) then 0 else e.1))) := by
  have hgo : ¬ (decide (b.host.tdisp = .error) || decide (0x2000000 < x + n)) = true := by
    rw [decide_eq_false htdisp, decide_eq_false (Nat.not_lt.mpr hin)]
    exact Bool.false_ne_true
  obtain ⟨read, hdef⟩ : ∃ f, f = Block.daRead := exists_eq
  rw [← hdef] at hread
  simp only [Block.bar2Read, hsup, Bool.false_eq_true, if_false, if_neg hgo, ← hdef, hread]

theorem bar2Write_inside {x ide : Nat} {bs : List Byte} (hsup : b.unsupported ide = false) (htdisp : b.host.tdisp ≠ .error)
    (hin : x + bs.length ≤ 0x2000000) : b.bar2Write x bs ide = b.memWrite (b.alm.ringAreaDa + x) (bs.zipIdx.map (fun (e : Byte × Nat) =>
      if windowReserved (x + e.2) then b.mem.bytes.get 0 (b.alm.ringAreaDa + x + e.2) else e.1)) := by
  have hgo : ¬ (b.unsupported ide || decide (b.host.tdisp = .error) || decide (0x2000000 < x + bs.length)) = true := by
    rw [hsup, decide_eq_false htdisp, decide_eq_false (Nat.not_lt.mpr hin)]
    exact Bool.false_ne_true
  exact if_neg hgo

theorem bar4Read_let {x n ide : Nat} {out : List Byte} {e : Bool} {b1 : Block} (hsup : b.unsupported ide = false)
    (hbar : b.bar4Bar (b.bar4Da x) n false = none) (hwait : b.readWaits (b.bar4Da x) n = false)
    (hread : b.daRead (b.bar4Da x) n = (.ok out e, b1)) : b.bar4Read x n ide = b1.emit (.readData out) := by
  obtain ⟨read, hdef⟩ : ∃ f, f = Block.daRead := exists_eq
  rw [← hdef] at hread
  simp only [Block.bar4Read, hsup, Bool.false_eq_true, if_false, hbar, hwait, ← hdef, hread]

theorem bar4Read_barred {x n ide st : Nat} (hsup : b.unsupported ide = false) (hbar : b.bar4Bar (b.bar4Da x) n false = some st) :
    b.bar4Read x n ide = (b.logError st 13 0 0 (b.bar4Da x)).emit .completerAbort := by
  simp only [Block.bar4Read, hsup, Bool.false_eq_true, if_false, hbar]

theorem bar4Write_let {x ide : Nat} {bs : List Byte} (hsup : b.unsupported ide = false)
    (hbar : b.bar4Bar (b.bar4Da x) bs.length true = none) (hwait : b.writeWaits (b.bar4Da x) bs.length = false) :
    b.bar4Write x bs ide = (b.daWrite (b.bar4Da x) bs).1.tallyWhole 7 0 0 (b.bar4Da x) bs := by
  simp only [Block.bar4Write, hsup, Bool.false_eq_true, if_false, hbar, hwait]

theorem bar4Write_barred {x ide st : Nat} {bs : List Byte} (hsup : b.unsupported ide = false)
    (hbar : b.bar4Bar (b.bar4Da x) bs.length true = some st) : b.bar4Write x bs ide = b.logError st 13 0 0 (b.bar4Da x) := by
  simp only [Block.bar4Write, hsup, Bool.false_eq_true, if_false, hbar]

/-- Settles O55: the ring window, then the aperture where nothing bars the access and where something does. -/
theorem windowAndAperture : Obligations.WindowAndAperture := by
  unfold Obligations.WindowAndAperture
  intro s x n ide bs hlink hawake hready hide a da
  have hsup := unsupported_eq_false hready hide
  refine ⟨fun htdisp => ⟨?readWindow, ?writeWindow⟩, ?readAperture, ?writeAperture, ?readBarred, ?writeBarred⟩
  case readWindow => exact fun out e b1 hin hread => run_onTlp hlink hawake (bar2Read_inside hsup htdisp hin hread)
  case writeWindow => exact fun hin => run_onTlp hlink hawake (bar2Write_inside hsup htdisp hin)
  case readAperture => exact fun out e b1 hbar hwait hread => run_onTlp hlink hawake (bar4Read_let hsup hbar hwait hread)
  case writeAperture => exact fun hbar hwait => run_onTlp hlink hawake (bar4Write_let hsup hbar hwait)
  case readBarred => exact fun st hbar => run_onTlp hlink hawake (bar4Read_barred hsup hbar)
  case writeBarred => exact fun st hbar => run_onTlp hlink hawake (bar4Write_barred hsup hbar)

end Sys2Proof.Machine
end

section
/-!
PROOFS. Completions of the module's own reads (R38, R432) and PACKET_DISPATCH (R55, R56).
-/

namespace Sys2Proof.Machine

variable {b : Block}

/-! ### Completions -/

/-- Who asked for an answer gets it, the request taken. -/
def HostReq.deliver (who : HostReq) (tag : Nat) (r : Option (List Byte)) (b : Block) : Block :=
  match who, r with
  | .slots n first k, some bs =>
    (b.setRing n { b.ring n with fetched := (b.ring n).fetched + k, asked := 0, buf := (b.ring n).buf.setL 0 (64 * first) bs }).fetchSlots n
  | .slots n _ _, none => (b.setRing n { b.ring n with asked := 0 }).ringError n Status.hostAccessFail
  | .move t xfer g, _ => b.moveHostData t xfer g r
  | .tier c off _, _ => b.tierHostData c off r
  | .flush c, some _ => b.tierAck c true
  | .flush c, none => b.tierHostData c 0 none
  | .stream k, some _ => ({ b with host.reqs := (tag, HostReq.stream k) :: b.host.reqs } : Block).streamComplete k
  | .stream k, none => b.streamWriteFail k
  | .restore c _ _, _ => b.restHostData c r
  | .boot _ _, _ => b.bootData r

/-- The answer to an outstanding request. -/
theorem hostAnswer_found {tag : Nat} {who : HostReq} {r : Option (List Byte)} {b1 : Block}
    (hfind : b.host.reqs.find? (fun x => x.1 = tag) = some (tag, who))
    (hb1 : b1 = { b with host.reqs := b.host.reqs.filter (fun y => y.1 ≠ tag) }) : b.hostAnswer tag r = who.deliver tag r b1 := by
  unfold Block.hostAnswer
  split
  case h_1 h => cases h.symm.trans hfind
  case h_2 x h =>
    obtain rfl : (tag, who) = x := Option.some.inj (hfind.symm.trans h)
    rw [hb1]
    rfl

theorem restHostData_fail {c : Cmd} (h : b.cmd c.id = some c) : b.restHostData c.id none = b.restFail c Status.hostAccessFail 0 := by
  simp only [Block.restHostData, h]

theorem restHostData_bytes (id : Nat) (bs : List Byte) (b : Block) : b.restHostData id (some bs) = b.restArrive id bs := by
  unfold Block.restHostData
  cases b.cmd id with
  | none => rfl
  | some c => rfl

/-- Settles O56: a timeout is a failed completion, and each kind of request by its success and its failure. -/
theorem hostCompletions : Obligations.HostCompletions := by
  unfold Obligations.HostCompletions
  intro s tag who bs b1 hlink hfind hb1
  have hdone : ∀ b2 : Block, who.deliver tag (some bs) b1 = b2 → exec (.hostReadCompletion tag true bs) s = .next (s.put b2) :=
    fun b2 h => run_put ((if_pos hlink).trans ((hostAnswer_found hfind hb1).trans h))
  have hfail : ∀ b2 : Block, who.deliver tag none b1 = b2 → exec (.completionTimeout tag) s = .next (s.put b2) :=
    fun b2 h => run_put ((if_pos hlink).trans ((hostAnswer_found hfind hb1).trans h))
  refine ⟨rfl, ?slots, ?tier, ?stream, ?restore⟩
  case slots =>
    intro n first k hwho
    subst hwho
    exact ⟨hdone _ rfl, hfail _ rfl⟩
  case tier =>
    intro id off n hwho
    subst hwho
    exact ⟨hdone _ rfl, hfail _ rfl⟩
  case stream =>
    intro k hwho
    subst hwho
    exact hfail _ rfl
  case restore =>
    intro c off n hwho hcmd
    subst hwho
    exact ⟨hdone _ (restHostData_bytes c.id bs b1), hfail _ (restHostData_fail hcmd)⟩

/-! ### PACKET_DISPATCH -/

/-- The oldest packet held is dispatched where it can start. -/
theorem tryDispatch_oldest {src : Src} {c : Cmd} {cs : List Cmd} (hheld : b.heldOf src = c :: cs) (hstart : b.canStart c = true) :
    b.tryDispatch src = (b.setHeld src cs).dispatch c := by
  simp only [Block.tryDispatch, hheld, hstart, if_true]

theorem serve_tileHeld {core : Nat} {c : Cmd} {cs : List Cmd} (h : b.mer.tileHeld.get [] core = c :: cs) :
    b.serve core true = b.tryDispatch c.pkt.src := by
  simp only [Block.serve, if_true, h]

theorem serve_tileQueue {core ring : Nat} {q : Packet} {l : List (Packet × Nat)} (hheld : b.mer.tileHeld.get [] core = [])
    (hq : b.mer.tileQ.get [] core = (q, ring) :: l) : b.serve core true = b.take q := by
  simp only [Block.serve, if_true, hheld, hq]

/-- The ring that a core picks gets its oldest held packet tried, or else its next packet read. -/
theorem serve_ring {core n : Nat} (h : b.pickRing core b.ringDue = some n) : b.serve core false =
    if (b.ring n).held.isEmpty then b.take (b.headPacket n) else b.tryDispatch (.ring n) := by
  simp only [Block.serve, Bool.false_eq_true, if_false, h]

/-- Settles O57: the tile command queue's two cases, then the picked ring's. -/
theorem packetDispatchServes : Obligations.PacketDispatchServes := by
  unfold Obligations.PacketDispatchServes
  intro s core
  refine ⟨?held, ?queue, ?ring⟩
  case held => exact fun c cs hheld hsame hstart => run_put ((serve_tileHeld hheld).trans (tryDispatch_oldest hsame hstart))
  case queue => exact fun q ring l hheld hq => run_put (serve_tileQueue hheld hq)
  case ring =>
    intro n hpick
    refine ⟨fun hheld => ?_, fun c cs hheld hstart => ?_⟩
    · exact run_put ((serve_ring hpick).trans (if_pos (List.isEmpty_iff.mpr hheld)))
    · refine run_put ((serve_ring hpick).trans ((if_neg ?_).trans (tryDispatch_oldest hheld hstart)))
      rw [hheld]
      exact Bool.false_ne_true

end Sys2Proof.Machine
end

section
/-!
PROOFS. Resets (R434, R476 to R479) and the phases of start-up (R408, R409, R480 to R486). That a reset waits for the whole COMMIT
phase is log entry 125, that the link is up at the end of ROM_INIT log entry 124.
-/

namespace Sys2Proof.Machine

variable {b : Block}

/-! ### Resets -/

/-- Outside COMMIT a trigger resets the module at once, and holds it by what it stands for. -/
theorem resetBy_now {hold : Nat} (h : b.boot.phase ≠ .commit) : b.resetBy hold = { b.moduleReset with
    boot.perst := b.moduleReset.boot.perst || bit hold 0, boot.brown := b.moduleReset.boot.brown || bit hold 1,
    boot.dark := false } := if_neg h

theorem resetBy_perst (h : b.boot.phase ≠ .commit) :
    b.resetBy 1 = { b.moduleReset with boot.perst := true, boot.dark := false } := by
  have hperst : (b.moduleReset.boot.perst || bit 1 0) = true := Bool.or_true _
  have hbrown : (b.moduleReset.boot.brown || bit 1 1) = b.moduleReset.boot.brown := Bool.or_false _
  rw [resetBy_now h, hperst, hbrown]

theorem resetBy_brown (h : b.boot.phase ≠ .commit) :
    b.resetBy 2 = { b.moduleReset with boot.brown := true, boot.dark := false } := by
  have hperst : (b.moduleReset.boot.perst || bit 2 0) = b.moduleReset.boot.perst := Bool.or_false _
  have hbrown : (b.moduleReset.boot.brown || bit 2 1) = true := Bool.or_true _
  rw [resetBy_now h, hperst, hbrown]

/-- In COMMIT a first trigger waits. -/
theorem resetBy_waits {hold : Nat} (h : b.boot.phase = .commit) (hdue : b.boot.due = none) :
    b.resetBy hold = { b with boot.due := some hold } := by
  have hhold : b.boot.due.getD 0 ||| hold = hold := by rw [hdue]; exact Nat.zero_or hold
  rw [Block.resetBy, if_pos h, hhold]

theorem unhold_perst {t : Boot} (h : t.due = none) : t.unhold 0 = { t with perst := false } := by
  simp only [Boot.unhold, h, Option.map_none, ne_eq, not_true_eq_false, decide_false, Bool.and_false, Nat.zero_ne_one, not_false_eq_true,
    decide_true, Bool.and_true]

theorem unhold_brown {t : Boot} (h : t.due = none) : t.unhold 1 = { t with brown := false } := by
  simp only [Boot.unhold, h, Option.map_none, ne_eq, not_true_eq_false, decide_false, Bool.and_false, Nat.one_ne_zero, not_false_eq_true,
    decide_true, Bool.and_true]

/-! ### The boot ROM -/

theorem toPhase_of_lt {us : Nat} (h : us < 2 ^ 32) (p : Phase) (b : Block) :
    b.toPhase p us = { b with boot.phase := p, boot.timeUs := us } := by
  have hmin : Nat.min us (2 ^ 32 - 1) = us := Nat.min_eq_left (by omega)
  rw [Block.toPhase, hmin]

theorem romInitDone_agree {us k y : Nat} {b1 b2 : Block} (hup : b.hubUp = true) (hphase : b.boot.phase = .romInit)
    (hk : b.draw 512 = (k, b1)) (hy : b1.draw 512 = (y, b2)) : b.romInitDone true us =
      Block.toPhase .waitImage us { b2 with trust.domainKeys := [(15, some k)], trust.sysKey := y, host.linkUp := true } := by
  have hgo : ¬ (!b.hubUp || decide (b.boot.phase ≠ .romInit)) = true := by
    rw [hup, decide_eq_false (not_not.mpr hphase)]
    exact Bool.false_ne_true
  simp only [Block.romInitDone, if_neg hgo, Bool.not_true, Bool.false_eq_true, if_false, hk, hy]

/-- A right BOOT_GO asks for the first piece of the bundle. -/
theorem bootGo_right {us : Nat} {b1 : Block} (hup : b.hubUp = true) (hphase : b.boot.phase = .waitImage)
    (hmaster : b.host.busMaster = true) (hmin : 64 ≤ b.boot.len) (hmax : b.boot.len ≤ 8388608) (halign : b.boot.len % 64 = 0)
    (hend : b.boot.addr + b.boot.len ≤ 2 ^ 64) (hus : us < 2 ^ 32)
    (hb1 : b1 = { b with boot.fetchErr := 0, boot.bundle := [], boot.phase := .fetch, boot.timeUs := us }) :
    b.bootGo us = b1.askHost b1.boot.addr (Nat.min 4096 b1.boot.len) (.boot 0 (Nat.min 4096 b1.boot.len)) := by
  have hgo : ¬ (!b.hubUp || decide (b.boot.phase ≠ .waitImage)) = true := by
    rw [hup, decide_eq_false (not_not.mpr hphase)]
    exact Bool.false_ne_true
  have hmaster' : ¬ (!b.host.busMaster) = true := by
    rw [hmaster]
    exact Bool.false_ne_true
  have hfields : ¬ (b.boot.len < 64 ∨ 8388608 < b.boot.len ∨ b.boot.len % 64 ≠ 0 ∨ 2 ^ 64 < b.boot.addr + b.boot.len) := by omega
  have hfetch : Block.toPhase .fetch us { b with boot.fetchErr := 0, boot.bundle := [] } = b1 := by
    rw [toPhase_of_lt hus, hb1]
  have hsome : Nat.min 4096 b1.boot.len ≠ 0 := by
    have hlen : b1.boot.len = b.boot.len := by rw [hb1]
    rw [hlen]
    exact Nat.pos_iff_ne_zero.mp (Nat.lt_min.mpr ⟨by decide, by omega⟩)
  have hempty : b1.boot.bundle.length = 0 := by rw [hb1]; rfl
  rw [Block.bootGo, if_neg hgo, if_neg hmaster', if_neg hfields, hfetch]
  simp only [Block.askBundle, hempty, Nat.add_zero, Nat.sub_zero, if_neg hsome]

theorem bootFetchDone_whole {us : Nat} (hphase : b.boot.phase = .fetch) (hlen : b.boot.bundle.length = b.boot.len) :
    b.bootFetchDone us = Block.toPhase .verify us { b with trust.bootState := 1 } := by
  have hgo : (decide (b.boot.phase = .fetch) && decide (b.boot.bundle.length = b.boot.len)) = true := by
    rw [decide_eq_true hphase, decide_eq_true hlen]
    rfl
  exact if_pos hgo

theorem bootVerifyDone_passed {us : Nat} (hphase : b.boot.phase = .verify) (hcheck : b.bootCheck b.boot.bundle = none) :
    b.bootVerifyDone us = Block.toPhase .commit us { b with trust.bootErr := 0 } := by
  simp only [Block.bootVerifyDone, if_neg (not_not.mpr hphase), hcheck]

/-- A refusal before the eighth waits for another image. -/
theorem bootVerifyDone_refused {us n : Nat} (hphase : b.boot.phase = .verify) (hcheck : b.bootCheck b.boot.bundle = some n)
    (htries : b.trust.bootTries + 1 < 8) : b.bootVerifyDone us = Block.toPhase .waitImage us { b with
      boot.bundle := [], trust.bootErr := n, trust.bootTries := b.trust.bootTries + 1, trust.bootState := 0 } := by
  simp only [Block.bootVerifyDone, if_neg (not_not.mpr hphase), hcheck, if_neg (Nat.not_le.mpr htries)]

/-- COMMIT with no reset waiting and counters that read back goes on to Merlen. -/
theorem bootCommitDone_readback {us : Nat} (hphase : b.boot.phase = .commit) (hdue : b.boot.due = none) :
    b.bootCommitDone true us = Block.toPhase .merlenInit us { b.commitSteps with boot.due := none, trust.bootState := 2 } := by
  simp only [Block.bootCommitDone, if_neg (not_not.mpr hphase), hdue, if_true]

/-- Setting a tile leaves the start-up state, so every tile starts by the same one. -/
theorem startTiles_foldl {t : Boot} : ∀ (l : List (Nat × Option Nat)) {b : Block}, b.boot = t →
    l.foldl (fun (b : Block) x => b.setTile x.1 (b.boot.startTile x.1 x.2)) b =
      l.foldl (fun (b : Block) x => b.setTile x.1 (t.startTile x.1 x.2)) b
  | [], _, _ => rfl
  | x :: l, b, h => by
    simp only [List.foldl_cons, h]
    exact startTiles_foldl l ((setTile_boot _ _ b).trans h)

/-- A self-test with no failed step numbers the tiles and publishes the Almanac. -/
theorem selfTestDone_passed {unit index us : Nat} {pcs phys : List Nat} {rows : List (Nat × Nat)} {b1 b2 b3 : Block}
    (hphase : b.boot.phase = .selfTest)
    (hb1 : b1 = { b with fab.ports := (List.range 8).foldl (fun (m : Sparse Port) k =>
      m.upd Port.zero k (fun p => if p.st = .down then { p with st := .train } else p)) b.fab.ports })
    (hb2 : b2 = b1.testPcs pcs) (hb3 : b3 = { b2 with boot := b2.boot.testTiles phys rows }) :
    b.selfTestDone 0 unit index pcs phys rows us =
      (b3.boot.numbering.foldl (fun (b : Block) x => b.setTile x.1 (b3.boot.startTile x.1 x.2)) b3).publish us := by
  have hports : (if 0 = 1 then b else { b with fab.ports := (List.range 8).foldl (fun (m : Sparse Port) k =>
      m.upd Port.zero k (fun p => if p.st = .down then { p with st := .train } else p)) b.fab.ports }) = b1 :=
    (if_neg (by decide)).trans hb1.symm
  have hhub : ¬ (decide (0 = 2) && decide (unit = 11)) = true := Bool.false_ne_true
  rw [Block.selfTestDone, if_neg (not_not.mpr hphase)]
  dsimp only
  have hboot : b3.boot = b2.boot.testTiles phys rows := by rw [hb3]
  rw [hports, if_neg hhub, if_neg (not_not.mpr rfl), ← hb2, ← hb3, ← hboot, startTiles_foldl b3.boot.numbering rfl]

/-- Settles O58: the resets and what holds them, the function's resets, then each phase of start-up in its order. -/
theorem resetsAndStartUp : Obligations.ResetsAndStartUp := by
  unfold Obligations.ResetsAndStartUp
  intro s
  refine ⟨?powerOn, fun hphase => ⟨?perst, ?brown⟩,
    fun hdue => ⟨fun hphase => ⟨?perstWaits, ?brownWaits⟩, ?perstEnds, fun hperst => ?brownEnds⟩,
    fun hup => ⟨?flr, ?down, ?hot⟩, ?boot⟩
  case powerOn =>
    intro n b1 hn
    refine run_put ?_
    simp only [hn]
  case perst => exact run_put (resetBy_perst hphase)
  case brown => exact run_put (resetBy_brown hphase)
  case perstWaits => exact run_put (resetBy_waits hphase hdue)
  case brownWaits => exact run_put (resetBy_waits hphase hdue)
  case perstEnds => exact run_put (congrArg (fun t => { s.blk with boot := t }) (unhold_perst hdue))
  case brownEnds =>
    exact run_put ((if_neg (Bool.eq_false_iff.mp hperst)).trans (congrArg (fun t => { s.blk with boot := t }) (unhold_brown hdue)))
  case flr => exact run_put (if_pos hup)
  case down => exact run_put (if_pos hup)
  case hot => exact run_put (if_pos hup)
  case boot =>
    intro us hus at_
    refine ⟨?rom, ?go, fun hphase hlen => ?fetched, fun hphase => ⟨fun hcheck => ?passed, ?refused⟩, ?commit,
      fun hphase => ?merlen, ?selfTest⟩
    case rom =>
      intro k y b1 b2 hup hphase hk hy
      exact run_put ((romInitDone_agree hup hphase hk hy).trans (toPhase_of_lt hus _ _))
    case go =>
      intro b1 hup hphase hmaster hmin hmax halign hend hb1
      exact run_put (bootGo_right hup hphase hmaster hmin hmax halign hend hus hb1)
    case fetched => exact run_put ((bootFetchDone_whole hphase hlen).trans (toPhase_of_lt hus _ _))
    case passed => exact run_put ((bootVerifyDone_passed hphase hcheck).trans (toPhase_of_lt hus _ _))
    case refused =>
      intro n hcheck htries
      exact run_put ((bootVerifyDone_refused hphase hcheck htries).trans (toPhase_of_lt hus _ _))
    case commit =>
      intro b1 hphase hdue hb1
      rw [hb1]
      exact run_put ((bootCommitDone_readback hphase hdue).trans (toPhase_of_lt hus _ _))
    case merlen => exact run_put ((if_pos hphase).trans (toPhase_of_lt hus _ _))
    case selfTest =>
      intro unit index pcs phys rows b1 b2 b3 hphase hb1 hb2 hb3
      exact run_put (selfTestDone_passed hphase hb1 hb2 hb3)

end Sys2Proof.Machine
end

section
/-!
PROOFS. Management (R412, R435 to R439) and test access (R422, R440, R441). The MCTP and SPDM codes are log entry 137 (PRESUMED), the
board bytes 138, the co-signature 140; TAP_RESET's IDCODE and a bypass that captures 0 are 141, DEBUG_LOCKED in the record 142, what
DBG_READ reads 143.
-/

namespace Sys2Proof.Machine

variable {b : Block}

/-! ### MCTP and SPDM -/

theorem mctpControl_served {t cmd a e : Nat} (hserve : b.mctpServes t = true) : b.mctpControl t cmd a e =
    match cmd with
    | 1 =>
      if 2 ≤ a ∨ e = 0 ∨ e = 255 then b.reply t (natBytes [1, 2])
      else Block.reply t (natBytes [1, 0, 0, e, 0]) { b with host := b.host.setEid t e }
    | 2 => b.reply t (natBytes [2, 0, b.host.eid t, 0, 0])
    | 4 => b.reply t (natBytes [4, 0, 1, 0xF1, 0xF3, 0xF1, 0])
    | 5 => b.reply t (natBytes [5, 0, 3, 5, 6, 0x7E])
    | n => b.reply t (natBytes [n, 5]) := by
  have hgo : ¬ (!b.mctpServes t) = true := by
    rw [hserve]
    exact Bool.false_ne_true
  exact if_neg hgo

/-- An SPDM request that the trust state and the number of sessions let through: its body, with what its code changes. -/
theorem spdmRequest_served {t code : Nat} {req body : List Byte} {b1 : Block} (hserve : b.mctpServes t = true)
    (hdark : b.boot.dark = false) (hawake : b.isAwake = true) (hstate : b.trust.bootState ≠ 4)
    (hcode : (req.getD 1 0).toNat = code) (hroom : code = 0xE4 → b.trust.spdmSessions < 4) (hbody : b.spdmBody req = (body, b1)) :
    b.spdmRequest t req = Block.reply t body (
      if code = 0xE4 then { b1 with trust.spdmSessions := b1.trust.spdmSessions + 1 }
      else if code = 0xEC then { b1 with trust.spdmSessions := b1.trust.spdmSessions - 1 }
      else if code = 0xE0 && bit (req.getD 2 0).toNat 0 then
        { b1 with trust.spdmTranscript := b1.trust.spdmTranscript.set [] t (req ++ body) }
      else b1) := by
  have hgo : ¬ (!b.mctpServes t) = true := by
    rw [hserve]
    exact Bool.false_ne_true
  have hfailed : ¬ (decide (b.trust.bootState = 4) && decide (code ≠ 0x84)) = true := by
    rw [decide_eq_false hstate]
    exact Bool.false_ne_true
  have hfull : ¬ (decide (code = 0xE4) && decide (4 ≤ b.trust.spdmSessions)) = true := by
    rw [Bool.and_eq_true, decide_eq_true_eq, decide_eq_true_eq]
    exact fun h => Nat.not_le.mpr (hroom h.1) h.2
  simp only [Block.spdmRequest, if_neg hgo, hdark, Bool.false_eq_true, if_false, wakeBy_of_awake hdark hawake, hcode, if_neg hfailed,
    if_neg hfull, hbody]

/-- The co-signature over a transcript that is there, with a leaf left for it. -/
theorem coSign_signed {t : Nat} {sig : List Byte} {b1 : Block} (hserve : b.mctpServes t = true)
    (hdark : b.boot.dark = false) (hawake : b.isAwake = true) (hstate : b.trust.bootState ≠ 4) (hleaf : 0 < b.trust.bootLeft)
    (htr : b.trust.spdmTranscript.get [] t ≠ [])
    (hsig : b.pbSign (leBytes 48 (Config.sha384 (b.trust.spdmTranscript.get [] t))) = (sig, b1)) : b.coSign t 1 = b1.reply t sig := by
  have hgo : ¬ (!b.mctpServes t) = true := by
    rw [hserve]
    exact Bool.false_ne_true
  have hbar : ¬ (decide (b.trust.bootState = 4) || decide (1 ≠ 1) || decide (b.trust.bootLeft = 0) ||
      (b.trust.spdmTranscript.get [] t).isEmpty) = true := by
    rw [decide_eq_false hstate, decide_eq_false (Nat.pos_iff_ne_zero.mp hleaf),
      Bool.eq_false_iff.mpr (fun h => htr (List.isEmpty_iff.mp h))]
    exact Bool.false_ne_true
  simp only [Block.coSign, if_neg hgo, hdark, Bool.false_eq_true, if_false, wakeBy_of_awake hdark hawake, if_neg hbar, hsig]

/-! ### IDE key management -/

/-- What an IDE_KM message changes. -/
def Block.ideStep (act stream set : Nat) (b : Block) : Block :=
  match act with
  | 0 => { b with host.ideKeys := (stream, set) :: b.host.ideKeys.filter (fun k => k ≠ (stream, set)) }
  | 1 => if b.host.ideKeys.contains (stream, set) then b.ideSet stream true else b
  | _ => Block.ideSet stream false { b with host.ideKeys := b.host.ideKeys.filter (fun k => k.1 ≠ stream) }

theorem ideKm_session {t act stream set : Nat} {body : List Byte} {b1 : Block} (hserve : b.mctpServes t = true)
    (hdark : b.boot.dark = false) (hawake : b.isAwake = true) (hsession : 0 < b.trust.spdmSessions) (hstate : b.trust.bootState ≠ 4)
    (hbody : b.spdmBody (natBytes [act, stream, set]) = (body, b1)) :
    b.ideKm t act stream set = (b1.ideStep act stream set).reply t body := by
  have hgo : ¬ (!b.mctpServes t || b.boot.dark) = true := by
    rw [hserve, hdark]
    exact Bool.false_ne_true
  have hbar : ¬ (decide (b.trust.spdmSessions = 0) || decide (b.trust.bootState = 4)) = true := by
    rw [decide_eq_false (Nat.pos_iff_ne_zero.mp hsession), decide_eq_false hstate]
    exact Bool.false_ne_true
  simp only [Block.ideKm, if_neg hgo, wakeBy_of_awake hdark hawake, if_neg hbar, hbody]
  rfl

/-! ### Board management -/

/-- A board command that needs Merlen, READY and awake. -/
theorem boardMerlen_ready {t cmd seq : Nat} (hdark : b.boot.dark = false) (hawake : b.isAwake = true) (hready : b.isReady = true)
    (f : Block → Block) : b.boardMerlen t cmd seq f = f b := by
  have hgo : ¬ (!b.isReady) = true := by
    rw [hready]
    exact Bool.false_ne_true
  exact (if_neg hgo).trans (congrArg f (wakeBy_of_awake hdark hawake 5 13 1))

theorem getLog_inside {t seq first count : Nat} (hlo : 1 ≤ count) (hhi : count ≤ 16) : b.getLog t seq first count =
    b.board t 5 seq 0 (((b.log.from_ first count).1.map (fun e => (if b.trust.sealedReq then e.masked else e).bytes)).flatten) := by
  have hgo : ¬ (count = 0 ∨ 16 < count) := by omega
  exact if_neg hgo

theorem setPlCeiling_inside {t seq l : Nat} {b1 : Block} (hl : l ≤ 7) (hb1 : b1 = b.onPower (fun p => { p with ceiling := l })) :
    b.setPlCeiling t seq l = b1.board t 6 seq 0 (natBytes [b1.pow.target]) := by
  have hset : b.setCeiling l = b1 := hb1.symm
  simp only [Block.setPlCeiling, if_neg (Nat.not_lt.mpr hl), hset]

/-- A reset that nothing holds. -/
theorem resetBy_command (h : b.boot.phase ≠ .commit) : b.resetBy 0 = { b.moduleReset with boot.dark := false } := by
  have hperst : (b.moduleReset.boot.perst || bit 0 0) = b.moduleReset.boot.perst := Bool.or_false _
  have hbrown : (b.moduleReset.boot.brown || bit 0 1) = b.moduleReset.boot.brown := Bool.or_false _
  rw [resetBy_now h, hperst, hbrown]

theorem lockInterface_bound (htdisp : b.host.tdisp = .unlocked) (hjob : b.trust.job ≠ 0) (hide : b.host.ideSel = true) :
    b.lockInterface = { b with host.tdisp := .locked } := by
  have hgo : (decide (b.host.tdisp = .unlocked) && decide (b.trust.job ≠ 0) && b.host.ideSel) = true := by
    rw [decide_eq_true htdisp, decide_eq_true hjob, hide]
    rfl
  exact if_pos hgo

/-- Settles O59: MCTP, SPDM, the co-signature, IDE_KM and the board commands on a served transport; TDISP; the I3C address. -/
theorem managementCommands : Obligations.ManagementCommands := by
  unfold Obligations.ManagementCommands
  intro s t
  refine ⟨fun hserve hdark hawake => ⟨?setEid, ?getEid, ?spdm, ?coSign, ?ideKm, ?board⟩, fun hup => ⟨?lock, ?start, ?stop⟩,
    fun a => run_put rfl⟩
  case setEid =>
    intro e hlo hhi
    have hid : ¬ (2 ≤ 0 ∨ e = 0 ∨ e = 255) := by omega
    exact run_put ((mctpControl_served hserve).trans (if_neg hid))
  case getEid => exact fun a e => run_put (mctpControl_served hserve)
  case spdm =>
    intro req body b1 hstate hbody
    refine ⟨fun hcode hroom => ?exchange, fun hcode => ?finish, fun hcode hsigned => ?measure⟩
    case exchange => exact run_put (spdmRequest_served hserve hdark hawake hstate hcode (fun _ => hroom) hbody)
    case finish =>
      exact run_put (spdmRequest_served hserve hdark hawake hstate hcode (fun h => absurd h (by decide)) hbody)
    case measure =>
      have hkeep : (decide (0xE0 = 0xE0) && bit (req.getD 2 0).toNat 0) = true := hsigned
      exact run_put ((spdmRequest_served hserve hdark hawake hstate hcode (fun h => absurd h (by decide)) hbody).trans
        (congrArg (Block.reply t body) (if_pos hkeep)))
  case coSign => exact fun sig b1 hstate hleaf htr hsig => run_put (coSign_signed hserve hdark hawake hstate hleaf htr hsig)
  case ideKm =>
    intro stream set body b1 hsession hstate
    refine ⟨fun hbody => ?program, fun hbody hkey => ?go, fun hbody b2 hb2 => ?halt⟩
    case program => exact run_put (ideKm_session hserve hdark hawake hsession hstate hbody)
    case go =>
      exact run_put ((ideKm_session hserve hdark hawake hsession hstate hbody).trans
        (congrArg (Block.reply t body) (if_pos (List.contains_iff_mem.mpr hkey))))
    case halt =>
      rw [hb2]
      exact run_put (ideKm_session hserve hdark hawake hsession hstate hbody)
  case board =>
    intro seq
    refine ⟨run_put (if_pos hserve), run_put (if_pos hserve), fun mv ma aux => run_put (if_pos hserve),
      fun hready => ⟨?almanac, ?log, ?ceiling⟩,
      ?reset⟩
    case almanac => exact run_put ((if_pos hserve).trans (boardMerlen_ready hdark hawake hready _))
    case log =>
      exact fun first count hlo hhi => run_put ((if_pos hserve).trans ((boardMerlen_ready hdark hawake hready _).trans
        (getLog_inside hlo hhi)))
    case ceiling =>
      exact fun l b1 hl hb1 => run_put ((if_pos hserve).trans ((boardMerlen_ready hdark hawake hready _).trans
        (setPlCeiling_inside hl hb1)))
    case reset =>
      intro b1 hphase hb1
      rw [hb1]
      exact run_put ((if_pos hserve).trans (resetBy_command hphase))
  case lock => exact fun htdisp hjob hide => run_put ((if_pos hup).trans (lockInterface_bound htdisp hjob hide))
  case start => exact fun htdisp => run_put ((if_pos hup).trans (if_pos htdisp))
  case stop => exact run_put (if_pos hup)

/-! ### Test access -/

/-- DBG_FULL at level 2, on bytes that are read. -/
theorem dbgFull_read {s : State} {da n : Nat} {xs : List Byte} {e : Bool} {b1 : Block} (hir : s.blk.jtag.ir = 0x11)
    (hlevel : s.blk.trust.debugLevel = 2) (hread : s.blk.daRead da n = (.ok xs e, b1)) :
    exec (.dbgFull da n []) s = .next (s.put (b1.emit (.tdo (8 * n) (leNat xs)))) := by
  refine run_put ((if_pos hir).trans ((if_neg (not_not.mpr hlevel)).trans ((if_pos rfl).trans ?_)))
  obtain ⟨read, hdef⟩ : ∃ f, f = Block.daRead := exists_eq
  rw [← hdef] at hread ⊢
  simp only [hread]

theorem dbgFull_write {s : State} {da n : Nat} {bs : List Byte} (hir : s.blk.jtag.ir = 0x11) (hlevel : s.blk.trust.debugLevel = 2)
    (hne : bs ≠ []) (hpop : localPopulated da bs.length = true) (hwait : s.blk.writeWaits da bs.length = false)
    (hro : s.blk.roHit da bs.length = false) : exec (.dbgFull da n bs) s = .next (s.put (s.blk.daWrite da bs).1) := by
  have hsome : ¬ bs.isEmpty = true := fun h => hne (List.isEmpty_iff.mp h)
  have hgo : ¬ (!localPopulated da bs.length || s.blk.writeWaits da bs.length || s.blk.roHit da bs.length) = true := by
    rw [hpop, hwait, hro]
    exact Bool.false_ne_true
  exact run_put ((if_pos hir).trans ((if_neg (not_not.mpr hlevel)).trans ((if_neg hsome).trans (if_neg hgo))))

/-- A refused instruction selects bypass, is counted, and is logged while the hub is up. -/
theorem irLoad_refused {code : Nat} (hok : b.irOk code = false) (hup : b.hubUp = true) : b.irLoad code =
    Block.logError Status.debugLocked 14 code 0 0 { b with jtag.ir := 0xFF, jtag.refused := b.jtag.refused + 1 } :=
  (if_neg (Bool.eq_false_iff.mp hok)).trans (if_pos hup)

/-- Settles O60: the TAP's reset, the loading of an instruction, and each data scan under its instruction. -/
theorem testAccess : Obligations.TestAccess := by
  unfold Obligations.TestAccess
  intro s n captured v out cells
  refine ⟨run_put rfl, fun code => ⟨fun hok => run_put (if_pos hok), fun hok hup => run_put (irLoad_refused hok hup)⟩,
    fun hir => run_put (if_pos hir), fun hir => run_put (if_pos hir), fun hir => run_put (if_pos hir), fun hir => run_put (if_pos hir),
    fun hir => run_put (if_pos hir), fun hir => run_put (if_pos hir), fun hir => run_put (if_pos hir), fun hir => run_put (if_pos hir),
    ?dbgRead, ?dbgFull⟩
  case dbgRead =>
    intro off hir hlevel hreads
    have hgo : (debugReads off && decide (1 ≤ s.blk.trust.debugLevel)) = true := by
      rw [hreads, decide_eq_true hlevel]
      rfl
    exact run_put ((if_pos hir).trans (if_pos hgo))
  case dbgFull =>
    intro da xs bs e b1 hir hlevel
    exact ⟨fun hread => dbgFull_read hir hlevel hread, fun hne hpop hwait hro => dbgFull_write hir hlevel hne hpop hwait hro⟩

end Sys2Proof.Machine
end
